-- ==== Sys2Proof/Word.lean ====
section
/-! DEFINITION. Word: the word types of the part (00 R3, R4) and the plainest arithmetic on them. -/

namespace Sys2Proof

/-- A dword of 64 bits: the contents of a scalar or control register, an address while it is computed. -/
abbrev Word := BitVec 64

/-- A byte of memory. -/
abbrev Byte := BitVec 8

/-- The field of n bits that begins at bit lo (00 R3). -/
def fld (w lo n : Nat) : Nat := w / 2 ^ lo % 2 ^ n

end Sys2Proof
end

