-- ==== Sys2Proof/Syntax.lean ====
section
/-! DEFINITION. Syntax: the ONE inductive of the machine, one constructor per row of
spec/opcode_table.json. The first 286 are instruction words (07 R158, R159, R176, R177): `s` is the stall
count S [30:29] and `c` the convoy bit C [31] of a vector word. The last 89 are the operations and events of
the part that have no word (95_what_each_step_holds): an agenda (State.agenda) names them. -/

namespace Sys2Proof

/-- The format codes of 04 R80; codes 01100, 10000 and 11000 name no format (R60). `sb4 p`, `sb8 p` and
`nb8 p` have p + 1 significant bits. -/
inductive Fmt where
  | i8 | n8 | i16 | n16 | i32 | n32 | i64 | n64 | f64 | f32 | bf16 | f16
  | sb4 (p : Fin 3) | sb8 (p : Fin 7) | nb8 (p : Fin 7)
deriving DecidableEq, Repr

/-- The kinds of FENCE (05 R126). -/
inductive FenceKind where
  | loads | stores | both | loose
deriving DecidableEq, Repr

/-- The scopes of FENCE (05 R127). -/
inductive FenceScope where
  | thread | core | die | package | system
deriving DecidableEq, Repr

/-- One axis of an offset operand (06 R147): 0, +1 or −1. -/
inductive Off where
  | zero | plus | minus
deriving DecidableEq, Repr

/-- The conditions of VCMP and VFCMP (09 R219); `un` belongs to VFCMP alone. -/
inductive Cond where
  | eq | ne | lt | le | gt | ge | un
deriving DecidableEq, Repr

/-- The coordinate pairs of VTRN (09 R225). -/
inductive Pair where
  | xy | yz | xz
deriving DecidableEq, Repr

/-- One constructor per row of spec/opcode_table.json. -/
inductive Instr where
  /-- ADD (R182): Writes the 64-bit sum of xa and xb, modulo 2^64, to xd. -/
  | add (s : Fin 4) (d : Fin 32) (a : Fin 32) (b : Fin 32)
  /-- SUB (R182): Writes xa minus xb, modulo 2^64, to xd. -/
  | sub (s : Fin 4) (d : Fin 32) (a : Fin 32) (b : Fin 32)
  /-- ADD.W (R182): Writes the sign-extended low 32 bits of xa plus xb to xd. -/
  | addW (s : Fin 4) (d : Fin 32) (a : Fin 32) (b : Fin 32)
  /-- SUB.W (R182): Writes the sign-extended low 32 bits of xa minus xb to xd. -/
  | subW (s : Fin 4) (d : Fin 32) (a : Fin 32) (b : Fin 32)
  /-- MUL (R182): Writes bits 63:0 of xa times xb to xd. -/
  | mul (s : Fin 4) (d : Fin 32) (a : Fin 32) (b : Fin 32)
  /-- MULH (R182): Writes the high 64 bits of the signed 128-bit product to xd. -/
  | mulh (s : Fin 4) (d : Fin 32) (a : Fin 32) (b : Fin 32)
  /-- MULHN (R182): Writes the high 64 bits of the unsigned 128-bit product to xd. -/
  | mulhn (s : Fin 4) (d : Fin 32) (a : Fin 32) (b : Fin 32)
  /-- DIV (R182): Signed division truncating toward zero; a zero divisor gives all ones and raises IDZ. -/
  | div (s : Fin 4) (d : Fin 32) (a : Fin 32) (b : Fin 32)
  /-- DIVN (R182): Unsigned division; a zero divisor gives all ones and raises IDZ. -/
  | divn (s : Fin 4) (d : Fin 32) (a : Fin 32) (b : Fin 32)
  /-- REM (R182): Signed remainder, with the sign of the dividend, by R82. -/
  | rem (s : Fin 4) (d : Fin 32) (a : Fin 32) (b : Fin 32)
  /-- REMN (R182): Unsigned remainder, by R82. -/
  | remn (s : Fin 4) (d : Fin 32) (a : Fin 32) (b : Fin 32)
  /-- AND (R182): Writes the bitwise AND of xa and xb to xd. -/
  | and (s : Fin 4) (d : Fin 32) (a : Fin 32) (b : Fin 32)
  /-- OR (R182): Writes the bitwise OR of xa and xb to xd. -/
  | or (s : Fin 4) (d : Fin 32) (a : Fin 32) (b : Fin 32)
  /-- XOR (R182): Writes the bitwise XOR of xa and xb to xd. -/
  | xor (s : Fin 4) (d : Fin 32) (a : Fin 32) (b : Fin 32)
  /-- ANDN (R182): Writes xa AND NOT xb to xd. -/
  | andn (s : Fin 4) (d : Fin 32) (a : Fin 32) (b : Fin 32)
  /-- SLL (R182): Shifts xa left by xb[5:0]. -/
  | sll (s : Fin 4) (d : Fin 32) (a : Fin 32) (b : Fin 32)
  /-- SRL (R182): Shifts xa right logically by xb[5:0]. -/
  | srl (s : Fin 4) (d : Fin 32) (a : Fin 32) (b : Fin 32)
  /-- SRA (R182): Shifts xa right arithmetically by xb[5:0]. -/
  | sra (s : Fin 4) (d : Fin 32) (a : Fin 32) (b : Fin 32)
  /-- SLT (R182): Writes 1 if xa is less than xb as signed values, else 0. -/
  | slt (s : Fin 4) (d : Fin 32) (a : Fin 32) (b : Fin 32)
  /-- SLTN (R182): Writes 1 if xa is less than xb as unsigned values, else 0. -/
  | sltn (s : Fin 4) (d : Fin 32) (a : Fin 32) (b : Fin 32)
  /-- MIN (R182): Writes the signed lesser of xa and xb. -/
  | min (s : Fin 4) (d : Fin 32) (a : Fin 32) (b : Fin 32)
  /-- MAX (R182): Writes the signed greater of xa and xb. -/
  | max (s : Fin 4) (d : Fin 32) (a : Fin 32) (b : Fin 32)
  /-- MINN (R182): Writes the unsigned lesser of xa and xb. -/
  | minn (s : Fin 4) (d : Fin 32) (a : Fin 32) (b : Fin 32)
  /-- MAXN (R182): Writes the unsigned greater of xa and xb. -/
  | maxn (s : Fin 4) (d : Fin 32) (a : Fin 32) (b : Fin 32)
  /-- CLZ (R182): Writes the count of leading zeros of xa at width 64. -/
  | clz (s : Fin 4) (d : Fin 32) (a : Fin 32)
  /-- FFS (R182): Writes the index of the lowest set bit of xa, or 64 when xa is zero. -/
  | ffs (s : Fin 4) (d : Fin 32) (a : Fin 32)
  /-- POPC (R182): Writes the number of set bits of xa. -/
  | popc (s : Fin 4) (d : Fin 32) (a : Fin 32)
  /-- ADDI (R183): Adds the sign-extended imm13 to xa. -/
  | addi (s : Fin 4) (d : Fin 32) (a : Fin 32) (i : BitVec 13)
  /-- ANDI (R183): ANDs xa with the sign-extended imm13. -/
  | andi (s : Fin 4) (d : Fin 32) (a : Fin 32) (i : BitVec 13)
  /-- ORI (R183): ORs xa with the sign-extended imm13. -/
  | ori (s : Fin 4) (d : Fin 32) (a : Fin 32) (i : BitVec 13)
  /-- XORI (R183): XORs xa with the sign-extended imm13. -/
  | xori (s : Fin 4) (d : Fin 32) (a : Fin 32) (i : BitVec 13)
  /-- SLLI (R183): Shifts xa left by an immediate amount. -/
  | slli (s : Fin 4) (d : Fin 32) (a : Fin 32) (h : Fin 64)
  /-- SRLI (R183): Shifts xa right logically by an immediate amount. -/
  | srli (s : Fin 4) (d : Fin 32) (a : Fin 32) (h : Fin 64)
  /-- SRAI (R183): Shifts xa right arithmetically by an immediate amount. -/
  | srai (s : Fin 4) (d : Fin 32) (a : Fin 32) (h : Fin 64)
  /-- SLTI (R183): Signed compare of xa against the sign-extended imm12. -/
  | slti (s : Fin 4) (d : Fin 32) (a : Fin 32) (i : BitVec 12)
  /-- SLTNI (R183): Unsigned compare of xa against the sign-extended imm12. -/
  | sltni (s : Fin 4) (d : Fin 32) (a : Fin 32) (i : BitVec 12)
  /-- LUI (R183): Writes the sign-extended imm18 shifted left by 13 to xd. -/
  | lui (s : Fin 4) (d : Fin 32) (i : BitVec 18)
  /-- AUIPC (R183): Writes pc plus the sign-extended imm18 shifted left by 13 to xd. -/
  | auipc (s : Fin 4) (d : Fin 32) (i : BitVec 18)
  /-- FADD (R184): Rounded sum of two f64 or f32 sources. -/
  | fadd (s : Fin 4) (d : Fin 32) (a : Fin 32) (b : Fin 32) (p : Bool)
  /-- FSUB (R184): Rounded difference of two f64 or f32 sources. -/
  | fsub (s : Fin 4) (d : Fin 32) (a : Fin 32) (b : Fin 32) (p : Bool)
  /-- FMUL (R184): Rounded product of two f64 or f32 sources. -/
  | fmul (s : Fin 4) (d : Fin 32) (a : Fin 32) (b : Fin 32) (p : Bool)
  /-- FMAC (R184): Fused multiply-accumulate into xd, with one rounding. -/
  | fmac (s : Fin 4) (d : Fin 32) (a : Fin 32) (b : Fin 32) (p : Bool)
  /-- FDIV (R184): Rounded quotient, interlocked on the divide unit. -/
  | fdiv (s : Fin 4) (d : Fin 32) (a : Fin 32) (b : Fin 32) (p : Bool)
  /-- FMIN (R185): Writes the lesser of two floats, with -0 ordered below +0 and NaN handled as R185 states. -/
  | fmin (s : Fin 4) (d : Fin 32) (a : Fin 32) (b : Fin 32) (p : Bool)
  /-- FMAX (R185): Writes the greater of two floats, under the NaN rules of R185. -/
  | fmax (s : Fin 4) (d : Fin 32) (a : Fin 32) (b : Fin 32) (p : Bool)
  /-- FCMP_EQ (R185): Writes 1 when the two floats are equal, else 0. -/
  | fcmpEq (s : Fin 4) (d : Fin 32) (a : Fin 32) (b : Fin 32) (p : Bool)
  /-- FCMP_LT (R185): Writes 1 when xa is less than xb, else 0. -/
  | fcmpLt (s : Fin 4) (d : Fin 32) (a : Fin 32) (b : Fin 32) (p : Bool)
  /-- FCMP_LE (R185): Writes 1 when xa is less than or equal to xb, else 0. -/
  | fcmpLe (s : Fin 4) (d : Fin 32) (a : Fin 32) (b : Fin 32) (p : Bool)
  /-- FSQRT (R184): Rounded square root, interlocked on the divide unit. -/
  | fsqrt (s : Fin 4) (d : Fin 32) (a : Fin 32) (p : Bool)
  /-- FCLASS (R185): Writes a one-hot class mask of the float source. -/
  | fclass (s : Fin 4) (d : Fin 32) (a : Fin 32) (p : Bool)
  /-- FCVT (R186): Converts a float source to the format coded in the xb field. -/
  | fcvt (s : Fin 4) (d : Fin 32) (a : Fin 32) (t : Fmt) (p : Bool)
  /-- FCVTI (R186): Converts an i64 or n64 source to f64 or f32. -/
  | fcvti (s : Fin 4) (d : Fin 32) (a : Fin 32) (t : Fmt) (n : Bool)
  /-- BEQ (R187): Branches when xa equals xb. -/
  | beq (s : Fin 4) (a : Fin 32) (b : Fin 32) (i : BitVec 10)
  /-- BNE (R187): Branches when xa differs from xb. -/
  | bne (s : Fin 4) (a : Fin 32) (b : Fin 32) (i : BitVec 10)
  /-- BLT (R187): Branches on signed less-than. -/
  | blt (s : Fin 4) (a : Fin 32) (b : Fin 32) (i : BitVec 10)
  /-- BGE (R187): Branches on signed greater-or-equal. -/
  | bge (s : Fin 4) (a : Fin 32) (b : Fin 32) (i : BitVec 10)
  /-- BLTN (R187): Branches on unsigned less-than. -/
  | bltn (s : Fin 4) (a : Fin 32) (b : Fin 32) (i : BitVec 10)
  /-- BGEN (R187): Branches on unsigned greater-or-equal. -/
  | bgen (s : Fin 4) (a : Fin 32) (b : Fin 32) (i : BitVec 10)
  /-- J (R187): Jumps to pc plus 4 times the sign-extended disp23. -/
  | j (s : Fin 4) (i : BitVec 23)
  /-- JAL (R187): Jumps and writes pc plus 4 to x1. -/
  | jal (s : Fin 4) (i : BitVec 23)
  /-- JALR (R188): Jumps to xa plus imm, writing the link to xd, and traps ALIGN on a misaligned target. -/
  | jalr (s : Fin 4) (d : Fin 32) (a : Fin 32) (i : BitVec 13)
  /-- LD.B (R189): Loads a sign-extended byte from the global space. -/
  | ldB (s : Fin 4) (x : Fin 32) (a : Fin 32) (i : BitVec 10)
  /-- LD.H (R189): Loads a sign-extended halfword from the global space. -/
  | ldH (s : Fin 4) (x : Fin 32) (a : Fin 32) (i : BitVec 10)
  /-- LD.W (R189): Loads a sign-extended word from the global space. -/
  | ldW (s : Fin 4) (x : Fin 32) (a : Fin 32) (i : BitVec 10)
  /-- LD.D (R189): Loads a dword from the global space. -/
  | ldD (s : Fin 4) (x : Fin 32) (a : Fin 32) (i : BitVec 10)
  /-- LDN.B (R189): Loads a zero-extended byte from the global space. -/
  | ldnB (s : Fin 4) (x : Fin 32) (a : Fin 32) (i : BitVec 10)
  /-- LDN.H (R189): Loads a zero-extended halfword from the global space. -/
  | ldnH (s : Fin 4) (x : Fin 32) (a : Fin 32) (i : BitVec 10)
  /-- LDN.W (R189): Loads a zero-extended word from the global space. -/
  | ldnW (s : Fin 4) (x : Fin 32) (a : Fin 32) (i : BitVec 10)
  /-- ST.B (R189): Stores a byte as a numbered, counted write. -/
  | stB (s : Fin 4) (x : Fin 32) (a : Fin 32) (i : BitVec 10)
  /-- ST.H (R189): Stores a halfword as a numbered, counted write. -/
  | stH (s : Fin 4) (x : Fin 32) (a : Fin 32) (i : BitVec 10)
  /-- ST.W (R189): Stores a word as a numbered, counted write. -/
  | stW (s : Fin 4) (x : Fin 32) (a : Fin 32) (i : BitVec 10)
  /-- ST.D (R189): Stores a dword as a numbered, counted write. -/
  | stD (s : Fin 4) (x : Fin 32) (a : Fin 32) (i : BitVec 10)
  /-- AMOADD (R191): Atomic add at the home; the old value goes to xd. -/
  | amoadd (s : Fin 4) (d : Fin 32) (a : Fin 32) (b : Fin 32) (w : Bool) (q : Bool) (r : Bool)
  /-- AMOAND (R191): Atomic AND at the home. -/
  | amoand (s : Fin 4) (d : Fin 32) (a : Fin 32) (b : Fin 32) (w : Bool) (q : Bool) (r : Bool)
  /-- AMOOR (R191): Atomic OR at the home. -/
  | amoor (s : Fin 4) (d : Fin 32) (a : Fin 32) (b : Fin 32) (w : Bool) (q : Bool) (r : Bool)
  /-- AMOXOR (R191): Atomic XOR at the home. -/
  | amoxor (s : Fin 4) (d : Fin 32) (a : Fin 32) (b : Fin 32) (w : Bool) (q : Bool) (r : Bool)
  /-- AMOMIN (R191): Atomic signed minimum at the home. -/
  | amomin (s : Fin 4) (d : Fin 32) (a : Fin 32) (b : Fin 32) (w : Bool) (q : Bool) (r : Bool)
  /-- AMOMAX (R191): Atomic signed maximum at the home. -/
  | amomax (s : Fin 4) (d : Fin 32) (a : Fin 32) (b : Fin 32) (w : Bool) (q : Bool) (r : Bool)
  /-- AMOMINN (R191): Atomic unsigned minimum at the home. -/
  | amominn (s : Fin 4) (d : Fin 32) (a : Fin 32) (b : Fin 32) (w : Bool) (q : Bool) (r : Bool)
  /-- AMOMAXN (R191): Atomic unsigned maximum at the home. -/
  | amomaxn (s : Fin 4) (d : Fin 32) (a : Fin 32) (b : Fin 32) (w : Bool) (q : Bool) (r : Bool)
  /-- AMOSWAP (R191): Atomic swap at the home. -/
  | amoswap (s : Fin 4) (d : Fin 32) (a : Fin 32) (b : Fin 32) (w : Bool) (q : Bool) (r : Bool)
  /-- AMOCAS (R191): Atomic compare-and-swap against the old xd; a failed compare performs only a read. -/
  | amocas (s : Fin 4) (d : Fin 32) (a : Fin 32) (b : Fin 32) (w : Bool) (q : Bool) (r : Bool)
  /-- FENCE (R126): Orders the thread's accesses by kind over the locations its scope covers. -/
  | fence (s : Fin 4) (k : FenceKind) (p : FenceScope)
  /-- LDAQ.B (R125): Acquire load of a byte. -/
  | ldaqB (s : Fin 4) (d : Fin 32) (a : Fin 32)
  /-- LDAQ.H (R125): Acquire load of a halfword. -/
  | ldaqH (s : Fin 4) (d : Fin 32) (a : Fin 32)
  /-- LDAQ.W (R125): Acquire load of a word. -/
  | ldaqW (s : Fin 4) (d : Fin 32) (a : Fin 32)
  /-- LDAQ.D (R125): Acquire load of a dword. -/
  | ldaqD (s : Fin 4) (d : Fin 32) (a : Fin 32)
  /-- STRL.B (R125): Release store of a byte. -/
  | strlB (s : Fin 4) (a : Fin 32) (b : Fin 32)
  /-- STRL.H (R125): Release store of a halfword. -/
  | strlH (s : Fin 4) (a : Fin 32) (b : Fin 32)
  /-- STRL.W (R125): Release store of a word. -/
  | strlW (s : Fin 4) (a : Fin 32) (b : Fin 32)
  /-- STRL.D (R125): Release store of a dword. -/
  | strlD (s : Fin 4) (a : Fin 32) (b : Fin 32)
  /-- END (R30): Drains the thread, probes the completion word and join block, releases or orphans slots, ORs the flags and makes the join step. -/
  | endTask (s : Fin 4)
  /-- STALL (R194): Stops issue until the context's vector queues are empty and every vector result is written. -/
  | stall (s : Fin 4)
  /-- SLIP (R194): No later vector word starts before every earlier one has started. -/
  | slip (s : Fin 4)
  /-- YIELD (R194): Passes the context's round-robin turn, and is a pre-emption point. -/
  | yieldTurn (s : Fin 4)
  /-- SVC (R195): Traps SVC, with the immediate recorded and resume at pc + 4. -/
  | svc (s : Fin 4) (i : BitVec 10)
  /-- BRK (R195): Traps BRK, with the immediate recorded and resume at pc. -/
  | brk (s : Fin 4) (i : BitVec 10)
  /-- QPUSH (R197): Pushes x8..x15 as an edited, stamped record onto the issuing core's queue or ring; status in xd. -/
  | qpush (s : Fin 4) (d : Fin 32)
  /-- QPUSH.C (R197): Pushes the record onto the queue of the core named in xa. -/
  | qpushC (s : Fin 4) (d : Fin 32) (a : Fin 32)
  /-- QPOP (R198): Waits for, and takes, the first record of the thread's launch on its core, joining the record's clock. -/
  | qpop (s : Fin 4)
  /-- QTRY (R198): Pops as QPOP does when a record exists, and otherwise returns 1 at once. -/
  | qtry (s : Fin 4) (d : Fin 32)
  /-- JOIN (R35): Atomically decrements a join counter and pushes the continuation on the step from 1 to 0. -/
  | join (s : Fin 4) (d : Fin 32) (a : Fin 32)
  /-- EARLY (R49): Lets the next launch in the queue become resident early. -/
  | early (s : Fin 4)
  /-- PWAIT (R50): Waits for the predecessor launch and its stores, then returns its STAT as an acquire. -/
  | pwait (s : Fin 4) (d : Fin 32)
  /-- LNCH (R201): Makes a launch from a descriptor in queue xb and returns its id. -/
  | lnch (s : Fin 4) (d : Fin 32) (a : Fin 32) (b : Fin 32)
  /-- HCAN.L (R37): Cancels a launch. -/
  | hcanL (s : Fin 4) (d : Fin 32) (a : Fin 32)
  /-- HCAN.G (R37): Cancels a graph. -/
  | hcanG (s : Fin 4) (d : Fin 32) (a : Fin 32)
  /-- HCAN.P (R37): Cancels a phase; PRIV at U. -/
  | hcanP (s : Fin 4) (d : Fin 32) (a : Fin 32)
  /-- HCAN.J (R37): Cancels a job; PRIV at U. -/
  | hcanJ (s : Fin 4) (d : Fin 32) (a : Fin 32)
  /-- HCNT.L (R202): Reads a launch's completion counter. -/
  | hcntL (s : Fin 4) (d : Fin 32) (a : Fin 32)
  /-- HCNT.G (R202): Reads a graph's completion counter. -/
  | hcntG (s : Fin 4) (d : Fin 32) (a : Fin 32)
  /-- HCNT.P (R202): Reads a phase's completion counter. -/
  | hcntP (s : Fin 4) (d : Fin 32) (a : Fin 32)
  /-- HCNT.J (R202): Reads a job's completion counter. -/
  | hcntJ (s : Fin 4) (d : Fin 32) (a : Fin 32)
  /-- TWAIT (R204): Waits for one owned token to become terminal, with a timeout; releases a DONE slot. -/
  | twait (s : Fin 4) (d : Fin 32) (a : Fin 32) (b : Fin 32)
  /-- TWAIT.ANY (R205): Waits for any masked owned slot to become terminal, and returns the lowest. -/
  | twaitAny (s : Fin 4) (d : Fin 32) (a : Fin 32) (b : Fin 32)
  /-- TWAIT.ALL (R205): Waits for every masked owned slot to become terminal. -/
  | twaitAll (s : Fin 4) (d : Fin 32) (a : Fin 32) (b : Fin 32)
  /-- TFFR (R205): Waits for a terminal slot, searching cyclically from the search pointer. -/
  | tffr (s : Fin 4) (d : Fin 32) (a : Fin 32) (b : Fin 32)
  /-- TCAN (R207): Delivers a cancel to a token's operation. -/
  | tcan (s : Fin 4) (d : Fin 32) (a : Fin 32)
  /-- TDET (R46): Marks an owned operation detached. -/
  | tdet (s : Fin 4) (d : Fin 32) (a : Fin 32)
  /-- TADOPT (R46): Moves a detached or orphaned operation of the same job to the adopting thread. -/
  | tadopt (s : Fin 4) (d : Fin 32) (a : Fin 32)
  /-- TSTAT (R206): Reports a slot's summary and record, and releases a terminal slot read by its owner. -/
  | tstat (s : Fin 4) (d : Fin 32) (a : Fin 32)
  /-- WCH (R208): Waits until a range of chunk-map bits is set, or the timeout expires. -/
  | wch (s : Fin 4) (d : Fin 32) (a : Fin 32) (b : Fin 32)
  /-- TCH (R208): Tests one chunk-map bit. -/
  | tch (s : Fin 4) (d : Fin 32) (a : Fin 32)
  /-- CRR (R209): Reads a user control register into xd. -/
  | crr (s : Fin 4) (d : Fin 32) (r : Fin 64)
  /-- CRW (R209): Writes xa to a user control register, refusing the values of R60. -/
  | crw (s : Fin 4) (r : Fin 64) (a : Fin 32)
  /-- CRWI (R209): Writes a zero-extended imm10 to a user control register. -/
  | crwi (s : Fin 4) (r : Fin 64) (i : BitVec 10)
  /-- LDP.B (R190): Reads a sign-extended byte from a parameter window. -/
  | ldpB (s : Fin 4) (d : Fin 32) (w : Fin 8) (a : Fin 32)
  /-- LDP.H (R190): Reads a sign-extended halfword from a parameter window. -/
  | ldpH (s : Fin 4) (d : Fin 32) (w : Fin 8) (a : Fin 32)
  /-- LDP.W (R190): Reads a sign-extended word from a parameter window. -/
  | ldpW (s : Fin 4) (d : Fin 32) (w : Fin 8) (a : Fin 32)
  /-- LDP.D (R190): Reads a dword from a parameter window. -/
  | ldpD (s : Fin 4) (d : Fin 32) (w : Fin 8) (a : Fin 32)
  /-- LDPN.B (R190): Reads a zero-extended byte from a parameter window. -/
  | ldpnB (s : Fin 4) (d : Fin 32) (w : Fin 8) (a : Fin 32)
  /-- LDPN.H (R190): Reads a zero-extended halfword from a parameter window. -/
  | ldpnH (s : Fin 4) (d : Fin 32) (w : Fin 8) (a : Fin 32)
  /-- LDPN.W (R190): Reads a zero-extended word from a parameter window. -/
  | ldpnW (s : Fin 4) (d : Fin 32) (w : Fin 8) (a : Fin 32)
  /-- VADD (R212): Element-wise integer add of two bricks. -/
  | vadd (c : Bool) (s : Fin 4) (d : Fin 32) (a : Fin 32) (b : Fin 32)
  /-- VSUB (R212): Element-wise integer subtract. -/
  | vsub (c : Bool) (s : Fin 4) (d : Fin 32) (a : Fin 32) (b : Fin 32)
  /-- VMUL (R212): Element-wise low product. -/
  | vmul (c : Bool) (s : Fin 4) (d : Fin 32) (a : Fin 32) (b : Fin 32)
  /-- VMULH (R212): Element-wise high product. -/
  | vmulh (c : Bool) (s : Fin 4) (d : Fin 32) (a : Fin 32) (b : Fin 32)
  /-- VMIN (R212): Element-wise minimum. -/
  | vmin (c : Bool) (s : Fin 4) (d : Fin 32) (a : Fin 32) (b : Fin 32)
  /-- VMAX (R212): Element-wise maximum. -/
  | vmax (c : Bool) (s : Fin 4) (d : Fin 32) (a : Fin 32) (b : Fin 32)
  /-- VAND (R212): Element-wise AND. -/
  | vand (c : Bool) (s : Fin 4) (d : Fin 32) (a : Fin 32) (b : Fin 32)
  /-- VOR (R212): Element-wise OR. -/
  | vor (c : Bool) (s : Fin 4) (d : Fin 32) (a : Fin 32) (b : Fin 32)
  /-- VXOR (R212): Element-wise XOR. -/
  | vxor (c : Bool) (s : Fin 4) (d : Fin 32) (a : Fin 32) (b : Fin 32)
  /-- VANDN (R212): Element-wise AND NOT. -/
  | vandn (c : Bool) (s : Fin 4) (d : Fin 32) (a : Fin 32) (b : Fin 32)
  /-- VSLL (R212): Element-wise left shift. -/
  | vsll (c : Bool) (s : Fin 4) (d : Fin 32) (a : Fin 32) (b : Fin 32)
  /-- VSRL (R212): Element-wise logical right shift. -/
  | vsrl (c : Bool) (s : Fin 4) (d : Fin 32) (a : Fin 32) (b : Fin 32)
  /-- VSRA (R212): Element-wise arithmetic right shift. -/
  | vsra (c : Bool) (s : Fin 4) (d : Fin 32) (a : Fin 32) (b : Fin 32)
  /-- VADDS (R212): Element-wise saturating add, raising SATF. -/
  | vadds (c : Bool) (s : Fin 4) (d : Fin 32) (a : Fin 32) (b : Fin 32)
  /-- VSUBS (R212): Element-wise saturating subtract. -/
  | vsubs (c : Bool) (s : Fin 4) (d : Fin 32) (a : Fin 32) (b : Fin 32)
  /-- VAVG (R212): Element-wise rounding-up average. -/
  | vavg (c : Bool) (s : Fin 4) (d : Fin 32) (a : Fin 32) (b : Fin 32)
  /-- VABS (R212): Element-wise absolute value. -/
  | vabs (c : Bool) (s : Fin 4) (d : Fin 32) (a : Fin 32)
  /-- VCLZ (R212): Element-wise leading-zero count. -/
  | vclz (c : Bool) (s : Fin 4) (d : Fin 32) (a : Fin 32)
  /-- VFFS (R212): Element-wise index of the lowest set bit. -/
  | vffs (c : Bool) (s : Fin 4) (d : Fin 32) (a : Fin 32)
  /-- VPOPC (R212): Element-wise population count. -/
  | vpopc (c : Bool) (s : Fin 4) (d : Fin 32) (a : Fin 32)
  /-- VADD (R216): Vector-scalar integer add. -/
  | vaddVs (c : Bool) (s : Fin 4) (d : Fin 32) (a : Fin 32) (x : Fin 32)
  /-- VSUB (R216): Vector-scalar integer subtract. -/
  | vsubVs (c : Bool) (s : Fin 4) (d : Fin 32) (a : Fin 32) (x : Fin 32)
  /-- VMUL (R216): Vector-scalar low product. -/
  | vmulVs (c : Bool) (s : Fin 4) (d : Fin 32) (a : Fin 32) (x : Fin 32)
  /-- VMULH (R216): Vector-scalar high product. -/
  | vmulhVs (c : Bool) (s : Fin 4) (d : Fin 32) (a : Fin 32) (x : Fin 32)
  /-- VMIN (R216): Vector-scalar minimum. -/
  | vminVs (c : Bool) (s : Fin 4) (d : Fin 32) (a : Fin 32) (x : Fin 32)
  /-- VMAX (R216): Vector-scalar maximum. -/
  | vmaxVs (c : Bool) (s : Fin 4) (d : Fin 32) (a : Fin 32) (x : Fin 32)
  /-- VAND (R216): Vector-scalar AND. -/
  | vandVs (c : Bool) (s : Fin 4) (d : Fin 32) (a : Fin 32) (x : Fin 32)
  /-- VOR (R216): Vector-scalar OR. -/
  | vorVs (c : Bool) (s : Fin 4) (d : Fin 32) (a : Fin 32) (x : Fin 32)
  /-- VXOR (R216): Vector-scalar XOR. -/
  | vxorVs (c : Bool) (s : Fin 4) (d : Fin 32) (a : Fin 32) (x : Fin 32)
  /-- VANDN (R216): Vector-scalar AND NOT. -/
  | vandnVs (c : Bool) (s : Fin 4) (d : Fin 32) (a : Fin 32) (x : Fin 32)
  /-- VSLL (R216): Vector-scalar left shift. -/
  | vsllVs (c : Bool) (s : Fin 4) (d : Fin 32) (a : Fin 32) (x : Fin 32)
  /-- VSRL (R216): Vector-scalar logical right shift. -/
  | vsrlVs (c : Bool) (s : Fin 4) (d : Fin 32) (a : Fin 32) (x : Fin 32)
  /-- VSRA (R216): Vector-scalar arithmetic right shift. -/
  | vsraVs (c : Bool) (s : Fin 4) (d : Fin 32) (a : Fin 32) (x : Fin 32)
  /-- VADDS (R216): Vector-scalar saturating add. -/
  | vaddsVs (c : Bool) (s : Fin 4) (d : Fin 32) (a : Fin 32) (x : Fin 32)
  /-- VSUBS (R216): Vector-scalar saturating subtract. -/
  | vsubsVs (c : Bool) (s : Fin 4) (d : Fin 32) (a : Fin 32) (x : Fin 32)
  /-- VAVG (R216): Vector-scalar average. -/
  | vavgVs (c : Bool) (s : Fin 4) (d : Fin 32) (a : Fin 32) (x : Fin 32)
  /-- VFADD (R213): Element-wise rounded float add. -/
  | vfadd (c : Bool) (s : Fin 4) (d : Fin 32) (a : Fin 32) (b : Fin 32)
  /-- VFSUB (R213): Element-wise rounded float subtract. -/
  | vfsub (c : Bool) (s : Fin 4) (d : Fin 32) (a : Fin 32) (b : Fin 32)
  /-- VFMUL (R213): Element-wise rounded float multiply. -/
  | vfmul (c : Bool) (s : Fin 4) (d : Fin 32) (a : Fin 32) (b : Fin 32)
  /-- VFMAC (R213): Element-wise fused d + a·b. -/
  | vfmac (c : Bool) (s : Fin 4) (d : Fin 32) (a : Fin 32) (b : Fin 32)
  /-- VFNMAC (R213): Element-wise fused a·b − d. -/
  | vfnmac (c : Bool) (s : Fin 4) (d : Fin 32) (a : Fin 32) (b : Fin 32)
  /-- VFMIN (R213): Element-wise float minimum. -/
  | vfmin (c : Bool) (s : Fin 4) (d : Fin 32) (a : Fin 32) (b : Fin 32)
  /-- VFMAX (R213): Element-wise float maximum. -/
  | vfmax (c : Bool) (s : Fin 4) (d : Fin 32) (a : Fin 32) (b : Fin 32)
  /-- VFDIV (R213): Element-wise rounded divide. -/
  | vfdiv (c : Bool) (s : Fin 4) (d : Fin 32) (a : Fin 32) (b : Fin 32)
  /-- VFABS (R215): Element-wise exact absolute value. -/
  | vfabs (c : Bool) (s : Fin 4) (d : Fin 32) (a : Fin 32)
  /-- VFNEG (R215): Element-wise exact negation. -/
  | vfneg (c : Bool) (s : Fin 4) (d : Fin 32) (a : Fin 32)
  /-- VFSQRT (R214): Element-wise correctly rounded square root. -/
  | vfsqrt (c : Bool) (s : Fin 4) (d : Fin 32) (a : Fin 32)
  /-- VFREC (R214): Element-wise correctly rounded reciprocal. -/
  | vfrec (c : Bool) (s : Fin 4) (d : Fin 32) (a : Fin 32)
  /-- VFEXP2 (R214): Element-wise correctly rounded 2^a. -/
  | vfexp2 (c : Bool) (s : Fin 4) (d : Fin 32) (a : Fin 32)
  /-- VFLOG2 (R214): Element-wise correctly rounded base-2 logarithm. -/
  | vflog2 (c : Bool) (s : Fin 4) (d : Fin 32) (a : Fin 32)
  /-- VFCLASS (R215): Writes each element's class number. -/
  | vfclass (c : Bool) (s : Fin 4) (d : Fin 32) (a : Fin 32)
  /-- VFADD (R216): Vector-scalar float add. -/
  | vfaddVs (c : Bool) (s : Fin 4) (d : Fin 32) (a : Fin 32) (x : Fin 32)
  /-- VFSUB (R216): Vector-scalar float subtract. -/
  | vfsubVs (c : Bool) (s : Fin 4) (d : Fin 32) (a : Fin 32) (x : Fin 32)
  /-- VFMUL (R216): Vector-scalar float multiply. -/
  | vfmulVs (c : Bool) (s : Fin 4) (d : Fin 32) (a : Fin 32) (x : Fin 32)
  /-- VFMAC (R216): Vector-scalar fused d + a·σ. -/
  | vfmacVs (c : Bool) (s : Fin 4) (d : Fin 32) (a : Fin 32) (x : Fin 32)
  /-- VFNMAC (R216): Vector-scalar fused a·σ − d. -/
  | vfnmacVs (c : Bool) (s : Fin 4) (d : Fin 32) (a : Fin 32) (x : Fin 32)
  /-- VFMIN (R216): Vector-scalar float minimum. -/
  | vfminVs (c : Bool) (s : Fin 4) (d : Fin 32) (a : Fin 32) (x : Fin 32)
  /-- VFMAX (R216): Vector-scalar float maximum. -/
  | vfmaxVs (c : Bool) (s : Fin 4) (d : Fin 32) (a : Fin 32) (x : Fin 32)
  /-- VFDIV (R216): Vector-scalar float divide. -/
  | vfdivVs (c : Bool) (s : Fin 4) (d : Fin 32) (a : Fin 32) (x : Fin 32)
  /-- VCMP.cond (R219): Integer compare of two bricks into a mask register. -/
  | vcmp (c : Bool) (s : Fin 4) (o : Cond) (m : Fin 8) (a : Fin 32) (b : Fin 32)
  /-- VFCMP.cond (R219): Float compare of two bricks into a mask register. -/
  | vfcmp (c : Bool) (s : Fin 4) (o : Cond) (m : Fin 8) (a : Fin 32) (b : Fin 32)
  /-- VSLUP (R222): Slides elements up by xs, filling with VF. -/
  | vslup (c : Bool) (s : Fin 4) (d : Fin 32) (a : Fin 32) (x : Fin 32)
  /-- VSLDN (R222): Slides elements down by xs. -/
  | vsldn (c : Bool) (s : Fin 4) (d : Fin 32) (a : Fin 32) (x : Fin 32)
  /-- VDUP (R222): Broadcasts source element xs to every active element. -/
  | vdup (c : Bool) (s : Fin 4) (d : Fin 32) (a : Fin 32) (x : Fin 32)
  /-- VCOMP (R223): Packs the active elements to the front and, in linear mode, sets VL.N to their count. -/
  | vcomp (c : Bool) (s : Fin 4) (d : Fin 32) (a : Fin 32)
  /-- VEXP (R224): Spreads the in-VL elements over the active positions. -/
  | vexp (c : Bool) (s : Fin 4) (d : Fin 32) (a : Fin 32)
  /-- VTRN (R225): Exchanges two coordinates within the box. -/
  | vtrn (c : Bool) (s : Fin 4) (d : Fin 32) (a : Fin 32) (p : Pair)
  /-- VIOTA (R225): Writes to each active element the count of active elements below it. -/
  | viota (c : Bool) (s : Fin 4) (d : Fin 32)
  /-- VSEL (R225): Selects a or b per element by the mask. -/
  | vsel (c : Bool) (s : Fin 4) (d : Fin 32) (a : Fin 32) (b : Fin 32)
  /-- VTBL (R226): Byte table lookup over n registers, indexed by bd's 16-bit elements. -/
  | vtbl (c : Bool) (s : Fin 4) (d : Fin 32) (a : Fin 32) (n : Fin 8) (h : Bool) (f : BitVec 8)
  /-- VRSUM (R229): Reduces the active elements by sum into element 0. -/
  | vrsum (c : Bool) (s : Fin 4) (d : Fin 32) (a : Fin 32)
  /-- VRMAX (R229): Reduces by maximum. -/
  | vrmax (c : Bool) (s : Fin 4) (d : Fin 32) (a : Fin 32)
  /-- VRMIN (R229): Reduces by minimum. -/
  | vrmin (c : Bool) (s : Fin 4) (d : Fin 32) (a : Fin 32)
  /-- VRAND (R229): Reduces by bitwise AND. -/
  | vrand (c : Bool) (s : Fin 4) (d : Fin 32) (a : Fin 32)
  /-- VROR (R229): Reduces by bitwise OR. -/
  | vror (c : Bool) (s : Fin 4) (d : Fin 32) (a : Fin 32)
  /-- VRXOR (R229): Reduces by bitwise XOR. -/
  | vrxor (c : Bool) (s : Fin 4) (d : Fin 32) (a : Fin 32)
  /-- VSCAN (R230): Writes the inclusive running sum. -/
  | vscan (c : Bool) (s : Fin 4) (d : Fin 32) (a : Fin 32)
  /-- VCVT (R220): Converts each element from the source format in the bb field to VT.FMT. -/
  | vcvt (c : Bool) (s : Fin 4) (d : Fin 32) (a : Fin 32) (t : Fmt)
  /-- AMUL (R233): Algebra product per element, one rounding per component. -/
  | amul (c : Bool) (s : Fin 4) (d : Fin 32) (a : Fin 32) (b : Fin 32)
  /-- AMAC (R233): Algebra multiply-accumulate into bd. -/
  | amac (c : Bool) (s : Fin 4) (d : Fin 32) (a : Fin 32) (b : Fin 32)
  /-- ACONJ (R109): Algebra conjugation by the table's CONJ bits. -/
  | aconj (c : Bool) (s : Fin 4) (d : Fin 32) (a : Fin 32)
  /-- ANORM (R109): Algebra norm into component 0, with zeros in the other components. -/
  | anorm (c : Bool) (s : Fin 4) (d : Fin 32) (a : Fin 32)
  /-- ALD (R234): Loads algebra table Aj from a checked 72-byte image. -/
  | ald (c : Bool) (s : Fin 4) (j : Fin 8) (a : Fin 32)
  /-- SCAC (R103): Block-scaled accumulate in f32. -/
  | scac (c : Bool) (s : Fin 4) (d : Fin 32) (a : Fin 32) (k : Fin 4)
  /-- OMOV.F (R217): Offset read of a neighbour element, float chain form. -/
  | omovF (c : Bool) (s : Fin 4) (d : Fin 32) (a : Fin 32) (dx : Off) (dy : Off) (dz : Off)
  /-- OADD.F (R217): Offset neighbour plus b, rounded. -/
  | oaddF (c : Bool) (s : Fin 4) (d : Fin 32) (a : Fin 32) (dx : Off) (dy : Off) (dz : Off) (b : Fin 32)
  /-- OSUB.F (R217): Offset neighbour minus b, rounded. -/
  | osubF (c : Bool) (s : Fin 4) (d : Fin 32) (a : Fin 32) (dx : Off) (dy : Off) (dz : Off) (b : Fin 32)
  /-- OMAC.F (R217): d plus offset neighbour times b, one rounding. -/
  | omacF (c : Bool) (s : Fin 4) (d : Fin 32) (a : Fin 32) (dx : Off) (dy : Off) (dz : Off) (b : Fin 32)
  /-- OMOV (R217): Offset read of a neighbour element, integer chain form. -/
  | omov (c : Bool) (s : Fin 4) (d : Fin 32) (a : Fin 32) (dx : Off) (dy : Off) (dz : Off)
  /-- OADD (R217): Offset neighbour plus b, integer. -/
  | oadd (c : Bool) (s : Fin 4) (d : Fin 32) (a : Fin 32) (dx : Off) (dy : Off) (dz : Off) (b : Fin 32)
  /-- OSUB (R217): Offset neighbour minus b, integer. -/
  | osub (c : Bool) (s : Fin 4) (d : Fin 32) (a : Fin 32) (dx : Off) (dy : Off) (dz : Off) (b : Fin 32)
  /-- OMAC (R217): d plus offset neighbour times b, integer. -/
  | omac (c : Bool) (s : Fin 4) (d : Fin 32) (a : Fin 32) (dx : Off) (dy : Off) (dz : Off) (b : Fin 32)
  /-- VLD (R240): Strided vector load in the space VMT selects. -/
  | vld (c : Bool) (s : Fin 4) (b : Fin 32) (a : Fin 32) (i : Fin 32)
  /-- VST (R240): Strided vector store, one number for the word. -/
  | vst (c : Bool) (s : Fin 4) (b : Fin 32) (a : Fin 32) (i : Fin 32)
  /-- VLDL (R240): Lane-local scratchpad load under the bank rule. -/
  | vldl (c : Bool) (s : Fin 4) (b : Fin 32) (a : Fin 32) (i : Fin 32)
  /-- VSTL (R240): Lane-local scratchpad store under the bank rule. -/
  | vstl (c : Bool) (s : Fin 4) (b : Fin 32) (a : Fin 32) (i : Fin 32)
  /-- VLDX (R116): Loose cross-lane scratchpad load. -/
  | vldx (c : Bool) (s : Fin 4) (b : Fin 32) (a : Fin 32) (i : Fin 32)
  /-- VSTX (R116): Loose cross-lane scratchpad store. -/
  | vstx (c : Bool) (s : Fin 4) (b : Fin 32) (a : Fin 32) (i : Fin 32)
  /-- VLDI (R243): Indexed vector load. -/
  | vldi (c : Bool) (s : Fin 4) (b : Fin 32) (a : Fin 32) (i : Fin 32)
  /-- VSTI (R243): Indexed vector store. -/
  | vsti (c : Bool) (s : Fin 4) (b : Fin 32) (a : Fin 32) (i : Fin 32)
  /-- VSTIA (R244): Indexed atomic add of each element into memory. -/
  | vstia (c : Bool) (s : Fin 4) (b : Fin 32) (a : Fin 32) (i : Fin 32)
  /-- VLDA (R245): Asynchronous strided load that clears landed bits at issue. -/
  | vlda (c : Bool) (s : Fin 4) (b : Fin 32) (a : Fin 32) (i : Fin 32)
  /-- GATHB (R246): Asynchronous indexed gather that writes a duplicate mask. -/
  | gathb (c : Bool) (s : Fin 4) (b : Fin 32) (a : Fin 32) (i : Fin 32) (m : Fin 8)
  /-- MAND (R231): ANDs two mask registers within VL. -/
  | mand (c : Bool) (s : Fin 4) (d : Fin 8) (a : Fin 8) (b : Fin 8)
  /-- MOR (R231): ORs two mask registers within VL. -/
  | mor (c : Bool) (s : Fin 4) (d : Fin 8) (a : Fin 8) (b : Fin 8)
  /-- MXOR (R231): XORs two mask registers within VL. -/
  | mxor (c : Bool) (s : Fin 4) (d : Fin 8) (a : Fin 8) (b : Fin 8)
  /-- MNOT (R231): Inverts a mask register within VL. -/
  | mnot (c : Bool) (s : Fin 4) (d : Fin 8) (a : Fin 8)
  /-- MPOPC (R232): Counts the set in-VL bits of a mask. -/
  | mpopc (c : Bool) (s : Fin 4) (d : Fin 32) (a : Fin 8)
  /-- MFFS (R232): Finds the lowest set in-VL bit of a mask. -/
  | mffs (c : Bool) (s : Fin 4) (d : Fin 32) (a : Fin 8)
  /-- MSET (R232): Writes 64 mask bits from a scalar register. -/
  | mset (c : Bool) (s : Fin 4) (d : Fin 8) (a : Fin 32) (b : Fin 32)
  /-- MGET (R232): Reads 64 mask bits into a scalar register. -/
  | mget (c : Bool) (s : Fin 4) (d : Fin 32) (a : Fin 8) (b : Fin 32)
  /-- VSPLAT (R227): Writes a scalar value to every active element. -/
  | vsplat (c : Bool) (s : Fin 4) (d : Fin 32) (x : Fin 32)
  /-- VEXT (R227): Extracts one element into a scalar register. -/
  | vext (c : Bool) (s : Fin 4) (d : Fin 32) (a : Fin 32) (x : Fin 32)
  /-- VINS (R227): Inserts a scalar value into one active element. -/
  | vins (c : Bool) (s : Fin 4) (d : Fin 32) (a : Fin 32) (x : Fin 32)
  /-- VSETL (R228): Sets a linear VL, clamped, and returns the granted N. -/
  | vsetl (c : Bool) (s : Fin 4) (d : Fin 32) (a : Fin 32)
  /-- VSETB (R228): Sets a box VL, clamped, and returns the new VL. -/
  | vsetb (c : Bool) (s : Fin 4) (d : Fin 32) (a : Fin 32)
  /-- NBSET (R235): Sets a brick's six neighbour links from two checked images. -/
  | nbset (c : Bool) (s : Fin 4) (d : Fin 32) (a : Fin 32) (b : Fin 32)
  /-- NBGET (R235): Reads a brick's neighbour links into two scalar images. -/
  | nbget (c : Bool) (s : Fin 4) (a : Fin 32) (b : Fin 32) (d : Fin 32)
  /-- WAITV (R248): Waits until flag dwords in memory match their expected values, with a timeout. -/
  | waitv (c : Bool) (s : Fin 4) (m : Fin 8) (a : Fin 32) (b : Fin 32) (x : Fin 32)
  /-- COPY[.P] (R252): Issues a two-dimensional copy as a child operation and returns its token. -/
  | copy (s : Fin 4) (p : Bool) (t : Fin 32) (a : Fin 32) (b : Fin 32)
  /-- COPYF[.P] (R254): Issues a copy followed by a release flag write. -/
  | copyf (s : Fin 4) (p : Bool) (t : Fin 32) (a : Fin 32) (b : Fin 32)
  /-- COPYM[.P] (R255): Issues a copy followed by a matrix command, under one token. -/
  | copym (s : Fin 4) (p : Bool) (t : Fin 32) (a : Fin 32) (b : Fin 32)
  /-- GROWS[.P] (R256): Gathers rows into the scratchpad by the row numbers in a brick. -/
  | grows (s : Fin 4) (p : Bool) (t : Fin 32) (a : Fin 32) (b : Fin 32)
  /-- PUBLISH[.P] (R257): Issues the exchange of a shadowed buffer's backings. -/
  | publish (s : Fin 4) (p : Bool) (t : Fin 32) (a : Fin 32)
  /-- MMA[.P] (R260): Issues a dense matrix multiply-accumulate on the array. -/
  | mma (s : Fin 4) (p : Bool) (t : Fin 32) (a : Fin 32) (b : Fin 32)
  /-- MMAS[.P] (R260): Issues a K-masked sparse matrix multiply-accumulate. -/
  | mmas (s : Fin 4) (p : Bool) (t : Fin 32) (a : Fin 32) (b : Fin 32)
  /-- MCLR[.P] (R264): Issues the zeroing of every accumulator. -/
  | mclr (s : Fin 4) (p : Bool) (t : Fin 32)
  /-- MRD[.P] (R264): Issues the write-out of C to the scratchpad. -/
  | mrd (s : Fin 4) (p : Bool) (t : Fin 32) (a : Fin 32)
  /-- CRED.SUM (R267): Issues a collective sum reduction. -/
  | credSum (s : Fin 4) (p : Bool) (t : Fin 32) (a : Fin 32) (b : Fin 32)
  /-- CRED.MAX (R267): Issues a collective maximum reduction. -/
  | credMax (s : Fin 4) (p : Bool) (t : Fin 32) (a : Fin 32) (b : Fin 32)
  /-- CRED.MIN (R267): Issues a collective minimum reduction. -/
  | credMin (s : Fin 4) (p : Bool) (t : Fin 32) (a : Fin 32) (b : Fin 32)
  /-- CRED.AND (R267): Issues a collective AND reduction. -/
  | credAnd (s : Fin 4) (p : Bool) (t : Fin 32) (a : Fin 32) (b : Fin 32)
  /-- CRED.OR (R267): Issues a collective OR reduction. -/
  | credOr (s : Fin 4) (p : Bool) (t : Fin 32) (a : Fin 32) (b : Fin 32)
  /-- CRED.XOR (R267): Issues a collective XOR reduction. -/
  | credXor (s : Fin 4) (p : Bool) (t : Fin 32) (a : Fin 32) (b : Fin 32)
  /-- CGAT (R267): Issues a collective gather. -/
  | cgat (s : Fin 4) (p : Bool) (t : Fin 32) (a : Fin 32) (b : Fin 32)
  /-- CBC (R267): Issues a collective broadcast. -/
  | cbc (s : Fin 4) (p : Bool) (t : Fin 32) (a : Fin 32) (b : Fin 32)
  /-- CBAR (R268): Issues a team barrier. -/
  | cbar (s : Fin 4) (p : Bool) (t : Fin 32)
  /-- TRAIN (R269): Issues a scatter of brick elements to this module and team members. -/
  | train (s : Fin 4) (p : Bool) (t : Fin 32) (a : Fin 32) (b : Fin 32)
  /-- MIGR.OUT (R270): Issues the move of pages from main memory to the capacity tier. -/
  | migrOut (s : Fin 4) (p : Bool) (t : Fin 32) (a : Fin 32) (b : Fin 32)
  /-- MIGR.IN (R270): Issues the move of pages from the capacity tier back to main memory. -/
  | migrIn (s : Fin 4) (p : Bool) (t : Fin 32) (a : Fin 32) (b : Fin 32)
  /-- SCLD (R247): Fills a scale register by a strided byte load. -/
  | scld (s : Fin 4) (k : Fin 4) (a : Fin 32) (b : Fin 32)
  /-- CLAIM (R282): Saves the frozen vector side to the claim area and unfreezes it for the handler. -/
  | claim (s : Fin 4) (d : Fin 32)
  /-- TRET (R283): Returns from the current level's handler, reloading claimed state and unfreezing the vector side. -/
  | tret (s : Fin 4)
  /-- SRR (R277): Reads a system register. -/
  | srr (s : Fin 4) (d : Fin 32) (r : Fin 1024)
  /-- SRW (R279): Writes a system register, refusing illegal values. -/
  | srw (s : Fin 4) (r : Fin 1024) (b : Fin 32)
  /-- TLBI (R285): Removes cached translations and waits until users of them have finished. -/
  | tlbi (s : Fin 4) (d : Fin 32) (a : Fin 32) (b : Fin 32)
  /-- CTXSV (R288): Pre-empts the thread on a context and saves its image. -/
  | ctxsv (s : Fin 4) (d : Fin 32) (a : Fin 32) (b : Fin 32)
  /-- CTXLD (R289): Loads a valid image into a context and resumes the thread. -/
  | ctxld (s : Fin 4) (d : Fin 32) (a : Fin 32) (b : Fin 32)
  /-- PARK (R291): Parks or resumes a partition, saving its threads and draining its operations. -/
  | park (s : Fin 4) (d : Fin 32) (a : Fin 32) (b : Fin 32)
  /-- HALT (R290): Stops a core once it is idle, or restarts a halted core. -/
  | halt (s : Fin 4) (d : Fin 32) (a : Fin 32) (b : Fin 32)
  /-- BSET (R287): Writes or reads a shadowed-buffer table entry. -/
  | bset (s : Fin 4) (d : Fin 32) (a : Fin 32) (b : Fin 32)
  /-- PCAN (R292): Cancels every level of a partition and discards its saved images. -/
  | pcan (s : Fin 4) (d : Fin 32) (a : Fin 32)
  /-- SEQR (R293): Returns the last record sequence number of one source. -/
  | seqr (s : Fin 4) (d : Fin 32) (a : Fin 32)
  /-- ILLEGAL_WORD (R161), an event: An issued word that is not an instruction, or that breaks a convoy rule, traps. -/
  | illegalWord (w : BitVec 32)
  /-- VECTOR_WORD_START (R168), an event: The sequencer starts a queued vector word or convoy once hazards and the slip depth allow. -/
  | vectorWordStart (c : Nat)
  /-- CONVOY_STEP (R173), an event: The words of a convoy advance one element-group step together. -/
  | convoyStep (c : Nat)
  /-- REMOTE_GROUP_SERVE (R78), an event: A remote core serves one whole element group to a REMOTE link read after its landed bit is set. -/
  | remoteGroupServe (c src : Nat) (r : Fin 32) (g : Fin 8)
  /-- GROUP_LAND (R76), an event: The engine lands a whole group of a VLDA or GATHB and sets its landed bit. -/
  | groupLand (c : Nat) (r : Fin 32) (g : Fin 8)
  /-- WRITE_APPLY (R119), an event: A home applies a numbered write once the frontiers its clock names are known. -/
  | writeApply (i part : Nat)
  /-- WRITE_ACKNOWLEDGE (R117), an event: An acknowledgement of a fully applied numbered write reaches the issuing die and steps WDC. -/
  | writeAcknowledge (i : Nat)
  /-- FRONTIER_RECEIVE (R119), an event: A die receives another die's frontier broadcast. -/
  | frontierReceive (d e : Fin 4)
  /-- READ_SERVE (R120), an event: A read is served once the serving die knows the frontiers its clock requires. -/
  | readServe (c : Nat)
  /-- LOOSE_WRITE_APPLY (R116), an event: A loose crossbar write is applied at its bank some time after issue. -/
  | looseWriteApply (c i : Nat)
  /-- WAIT_SATISFIED (R52), an event: The condition of a thread's wait comes to hold, and the waiting word completes. -/
  | waitSatisfied (c : Nat)
  /-- WAIT_TIMEOUT (R203), an event: A TWAIT, WCH or WAITV timeout expires in resident cycles. -/
  | waitTimeout (c : Nat)
  /-- TASK_TAKE (R304), an event: A free context takes a pre-empted thread, a queued or generated record, or a stolen record. -/
  | taskTake (c : Nat)
  /-- DISPATCH_GENERATE (R303), an event: The dispatcher generates the next block record of an eligible launch. -/
  | dispatchGenerate (p lid : Nat)
  /-- DISPATCH_PREEMPT (R306), an event: The dispatcher pre-empts a low-priority thread for a priority-3 launch. -/
  | dispatchPreempt (p lid : Nat)
  /-- THREAD_SAVE (R338), an event: A thread being pre-empted reaches its boundary and its image is written. -/
  | threadSave (c : Nat)
  /-- TASK_PRIORITY_AGE (R53), an event: A waiting record's or array command's effective priority rises after 2^20 cycles. -/
  | taskPriorityAge (core i : Nat)
  /-- LAUNCH_PRIORITY_AGE (R303), an event: An eligible launch's effective priority rises after 2^20 cycles with no block generated. -/
  | launchPriorityAge (p lid : Nat)
  /-- RING_REFILL (R308), an event: The core moves the ring's head record to the queue's tail when the queue has room. -/
  | ringRefill (core : Nat)
  /-- JOIN_BUFFER_DRAIN (R35), an event: A continuation waiting in the join buffer moves to the queue as room frees. -/
  | joinBufferDrain (core : Nat)
  /-- STEAL_ASK (R310), an event: An idle core asks another core of its partition for a record. -/
  | stealAsk (core : Nat)
  /-- STEAL_LEND (R310), an event: The victim marks its first lendable record lent and sends a copy, or answers that it has none. -/
  | stealLend (victim thief : Nat)
  /-- LEND_ACKNOWLEDGE (R311), an event: The victim accepts or refuses a thief's acknowledgement of a lend. -/
  | lendAcknowledge (thief : Nat)
  /-- LEND_EXPIRY (R311), an event: An unacknowledged lend expires after 2^16 cycles and the entry is unlent. -/
  | lendExpiry (victim seq : Nat)
  /-- CANCEL_REACHES_THREAD (R37), an event: A cancelled launch's running thread stops at a group boundary and its context moves on. -/
  | cancelReachesThread (c : Nat)
  /-- CANCEL_DRAINED (R37), an event: A cancelled launch's counters drain and STAT 2 is written. -/
  | cancelDrained (p lid : Nat)
  /-- LAUNCH_COMPLETE (R300), an event: A launch completes: STAT is written, detached slots are released and the launch leaves its queue. -/
  | launchComplete (p lid : Nat)
  /-- GRAPH_COMPLETE (R301), an event: A graph reaches completion. -/
  | graphComplete (p job g : Nat)
  /-- PHASE_COMPLETE (R301), an event: A phase completes once its stores are visible package-wide. -/
  | phaseComplete (p job ph : Nat)
  /-- JOB_COMPLETE (R301), an event: A closed job completes, and the QJOB entries holding its id are reset. -/
  | jobComplete (p job : Nat)
  /-- OP_START (R41), an event: An engine accepts a WAITING operation whose predecessor is satisfied, and it becomes RUNNING. -/
  | opStart (core slot : Nat)
  /-- PREDECESSOR_FAULT (R41), an event: A WAITING operation faults when its predecessor ends FAULTED or CANCELLED. -/
  | predecessorFault (core slot : Nat)
  /-- COPY_STEP (R252), an event: The copy engine completes, or faults on, one 512-byte operand chunk. -/
  | copyStep (core slot : Nat)
  /-- GROWS_ROW (R256), an event: One gathered row completes the next step. -/
  | growsRow (core slot row : Nat)
  /-- PUBLISH_EXCHANGE (R134), an event: The backings are exchanged atomically once no writer remains, or the PUBLISH faults on a void backing. -/
  | publishExchange (core slot : Nat)
  /-- MMA_K_BLOCK (R262), an event: The array runs one K-block step and checks its residues. -/
  | mmaKBlock (core slot : Nat) (miss1 miss2 : Option (Fin 128))
  /-- MCLR_STEP (R264), an event: The array zeroes every accumulator in one step. -/
  | mclrStep (core slot : Nat)
  /-- MRD_ROW (R264), an event: The array writes one row of C to the scratchpad. -/
  | mrdRow (core slot : Nat)
  /-- TRAIN_APPLY (R137), an event: A destination applies a received train element by element, checks its tail and acknowledges it. -/
  | trainApply (core slot die : Nat)
  /-- TRAIN_ACK (R137), an event: The issuing engine receives a train acknowledgement or refusal. -/
  | trainAck (core slot dest : Nat) (ok : Bool)
  /-- COLLECTIVE_STEP (R267), an event: A member completes 4 KiB of its collective data. -/
  | collectiveStep (core slot : Nat)
  /-- COLL_JOIN_TIMEOUT (R266), an event: A member has not joined within 2^24 cycles, and the collective faults COLL_TEAM. -/
  | collJoinTimeout (core slot m : Nat)
  /-- CBAR_COMPLETE (R268), an event: A barrier completes once every member has issued it. -/
  | cbarComplete (core slot : Nat)
  /-- MIGR_PAGE_MOVE (R328), an event: Madder moves one page through walk, reservation, invalidation, copy, leaf swap and push. -/
  | migrPageMove (core slot : Nat) (linkOk : Bool)
  /-- PARK_DRAIN_EXPIRY (R343), an event: The 2,048-cycle drain count ends, and RUNNING operations stop and become PARKED. -/
  | parkDrainExpiry (p : Nat)
  /-- WOAD_CORE_STOP (R355), an event: After a trap at M, Woad records it, cancels the partition and marks it stopped. -/
  | woadCoreStop (core : Nat)
  /-- STATE_PARITY_ERROR (R345), an event: An uncorrectable error in scheduling state stops the partition, which traps ECC_UNCORR to M. -/
  | stateParityError (p unit : Nat)
  /-- SCRUB (R346), an event: Every 4,096 cycles a core scrubs one 512-byte chunk of its scratchpad or B-store. -/
  | scrub (core : Nat)
  /-- HOST_READ_REQUEST (R351), an event: A host read flit is checked and served at the home. -/
  | hostReadRequest (p pa len : Nat)
  /-- HOST_WRITE (R351), an event: A host write flit becomes one numbered write on die 0, or is refused. -/
  | hostWrite (p pa : Nat) (bytes : List (BitVec 8))
  /-- FABRIC_REQUEST (R352), an event: Traffic from another module is accepted, or refused by PID or carve. -/
  | fabricRequest (port p pa : Nat) (wr : Bool) (bytes : List (BitVec 8))
  /-- LINK_COMPLETION (R349), an event: A completion flit for an earlier request arrives. -/
  | linkCompletion (link tag status : Nat)
  /-- LINK_ACKNOWLEDGEMENT (R348), an event: An acknowledgement flit frees the sender's replay buffer up to its sequence number. -/
  | linkAcknowledgement (link seq : Nat)
  /-- LINK_REPLAY_REQUEST (R348), an event: A replay request makes the sender replay every held flit from the named number. -/
  | linkReplayRequest (link seq : Nat)
  /-- FLIT_CORRUPT (R348), an event: A flit failing its CRC or sequence check is discarded, with later flits, and replay is requested. -/
  | flitCorrupt (link : Nat)
  /-- LINK_FAIL (R348), an event: A flit replayed 8 times without acknowledgement fails the link. -/
  | linkFail (link : Nat)
  /-- MIGRATION_DATA (R349), an event: A migration data flit moves compressed page bytes over Dorog Link. -/
  | migrationData (p ta : Nat) (bytes : List (BitVec 8))
  /-- STATUS_QUERY (R360), an event: Woad answers a sideband status query with its 16-byte report. -/
  | statusQuery
  /-- ATTESTATION_REQUEST (R361), an event: Woad answers a nonce with a doubly signed attestation report. -/
  | attestationRequest (nonce : BitVec 256)
  /-- GANG_LAUNCH_RECEIVE (R313), an event: A member receives a gang launch, enters it in its queue, and acknowledges or refuses it. -/
  | gangLaunchReceive (p q from_ : Nat) (desc : List (BitVec 64))
  /-- GANG_ACK (R313), an event: The initiator receives a member's acknowledgement. -/
  | gangAck (p lid m : Nat)
  /-- GANG_REFUSAL (R314), an event: A member's refusal fails the gang: cancels, FAIL, then STAT 3. -/
  | gangRefusal (p lid m : Nat)
  /-- GANG_MEMBER_REPORT (R313), an event: A member reports its copy complete or cancelled, and the initiator's STAT follows. -/
  | gangMemberReport (p lid m : Nat) (cancelled : Bool)
  /-- GANG_ACK_TIMEOUT (R314), an event: No acknowledgement within 2^20 cycles fails the gang. -/
  | gangAckTimeout (p lid m : Nat)
  /-- POWER_ON_RESET (R356), an event: At power-on or device reset, Woad boots from ROM and applies the fused repair map. -/
  | powerOnReset
  /-- FIRMWARE_LOAD (R356), an event: Woad reads the firmware image from the sideband store. -/
  | firmwareLoad
  /-- FIRMWARE_VERIFY (R358), an event: Woad checks both signatures and the security version. -/
  | firmwareVerify
  /-- SELF_TEST (R359), an event: Woad runs the self-test steps in order. -/
  | selfTest
  /-- BRCTL_GO (R357), an event: Writing GO to BRCTL in CONFIG ends the firmware thread and enters RUN. -/
  | brctlGo
  /-- BRCTL_FAIL (R357), an event: Writing FAIL to BRCTL in CONFIG enters SAFE. -/
  | brctlFail (detail : BitVec 16)
  /-- OPP_WRITE (R363), an event: A store sets an island's operating point, or is refused. -/
  | oppWrite (island : Nat) (v : BitVec 8)
  /-- OPP_CHANGE_COMPLETE (R363), an event: A requested operating-point change takes effect within 20 µs. -/
  | oppChangeComplete (island : Nat)
  /-- POWER_LIMIT_EXCEEDED (R363), an event: Woad lowers the matrix islands' OPP one step when power or coolant limits are exceeded. -/
  | powerLimitExceeded
  /-- POWER_LIMIT_RESTORE (R363), an event: Woad raises the OPP one step after the excess has been gone for 10 ms. -/
  | powerLimitRestore
  /-- QCTL_WRITE (R295), an event: A store to a queue control byte enables the queue or sets its priority. -/
  | qctlWrite (p off : Nat) (v : BitVec 64)
  /-- POOL_WRITE (R296), an event: A store to PPB or PPC, refused while an area holds a saved thread or lies outside the carve. -/
  | poolWrite (p off : Nat) (v : BitVec 64)
  /-- RING_WRITE (R297), an event: A store to RING0 or RING1, refused while busy or out of limits. -/
  | ringWrite (p off : Nat) (v : BitVec 64)
  /-- QJOB_WRITE (R301), an event: A store assigns a job to a launch queue, refused while the queue holds an incomplete launch. -/
  | qjobWrite (p off : Nat) (v : BitVec 64)
  /-- JCLOSE_WRITE (R301), an event: A store closes a job to further launches. -/
  | jcloseWrite (p : Nat) (v : BitVec 64)
  /-- MIGRATION_BLOCK_WRITE (R327), an event: A store to the tier or free-frame registers, ignored while a migration is in flight. -/
  | migrationBlockWrite (p off : Nat) (v : BitVec 64)
  /-- CARVE_WRITE (R353), an event: A store to CARVEB or CARVES, refused on overlap, overrun or a running partition. -/
  | carveWrite (p off : Nat) (v : BitVec 64)
  /-- PORT_TRAIN (R352), an event: Writing TRAIN to a fabric port register retrains a failed port. -/
  | portTrain (n : Nat)
  /-- PART_WRITE (R354), an event: An SRW of PART moves halted quads between partitions and cleans every moved core. -/
  | partWrite (c : Nat) (v : BitVec 64)
  /-- REGISTER_WRITE (R5), an event: A write to a register with no row of its own, honouring the access codes. -/
  | registerWrite (pa : Nat) (v : BitVec 64)
  /-- PUSH_ARRIVAL (R197), an event: A pushed record arrives at the target core and is appended to its queue or ring in order of arrival, or refused, and the status returns to the pusher. -/
  | pushArrival (i : Nat)
  /-- STEAL_ANSWER (R310), an event: The thief receives the victim's lent copy, or its answer that it has none, in which case it asks the next core. -/
  | stealAnswer (thief : Nat)
  /-- LEND_ANSWER (R311), an event: The thief receives the victim's acceptance, delivering the record to its context, or its refusal, discarding its copy. -/
  | lendAnswer (thief : Nat)
  /-- GANG_CANCEL (R314), an event: A member receives the initiator's cancel of a gang launch and cancels its copy as HCAN does. -/
  | gangCancel (p lid : Nat)
  /-- SECURITY_VERSION_RAISE (R358), an event: On a firmware request made in RUN, Woad raises the fused minimum security version. -/
  | securityVersionRaise (v : BitVec 32)
deriving DecidableEq, Repr

end Sys2Proof
end

