-- ==== Sys2Proof/Decode.lean ====
section
/-! DEFINITION. Decode: the fields of a word (07 R158 to R161), total, refusing every word that is not an
instruction; after it the encoder, from the same tables. Words are read as Nat; `fld w lo n` is the field of
n bits that begins at bit lo. -/

namespace Sys2Proof

/-- The format a five-bit code names (04 R80), none for 01100, 10000 and 11000. -/
def Fmt.ofCode : Nat → Option Fmt
  | 0 => some .i8 | 1 => some .n8 | 2 => some .i16 | 3 => some .n16
  | 4 => some .i32 | 5 => some .n32 | 6 => some .i64 | 7 => some .n64
  | 8 => some .f64 | 9 => some .f32 | 10 => some .bf16 | 11 => some .f16
  | 13 => some (.sb4 0) | 14 => some (.sb4 1) | 15 => some (.sb4 2)
  | 17 => some (.sb8 0) | 18 => some (.sb8 1) | 19 => some (.sb8 2) | 20 => some (.sb8 3)
  | 21 => some (.sb8 4) | 22 => some (.sb8 5) | 23 => some (.sb8 6)
  | 25 => some (.nb8 0) | 26 => some (.nb8 1) | 27 => some (.nb8 2) | 28 => some (.nb8 3)
  | 29 => some (.nb8 4) | 30 => some (.nb8 5) | 31 => some (.nb8 6)
  | _ => none

/-- The five-bit code of a format (04 R80). -/
def Fmt.code : Fmt → Nat
  | .i8 => 0 | .n8 => 1 | .i16 => 2 | .n16 => 3 | .i32 => 4 | .n32 => 5 | .i64 => 6 | .n64 => 7
  | .f64 => 8 | .f32 => 9 | .bf16 => 10 | .f16 => 11
  | .sb4 p => 13 + p.val | .sb8 p => 17 + p.val | .nb8 p => 25 + p.val

/-- The destination formats of FCVT (08 R186): i64, n64, f64, f32. -/
def Fmt.isFcvtDst (t : Fmt) : Bool := t = .i64 || t = .n64 || t = .f64 || t = .f32

/-- The destination formats of FCVTI (08 R186): f64, f32. -/
def Fmt.isFcvtiDst (t : Fmt) : Bool := t = .f64 || t = .f32

/-- The kind field of FENCE (08 R193). -/
def FenceKind.ofCode : Nat → Option FenceKind
  | 0 => some .loads | 1 => some .stores | 2 => some .both | 3 => some .loose | _ => none
def FenceKind.code : FenceKind → Nat
  | .loads => 0 | .stores => 1 | .both => 2 | .loose => 3

/-- The scope field of FENCE (08 R193). -/
def FenceScope.ofCode : Nat → Option FenceScope
  | 0 => some .thread | 1 => some .core | 2 => some .die | 3 => some .package | 4 => some .system | _ => none
def FenceScope.code : FenceScope → Nat
  | .thread => 0 | .core => 1 | .die => 2 | .package => 3 | .system => 4

/-- The offset codes of VO (06 R147): 00 for 0, 01 for +1, 11 for −1; 10 is not an instruction (R161). -/
def Off.ofCode : Nat → Option Off
  | 0 => some .zero | 1 => some .plus | 3 => some .minus | _ => none
def Off.code : Off → Nat
  | .zero => 0 | .plus => 1 | .minus => 3

/-- The condition codes of VCMP and VFCMP (09 R219); 7 is not assigned. -/
def Cond.ofCode : Nat → Option Cond
  | 0 => some .eq | 1 => some .ne | 2 => some .lt | 3 => some .le | 4 => some .gt | 5 => some .ge
  | 6 => some .un | _ => none
def Cond.code : Cond → Nat
  | .eq => 0 | .ne => 1 | .lt => 2 | .le => 3 | .gt => 4 | .ge => 5 | .un => 6

/-- The pair codes of VTRN (09 R221). -/
def Pair.ofCode : Nat → Option Pair
  | 0 => some .xy | 1 => some .yz | 2 => some .xz | _ => none
def Pair.code : Pair → Nat
  | .xy => 0 | .yz => 1 | .xz => 2

/-- A register field of n bits. -/
def fin (m : Nat) [NeZero m] (v : Nat) : Fin m := Fin.ofNat m v

/-- A one-bit field. -/
def bit1 (v : Nat) : Bool := v = 1
def bitNat (b : Bool) : Nat := if b then 1 else 0

/-- The words of major 0x01 (07 R177, R161). -/
def decode01 (w : Nat) : Option Instr :=
  if fld w 31 1 ≠ 0 then none else
  if fld w 0 8 = 0 then
    some (.add (fin 4 (fld w 29 2)) (fin 32 (fld w 18 5)) (fin 32 (fld w 13 5)) (fin 32 (fld w 8 5)))
  else if fld w 0 8 = 1 then
    some (.sub (fin 4 (fld w 29 2)) (fin 32 (fld w 18 5)) (fin 32 (fld w 13 5)) (fin 32 (fld w 8 5)))
  else if fld w 0 8 = 2 then
    some (.addW (fin 4 (fld w 29 2)) (fin 32 (fld w 18 5)) (fin 32 (fld w 13 5)) (fin 32 (fld w 8 5)))
  else if fld w 0 8 = 3 then
    some (.subW (fin 4 (fld w 29 2)) (fin 32 (fld w 18 5)) (fin 32 (fld w 13 5)) (fin 32 (fld w 8 5)))
  else if fld w 0 8 = 4 then
    some (.mul (fin 4 (fld w 29 2)) (fin 32 (fld w 18 5)) (fin 32 (fld w 13 5)) (fin 32 (fld w 8 5)))
  else if fld w 0 8 = 5 then
    some (.mulh (fin 4 (fld w 29 2)) (fin 32 (fld w 18 5)) (fin 32 (fld w 13 5)) (fin 32 (fld w 8 5)))
  else if fld w 0 8 = 6 then
    some (.mulhn (fin 4 (fld w 29 2)) (fin 32 (fld w 18 5)) (fin 32 (fld w 13 5)) (fin 32 (fld w 8 5)))
  else if fld w 0 8 = 7 then
    some (.div (fin 4 (fld w 29 2)) (fin 32 (fld w 18 5)) (fin 32 (fld w 13 5)) (fin 32 (fld w 8 5)))
  else if fld w 0 8 = 8 then
    some (.divn (fin 4 (fld w 29 2)) (fin 32 (fld w 18 5)) (fin 32 (fld w 13 5)) (fin 32 (fld w 8 5)))
  else if fld w 0 8 = 9 then
    some (.rem (fin 4 (fld w 29 2)) (fin 32 (fld w 18 5)) (fin 32 (fld w 13 5)) (fin 32 (fld w 8 5)))
  else if fld w 0 8 = 10 then
    some (.remn (fin 4 (fld w 29 2)) (fin 32 (fld w 18 5)) (fin 32 (fld w 13 5)) (fin 32 (fld w 8 5)))
  else if fld w 0 8 = 11 then
    some (.and (fin 4 (fld w 29 2)) (fin 32 (fld w 18 5)) (fin 32 (fld w 13 5)) (fin 32 (fld w 8 5)))
  else if fld w 0 8 = 12 then
    some (.or (fin 4 (fld w 29 2)) (fin 32 (fld w 18 5)) (fin 32 (fld w 13 5)) (fin 32 (fld w 8 5)))
  else if fld w 0 8 = 13 then
    some (.xor (fin 4 (fld w 29 2)) (fin 32 (fld w 18 5)) (fin 32 (fld w 13 5)) (fin 32 (fld w 8 5)))
  else if fld w 0 8 = 14 then
    some (.andn (fin 4 (fld w 29 2)) (fin 32 (fld w 18 5)) (fin 32 (fld w 13 5)) (fin 32 (fld w 8 5)))
  else if fld w 0 8 = 15 then
    some (.sll (fin 4 (fld w 29 2)) (fin 32 (fld w 18 5)) (fin 32 (fld w 13 5)) (fin 32 (fld w 8 5)))
  else if fld w 0 8 = 16 then
    some (.srl (fin 4 (fld w 29 2)) (fin 32 (fld w 18 5)) (fin 32 (fld w 13 5)) (fin 32 (fld w 8 5)))
  else if fld w 0 8 = 17 then
    some (.sra (fin 4 (fld w 29 2)) (fin 32 (fld w 18 5)) (fin 32 (fld w 13 5)) (fin 32 (fld w 8 5)))
  else if fld w 0 8 = 18 then
    some (.slt (fin 4 (fld w 29 2)) (fin 32 (fld w 18 5)) (fin 32 (fld w 13 5)) (fin 32 (fld w 8 5)))
  else if fld w 0 8 = 19 then
    some (.sltn (fin 4 (fld w 29 2)) (fin 32 (fld w 18 5)) (fin 32 (fld w 13 5)) (fin 32 (fld w 8 5)))
  else if fld w 0 8 = 20 then
    some (.min (fin 4 (fld w 29 2)) (fin 32 (fld w 18 5)) (fin 32 (fld w 13 5)) (fin 32 (fld w 8 5)))
  else if fld w 0 8 = 21 then
    some (.max (fin 4 (fld w 29 2)) (fin 32 (fld w 18 5)) (fin 32 (fld w 13 5)) (fin 32 (fld w 8 5)))
  else if fld w 0 8 = 22 then
    some (.minn (fin 4 (fld w 29 2)) (fin 32 (fld w 18 5)) (fin 32 (fld w 13 5)) (fin 32 (fld w 8 5)))
  else if fld w 0 8 = 23 then
    some (.maxn (fin 4 (fld w 29 2)) (fin 32 (fld w 18 5)) (fin 32 (fld w 13 5)) (fin 32 (fld w 8 5)))
  else if fld w 0 8 = 24 ∧ fld w 8 5 = 0 then
    some (.clz (fin 4 (fld w 29 2)) (fin 32 (fld w 18 5)) (fin 32 (fld w 13 5)))
  else if fld w 0 8 = 25 ∧ fld w 8 5 = 0 then
    some (.ffs (fin 4 (fld w 29 2)) (fin 32 (fld w 18 5)) (fin 32 (fld w 13 5)))
  else if fld w 0 8 = 26 ∧ fld w 8 5 = 0 then
    some (.popc (fin 4 (fld w 29 2)) (fin 32 (fld w 18 5)) (fin 32 (fld w 13 5)))
  else none

/-- The words of major 0x02 (07 R177, R161). -/
def decode02 (w : Nat) : Option Instr :=
  if fld w 31 1 ≠ 0 then none else
  some (.addi (fin 4 (fld w 29 2)) (fin 32 (fld w 18 5)) (fin 32 (fld w 13 5)) (BitVec.ofNat 13 (fld w 0 13)))

/-- The words of major 0x03 (07 R177, R161). -/
def decode03 (w : Nat) : Option Instr :=
  if fld w 31 1 ≠ 0 then none else
  some (.andi (fin 4 (fld w 29 2)) (fin 32 (fld w 18 5)) (fin 32 (fld w 13 5)) (BitVec.ofNat 13 (fld w 0 13)))

/-- The words of major 0x04 (07 R177, R161). -/
def decode04 (w : Nat) : Option Instr :=
  if fld w 31 1 ≠ 0 then none else
  some (.ori (fin 4 (fld w 29 2)) (fin 32 (fld w 18 5)) (fin 32 (fld w 13 5)) (BitVec.ofNat 13 (fld w 0 13)))

/-- The words of major 0x05 (07 R177, R161). -/
def decode05 (w : Nat) : Option Instr :=
  if fld w 31 1 ≠ 0 then none else
  some (.xori (fin 4 (fld w 29 2)) (fin 32 (fld w 18 5)) (fin 32 (fld w 13 5)) (BitVec.ofNat 13 (fld w 0 13)))

/-- The words of major 0x06 (07 R177, R161). -/
def decode06 (w : Nat) : Option Instr :=
  if fld w 31 1 ≠ 0 then none else
  if fld w 11 2 = 0 ∧ fld w 6 5 = 0 then
    some (.slli (fin 4 (fld w 29 2)) (fin 32 (fld w 18 5)) (fin 32 (fld w 13 5)) (fin 64 (fld w 0 6)))
  else if fld w 11 2 = 1 ∧ fld w 6 5 = 0 then
    some (.srli (fin 4 (fld w 29 2)) (fin 32 (fld w 18 5)) (fin 32 (fld w 13 5)) (fin 64 (fld w 0 6)))
  else if fld w 11 2 = 2 ∧ fld w 6 5 = 0 then
    some (.srai (fin 4 (fld w 29 2)) (fin 32 (fld w 18 5)) (fin 32 (fld w 13 5)) (fin 64 (fld w 0 6)))
  else none

/-- The words of major 0x07 (07 R177, R161). -/
def decode07 (w : Nat) : Option Instr :=
  if fld w 31 1 ≠ 0 then none else
  if fld w 12 1 = 0 then
    some (.slti (fin 4 (fld w 29 2)) (fin 32 (fld w 18 5)) (fin 32 (fld w 13 5)) (BitVec.ofNat 12 (fld w 0 12)))
  else if fld w 12 1 = 1 then
    some (.sltni (fin 4 (fld w 29 2)) (fin 32 (fld w 18 5)) (fin 32 (fld w 13 5)) (BitVec.ofNat 12 (fld w 0 12)))
  else none

/-- The words of major 0x08 (07 R177, R161). -/
def decode08 (w : Nat) : Option Instr :=
  if fld w 31 1 ≠ 0 then none else
  some (.lui (fin 4 (fld w 29 2)) (fin 32 (fld w 18 5)) (BitVec.ofNat 18 (fld w 0 18)))

/-- The words of major 0x09 (07 R177, R161). -/
def decode09 (w : Nat) : Option Instr :=
  if fld w 31 1 ≠ 0 then none else
  some (.auipc (fin 4 (fld w 29 2)) (fin 32 (fld w 18 5)) (BitVec.ofNat 18 (fld w 0 18)))

/-- The words of major 0x0A (07 R177, R161). -/
def decode0A (w : Nat) : Option Instr :=
  if fld w 31 1 ≠ 0 then none else
  if fld w 1 7 = 0 then
    some (.fadd (fin 4 (fld w 29 2)) (fin 32 (fld w 18 5)) (fin 32 (fld w 13 5)) (fin 32 (fld w 8 5)) (bit1 (fld w 0 1)))
  else if fld w 1 7 = 1 then
    some (.fsub (fin 4 (fld w 29 2)) (fin 32 (fld w 18 5)) (fin 32 (fld w 13 5)) (fin 32 (fld w 8 5)) (bit1 (fld w 0 1)))
  else if fld w 1 7 = 2 then
    some (.fmul (fin 4 (fld w 29 2)) (fin 32 (fld w 18 5)) (fin 32 (fld w 13 5)) (fin 32 (fld w 8 5)) (bit1 (fld w 0 1)))
  else if fld w 1 7 = 3 then
    some (.fmac (fin 4 (fld w 29 2)) (fin 32 (fld w 18 5)) (fin 32 (fld w 13 5)) (fin 32 (fld w 8 5)) (bit1 (fld w 0 1)))
  else if fld w 1 7 = 4 then
    some (.fdiv (fin 4 (fld w 29 2)) (fin 32 (fld w 18 5)) (fin 32 (fld w 13 5)) (fin 32 (fld w 8 5)) (bit1 (fld w 0 1)))
  else if fld w 1 7 = 6 then
    some (.fmin (fin 4 (fld w 29 2)) (fin 32 (fld w 18 5)) (fin 32 (fld w 13 5)) (fin 32 (fld w 8 5)) (bit1 (fld w 0 1)))
  else if fld w 1 7 = 7 then
    some (.fmax (fin 4 (fld w 29 2)) (fin 32 (fld w 18 5)) (fin 32 (fld w 13 5)) (fin 32 (fld w 8 5)) (bit1 (fld w 0 1)))
  else if fld w 1 7 = 8 then
    some (.fcmpEq (fin 4 (fld w 29 2)) (fin 32 (fld w 18 5)) (fin 32 (fld w 13 5)) (fin 32 (fld w 8 5)) (bit1 (fld w 0 1)))
  else if fld w 1 7 = 9 then
    some (.fcmpLt (fin 4 (fld w 29 2)) (fin 32 (fld w 18 5)) (fin 32 (fld w 13 5)) (fin 32 (fld w 8 5)) (bit1 (fld w 0 1)))
  else if fld w 1 7 = 10 then
    some (.fcmpLe (fin 4 (fld w 29 2)) (fin 32 (fld w 18 5)) (fin 32 (fld w 13 5)) (fin 32 (fld w 8 5)) (bit1 (fld w 0 1)))
  else if fld w 1 7 = 5 ∧ fld w 8 5 = 0 then
    some (.fsqrt (fin 4 (fld w 29 2)) (fin 32 (fld w 18 5)) (fin 32 (fld w 13 5)) (bit1 (fld w 0 1)))
  else if fld w 1 7 = 13 ∧ fld w 8 5 = 0 then
    some (.fclass (fin 4 (fld w 29 2)) (fin 32 (fld w 18 5)) (fin 32 (fld w 13 5)) (bit1 (fld w 0 1)))
  else if fld w 1 7 = 11 then
    ((Fmt.ofCode (fld w 8 5)).bind fun t => (if t.isFcvtDst then some (.fcvt (fin 4 (fld w 29 2)) (fin 32 (fld w 18 5)) (fin 32 (fld w 13 5)) t (bit1 (fld w 0 1))) else none))
  else if fld w 1 7 = 12 then
    ((Fmt.ofCode (fld w 8 5)).bind fun t => (if t.isFcvtiDst then some (.fcvti (fin 4 (fld w 29 2)) (fin 32 (fld w 18 5)) (fin 32 (fld w 13 5)) t (bit1 (fld w 0 1))) else none))
  else none

/-- The words of major 0x0B (07 R177, R161). -/
def decode0B (w : Nat) : Option Instr :=
  if fld w 31 1 ≠ 0 then none else
  if fld w 20 3 = 0 then
    some (.beq (fin 4 (fld w 29 2)) (fin 32 (fld w 15 5)) (fin 32 (fld w 10 5)) (BitVec.ofNat 10 (fld w 0 10)))
  else if fld w 20 3 = 1 then
    some (.bne (fin 4 (fld w 29 2)) (fin 32 (fld w 15 5)) (fin 32 (fld w 10 5)) (BitVec.ofNat 10 (fld w 0 10)))
  else if fld w 20 3 = 4 then
    some (.blt (fin 4 (fld w 29 2)) (fin 32 (fld w 15 5)) (fin 32 (fld w 10 5)) (BitVec.ofNat 10 (fld w 0 10)))
  else if fld w 20 3 = 5 then
    some (.bge (fin 4 (fld w 29 2)) (fin 32 (fld w 15 5)) (fin 32 (fld w 10 5)) (BitVec.ofNat 10 (fld w 0 10)))
  else if fld w 20 3 = 6 then
    some (.bltn (fin 4 (fld w 29 2)) (fin 32 (fld w 15 5)) (fin 32 (fld w 10 5)) (BitVec.ofNat 10 (fld w 0 10)))
  else if fld w 20 3 = 7 then
    some (.bgen (fin 4 (fld w 29 2)) (fin 32 (fld w 15 5)) (fin 32 (fld w 10 5)) (BitVec.ofNat 10 (fld w 0 10)))
  else none

/-- The words of major 0x0C (07 R177, R161). -/
def decode0C (w : Nat) : Option Instr :=
  if fld w 31 1 ≠ 0 then none else
  some (.j (fin 4 (fld w 29 2)) (BitVec.ofNat 23 (fld w 0 23)))

/-- The words of major 0x0D (07 R177, R161). -/
def decode0D (w : Nat) : Option Instr :=
  if fld w 31 1 ≠ 0 then none else
  some (.jal (fin 4 (fld w 29 2)) (BitVec.ofNat 23 (fld w 0 23)))

/-- The words of major 0x0E (07 R177, R161). -/
def decode0E (w : Nat) : Option Instr :=
  if fld w 31 1 ≠ 0 then none else
  some (.jalr (fin 4 (fld w 29 2)) (fin 32 (fld w 18 5)) (fin 32 (fld w 13 5)) (BitVec.ofNat 13 (fld w 0 13)))

/-- The words of major 0x0F (07 R177, R161). -/
def decode0F (w : Nat) : Option Instr :=
  if fld w 31 1 ≠ 0 then none else
  if fld w 10 3 = 0 then
    some (.ldB (fin 4 (fld w 29 2)) (fin 32 (fld w 18 5)) (fin 32 (fld w 13 5)) (BitVec.ofNat 10 (fld w 0 10)))
  else if fld w 10 3 = 1 then
    some (.ldH (fin 4 (fld w 29 2)) (fin 32 (fld w 18 5)) (fin 32 (fld w 13 5)) (BitVec.ofNat 10 (fld w 0 10)))
  else if fld w 10 3 = 2 then
    some (.ldW (fin 4 (fld w 29 2)) (fin 32 (fld w 18 5)) (fin 32 (fld w 13 5)) (BitVec.ofNat 10 (fld w 0 10)))
  else if fld w 10 3 = 3 then
    some (.ldD (fin 4 (fld w 29 2)) (fin 32 (fld w 18 5)) (fin 32 (fld w 13 5)) (BitVec.ofNat 10 (fld w 0 10)))
  else if fld w 10 3 = 4 then
    some (.ldnB (fin 4 (fld w 29 2)) (fin 32 (fld w 18 5)) (fin 32 (fld w 13 5)) (BitVec.ofNat 10 (fld w 0 10)))
  else if fld w 10 3 = 5 then
    some (.ldnH (fin 4 (fld w 29 2)) (fin 32 (fld w 18 5)) (fin 32 (fld w 13 5)) (BitVec.ofNat 10 (fld w 0 10)))
  else if fld w 10 3 = 6 then
    some (.ldnW (fin 4 (fld w 29 2)) (fin 32 (fld w 18 5)) (fin 32 (fld w 13 5)) (BitVec.ofNat 10 (fld w 0 10)))
  else none

/-- The words of major 0x10 (07 R177, R161). -/
def decode10 (w : Nat) : Option Instr :=
  if fld w 31 1 ≠ 0 then none else
  if fld w 10 3 = 0 then
    some (.stB (fin 4 (fld w 29 2)) (fin 32 (fld w 18 5)) (fin 32 (fld w 13 5)) (BitVec.ofNat 10 (fld w 0 10)))
  else if fld w 10 3 = 1 then
    some (.stH (fin 4 (fld w 29 2)) (fin 32 (fld w 18 5)) (fin 32 (fld w 13 5)) (BitVec.ofNat 10 (fld w 0 10)))
  else if fld w 10 3 = 2 then
    some (.stW (fin 4 (fld w 29 2)) (fin 32 (fld w 18 5)) (fin 32 (fld w 13 5)) (BitVec.ofNat 10 (fld w 0 10)))
  else if fld w 10 3 = 3 then
    some (.stD (fin 4 (fld w 29 2)) (fin 32 (fld w 18 5)) (fin 32 (fld w 13 5)) (BitVec.ofNat 10 (fld w 0 10)))
  else none

/-- The words of major 0x11 (07 R177, R161). -/
def decode11 (w : Nat) : Option Instr :=
  if fld w 31 1 ≠ 0 then none else
  if fld w 4 4 = 0 ∧ fld w 0 1 = 0 then
    some (.amoadd (fin 4 (fld w 29 2)) (fin 32 (fld w 18 5)) (fin 32 (fld w 13 5)) (fin 32 (fld w 8 5)) (bit1 (fld w 3 1)) (bit1 (fld w 2 1)) (bit1 (fld w 1 1)))
  else if fld w 4 4 = 1 ∧ fld w 0 1 = 0 then
    some (.amoand (fin 4 (fld w 29 2)) (fin 32 (fld w 18 5)) (fin 32 (fld w 13 5)) (fin 32 (fld w 8 5)) (bit1 (fld w 3 1)) (bit1 (fld w 2 1)) (bit1 (fld w 1 1)))
  else if fld w 4 4 = 2 ∧ fld w 0 1 = 0 then
    some (.amoor (fin 4 (fld w 29 2)) (fin 32 (fld w 18 5)) (fin 32 (fld w 13 5)) (fin 32 (fld w 8 5)) (bit1 (fld w 3 1)) (bit1 (fld w 2 1)) (bit1 (fld w 1 1)))
  else if fld w 4 4 = 3 ∧ fld w 0 1 = 0 then
    some (.amoxor (fin 4 (fld w 29 2)) (fin 32 (fld w 18 5)) (fin 32 (fld w 13 5)) (fin 32 (fld w 8 5)) (bit1 (fld w 3 1)) (bit1 (fld w 2 1)) (bit1 (fld w 1 1)))
  else if fld w 4 4 = 4 ∧ fld w 0 1 = 0 then
    some (.amomin (fin 4 (fld w 29 2)) (fin 32 (fld w 18 5)) (fin 32 (fld w 13 5)) (fin 32 (fld w 8 5)) (bit1 (fld w 3 1)) (bit1 (fld w 2 1)) (bit1 (fld w 1 1)))
  else if fld w 4 4 = 5 ∧ fld w 0 1 = 0 then
    some (.amomax (fin 4 (fld w 29 2)) (fin 32 (fld w 18 5)) (fin 32 (fld w 13 5)) (fin 32 (fld w 8 5)) (bit1 (fld w 3 1)) (bit1 (fld w 2 1)) (bit1 (fld w 1 1)))
  else if fld w 4 4 = 6 ∧ fld w 0 1 = 0 then
    some (.amominn (fin 4 (fld w 29 2)) (fin 32 (fld w 18 5)) (fin 32 (fld w 13 5)) (fin 32 (fld w 8 5)) (bit1 (fld w 3 1)) (bit1 (fld w 2 1)) (bit1 (fld w 1 1)))
  else if fld w 4 4 = 7 ∧ fld w 0 1 = 0 then
    some (.amomaxn (fin 4 (fld w 29 2)) (fin 32 (fld w 18 5)) (fin 32 (fld w 13 5)) (fin 32 (fld w 8 5)) (bit1 (fld w 3 1)) (bit1 (fld w 2 1)) (bit1 (fld w 1 1)))
  else if fld w 4 4 = 8 ∧ fld w 0 1 = 0 then
    some (.amoswap (fin 4 (fld w 29 2)) (fin 32 (fld w 18 5)) (fin 32 (fld w 13 5)) (fin 32 (fld w 8 5)) (bit1 (fld w 3 1)) (bit1 (fld w 2 1)) (bit1 (fld w 1 1)))
  else if fld w 4 4 = 9 ∧ fld w 0 1 = 0 then
    some (.amocas (fin 4 (fld w 29 2)) (fin 32 (fld w 18 5)) (fin 32 (fld w 13 5)) (fin 32 (fld w 8 5)) (bit1 (fld w 3 1)) (bit1 (fld w 2 1)) (bit1 (fld w 1 1)))
  else none

/-- The words of major 0x12 (07 R177, R161). -/
def decode12 (w : Nat) : Option Instr :=
  if fld w 31 1 ≠ 0 then none else
  if fld w 0 8 = 0 ∧ fld w 18 5 = 0 then
    ((FenceKind.ofCode (fld w 13 5)).bind fun k => ((FenceScope.ofCode (fld w 8 5)).bind fun p => some (.fence (fin 4 (fld w 29 2)) k p)))
  else if fld w 0 8 = 1 ∧ fld w 8 5 = 0 then
    some (.ldaqB (fin 4 (fld w 29 2)) (fin 32 (fld w 18 5)) (fin 32 (fld w 13 5)))
  else if fld w 0 8 = 2 ∧ fld w 8 5 = 0 then
    some (.ldaqH (fin 4 (fld w 29 2)) (fin 32 (fld w 18 5)) (fin 32 (fld w 13 5)))
  else if fld w 0 8 = 3 ∧ fld w 8 5 = 0 then
    some (.ldaqW (fin 4 (fld w 29 2)) (fin 32 (fld w 18 5)) (fin 32 (fld w 13 5)))
  else if fld w 0 8 = 4 ∧ fld w 8 5 = 0 then
    some (.ldaqD (fin 4 (fld w 29 2)) (fin 32 (fld w 18 5)) (fin 32 (fld w 13 5)))
  else if fld w 0 8 = 5 ∧ fld w 18 5 = 0 then
    some (.strlB (fin 4 (fld w 29 2)) (fin 32 (fld w 13 5)) (fin 32 (fld w 8 5)))
  else if fld w 0 8 = 6 ∧ fld w 18 5 = 0 then
    some (.strlH (fin 4 (fld w 29 2)) (fin 32 (fld w 13 5)) (fin 32 (fld w 8 5)))
  else if fld w 0 8 = 7 ∧ fld w 18 5 = 0 then
    some (.strlW (fin 4 (fld w 29 2)) (fin 32 (fld w 13 5)) (fin 32 (fld w 8 5)))
  else if fld w 0 8 = 8 ∧ fld w 18 5 = 0 then
    some (.strlD (fin 4 (fld w 29 2)) (fin 32 (fld w 13 5)) (fin 32 (fld w 8 5)))
  else if fld w 0 8 = 9 ∧ fld w 8 15 = 0 then
    some (.endTask (fin 4 (fld w 29 2)))
  else if fld w 0 8 = 10 ∧ fld w 8 15 = 0 then
    some (.stall (fin 4 (fld w 29 2)))
  else if fld w 0 8 = 11 ∧ fld w 8 15 = 0 then
    some (.slip (fin 4 (fld w 29 2)))
  else if fld w 0 8 = 12 ∧ fld w 8 15 = 0 then
    some (.yieldTurn (fin 4 (fld w 29 2)))
  else if fld w 0 8 = 13 ∧ fld w 18 5 = 0 then
    some (.svc (fin 4 (fld w 29 2)) (BitVec.ofNat 10 (fld w 8 10)))
  else if fld w 0 8 = 14 ∧ fld w 18 5 = 0 then
    some (.brk (fin 4 (fld w 29 2)) (BitVec.ofNat 10 (fld w 8 10)))
  else none

/-- The words of major 0x13 (07 R177, R161). -/
def decode13 (w : Nat) : Option Instr :=
  if fld w 31 1 ≠ 0 then none else
  if fld w 0 8 = 0 ∧ fld w 8 10 = 0 then
    some (.qpush (fin 4 (fld w 29 2)) (fin 32 (fld w 18 5)))
  else if fld w 0 8 = 1 ∧ fld w 8 5 = 0 then
    some (.qpushC (fin 4 (fld w 29 2)) (fin 32 (fld w 18 5)) (fin 32 (fld w 13 5)))
  else if fld w 0 8 = 2 ∧ fld w 8 15 = 0 then
    some (.qpop (fin 4 (fld w 29 2)))
  else if fld w 0 8 = 3 ∧ fld w 8 10 = 0 then
    some (.qtry (fin 4 (fld w 29 2)) (fin 32 (fld w 18 5)))
  else if fld w 0 8 = 4 ∧ fld w 8 5 = 0 then
    some (.join (fin 4 (fld w 29 2)) (fin 32 (fld w 18 5)) (fin 32 (fld w 13 5)))
  else if fld w 0 8 = 5 ∧ fld w 8 15 = 0 then
    some (.early (fin 4 (fld w 29 2)))
  else if fld w 0 8 = 6 ∧ fld w 8 10 = 0 then
    some (.pwait (fin 4 (fld w 29 2)) (fin 32 (fld w 18 5)))
  else if fld w 0 8 = 7 then
    some (.lnch (fin 4 (fld w 29 2)) (fin 32 (fld w 18 5)) (fin 32 (fld w 13 5)) (fin 32 (fld w 8 5)))
  else if fld w 0 8 = 8 ∧ fld w 8 5 = 0 then
    some (.hcanL (fin 4 (fld w 29 2)) (fin 32 (fld w 18 5)) (fin 32 (fld w 13 5)))
  else if fld w 0 8 = 9 ∧ fld w 8 5 = 0 then
    some (.hcanG (fin 4 (fld w 29 2)) (fin 32 (fld w 18 5)) (fin 32 (fld w 13 5)))
  else if fld w 0 8 = 10 ∧ fld w 8 5 = 0 then
    some (.hcanP (fin 4 (fld w 29 2)) (fin 32 (fld w 18 5)) (fin 32 (fld w 13 5)))
  else if fld w 0 8 = 11 ∧ fld w 8 5 = 0 then
    some (.hcanJ (fin 4 (fld w 29 2)) (fin 32 (fld w 18 5)) (fin 32 (fld w 13 5)))
  else if fld w 0 8 = 12 ∧ fld w 8 5 = 0 then
    some (.hcntL (fin 4 (fld w 29 2)) (fin 32 (fld w 18 5)) (fin 32 (fld w 13 5)))
  else if fld w 0 8 = 13 ∧ fld w 8 5 = 0 then
    some (.hcntG (fin 4 (fld w 29 2)) (fin 32 (fld w 18 5)) (fin 32 (fld w 13 5)))
  else if fld w 0 8 = 14 ∧ fld w 8 5 = 0 then
    some (.hcntP (fin 4 (fld w 29 2)) (fin 32 (fld w 18 5)) (fin 32 (fld w 13 5)))
  else if fld w 0 8 = 15 ∧ fld w 8 5 = 0 then
    some (.hcntJ (fin 4 (fld w 29 2)) (fin 32 (fld w 18 5)) (fin 32 (fld w 13 5)))
  else none

/-- The words of major 0x14 (07 R177, R161). -/
def decode14 (w : Nat) : Option Instr :=
  if fld w 31 1 ≠ 0 then none else
  if fld w 0 8 = 0 then
    some (.twait (fin 4 (fld w 29 2)) (fin 32 (fld w 18 5)) (fin 32 (fld w 13 5)) (fin 32 (fld w 8 5)))
  else if fld w 0 8 = 1 then
    some (.twaitAny (fin 4 (fld w 29 2)) (fin 32 (fld w 18 5)) (fin 32 (fld w 13 5)) (fin 32 (fld w 8 5)))
  else if fld w 0 8 = 2 then
    some (.twaitAll (fin 4 (fld w 29 2)) (fin 32 (fld w 18 5)) (fin 32 (fld w 13 5)) (fin 32 (fld w 8 5)))
  else if fld w 0 8 = 3 then
    some (.tffr (fin 4 (fld w 29 2)) (fin 32 (fld w 18 5)) (fin 32 (fld w 13 5)) (fin 32 (fld w 8 5)))
  else if fld w 0 8 = 4 ∧ fld w 8 5 = 0 then
    some (.tcan (fin 4 (fld w 29 2)) (fin 32 (fld w 18 5)) (fin 32 (fld w 13 5)))
  else if fld w 0 8 = 5 ∧ fld w 8 5 = 0 then
    some (.tdet (fin 4 (fld w 29 2)) (fin 32 (fld w 18 5)) (fin 32 (fld w 13 5)))
  else if fld w 0 8 = 6 ∧ fld w 8 5 = 0 then
    some (.tadopt (fin 4 (fld w 29 2)) (fin 32 (fld w 18 5)) (fin 32 (fld w 13 5)))
  else if fld w 0 8 = 7 ∧ fld w 8 5 = 0 then
    some (.tstat (fin 4 (fld w 29 2)) (fin 32 (fld w 18 5)) (fin 32 (fld w 13 5)))
  else if fld w 0 8 = 8 then
    some (.wch (fin 4 (fld w 29 2)) (fin 32 (fld w 18 5)) (fin 32 (fld w 13 5)) (fin 32 (fld w 8 5)))
  else if fld w 0 8 = 9 ∧ fld w 8 5 = 0 then
    some (.tch (fin 4 (fld w 29 2)) (fin 32 (fld w 18 5)) (fin 32 (fld w 13 5)))
  else none

/-- The words of major 0x15 (07 R177, R161). -/
def decode15 (w : Nat) : Option Instr :=
  if fld w 31 1 ≠ 0 then none else
  if fld w 11 2 = 0 ∧ fld w 6 5 = 0 ∧ fld w 13 5 = 0 then
    some (.crr (fin 4 (fld w 29 2)) (fin 32 (fld w 18 5)) (fin 64 (fld w 0 6)))
  else if fld w 11 2 = 1 ∧ fld w 6 5 = 0 ∧ fld w 18 5 = 0 then
    some (.crw (fin 4 (fld w 29 2)) (fin 64 (fld w 0 6)) (fin 32 (fld w 13 5)))
  else if fld w 11 2 = 2 ∧ fld w 6 5 = 0 then
    some (.crwi (fin 4 (fld w 29 2)) (fin 64 (fld w 0 6)) (BitVec.ofNat 10 (fld w 13 10)))
  else none

/-- The words of major 0x16 (07 R177, R161). -/
def decode16 (w : Nat) : Option Instr :=
  if fld w 31 1 ≠ 0 then none else
  if fld w 8 5 = 0 ∧ fld w 3 2 = 0 ∧ fld w 2 1 = 0 ∧ fld w 0 2 = 0 then
    some (.ldpB (fin 4 (fld w 29 2)) (fin 32 (fld w 18 5)) (fin 8 (fld w 5 3)) (fin 32 (fld w 13 5)))
  else if fld w 8 5 = 0 ∧ fld w 3 2 = 1 ∧ fld w 2 1 = 0 ∧ fld w 0 2 = 0 then
    some (.ldpH (fin 4 (fld w 29 2)) (fin 32 (fld w 18 5)) (fin 8 (fld w 5 3)) (fin 32 (fld w 13 5)))
  else if fld w 8 5 = 0 ∧ fld w 3 2 = 2 ∧ fld w 2 1 = 0 ∧ fld w 0 2 = 0 then
    some (.ldpW (fin 4 (fld w 29 2)) (fin 32 (fld w 18 5)) (fin 8 (fld w 5 3)) (fin 32 (fld w 13 5)))
  else if fld w 8 5 = 0 ∧ fld w 3 2 = 3 ∧ fld w 2 1 = 0 ∧ fld w 0 2 = 0 then
    some (.ldpD (fin 4 (fld w 29 2)) (fin 32 (fld w 18 5)) (fin 8 (fld w 5 3)) (fin 32 (fld w 13 5)))
  else if fld w 8 5 = 0 ∧ fld w 3 2 = 0 ∧ fld w 2 1 = 1 ∧ fld w 0 2 = 0 then
    some (.ldpnB (fin 4 (fld w 29 2)) (fin 32 (fld w 18 5)) (fin 8 (fld w 5 3)) (fin 32 (fld w 13 5)))
  else if fld w 8 5 = 0 ∧ fld w 3 2 = 1 ∧ fld w 2 1 = 1 ∧ fld w 0 2 = 0 then
    some (.ldpnH (fin 4 (fld w 29 2)) (fin 32 (fld w 18 5)) (fin 8 (fld w 5 3)) (fin 32 (fld w 13 5)))
  else if fld w 8 5 = 0 ∧ fld w 3 2 = 2 ∧ fld w 2 1 = 1 ∧ fld w 0 2 = 0 then
    some (.ldpnW (fin 4 (fld w 29 2)) (fin 32 (fld w 18 5)) (fin 8 (fld w 5 3)) (fin 32 (fld w 13 5)))
  else none

/-- The words of major 0x18 (07 R177, R161). -/
def decode18 (w : Nat) : Option Instr :=
  if fld w 0 8 = 0 then
    some (.vadd (bit1 (fld w 31 1)) (fin 4 (fld w 29 2)) (fin 32 (fld w 18 5)) (fin 32 (fld w 13 5)) (fin 32 (fld w 8 5)))
  else if fld w 0 8 = 1 then
    some (.vsub (bit1 (fld w 31 1)) (fin 4 (fld w 29 2)) (fin 32 (fld w 18 5)) (fin 32 (fld w 13 5)) (fin 32 (fld w 8 5)))
  else if fld w 0 8 = 2 then
    some (.vmul (bit1 (fld w 31 1)) (fin 4 (fld w 29 2)) (fin 32 (fld w 18 5)) (fin 32 (fld w 13 5)) (fin 32 (fld w 8 5)))
  else if fld w 0 8 = 3 then
    some (.vmulh (bit1 (fld w 31 1)) (fin 4 (fld w 29 2)) (fin 32 (fld w 18 5)) (fin 32 (fld w 13 5)) (fin 32 (fld w 8 5)))
  else if fld w 0 8 = 4 then
    some (.vmin (bit1 (fld w 31 1)) (fin 4 (fld w 29 2)) (fin 32 (fld w 18 5)) (fin 32 (fld w 13 5)) (fin 32 (fld w 8 5)))
  else if fld w 0 8 = 5 then
    some (.vmax (bit1 (fld w 31 1)) (fin 4 (fld w 29 2)) (fin 32 (fld w 18 5)) (fin 32 (fld w 13 5)) (fin 32 (fld w 8 5)))
  else if fld w 0 8 = 6 then
    some (.vand (bit1 (fld w 31 1)) (fin 4 (fld w 29 2)) (fin 32 (fld w 18 5)) (fin 32 (fld w 13 5)) (fin 32 (fld w 8 5)))
  else if fld w 0 8 = 7 then
    some (.vor (bit1 (fld w 31 1)) (fin 4 (fld w 29 2)) (fin 32 (fld w 18 5)) (fin 32 (fld w 13 5)) (fin 32 (fld w 8 5)))
  else if fld w 0 8 = 8 then
    some (.vxor (bit1 (fld w 31 1)) (fin 4 (fld w 29 2)) (fin 32 (fld w 18 5)) (fin 32 (fld w 13 5)) (fin 32 (fld w 8 5)))
  else if fld w 0 8 = 9 then
    some (.vandn (bit1 (fld w 31 1)) (fin 4 (fld w 29 2)) (fin 32 (fld w 18 5)) (fin 32 (fld w 13 5)) (fin 32 (fld w 8 5)))
  else if fld w 0 8 = 10 then
    some (.vsll (bit1 (fld w 31 1)) (fin 4 (fld w 29 2)) (fin 32 (fld w 18 5)) (fin 32 (fld w 13 5)) (fin 32 (fld w 8 5)))
  else if fld w 0 8 = 11 then
    some (.vsrl (bit1 (fld w 31 1)) (fin 4 (fld w 29 2)) (fin 32 (fld w 18 5)) (fin 32 (fld w 13 5)) (fin 32 (fld w 8 5)))
  else if fld w 0 8 = 12 then
    some (.vsra (bit1 (fld w 31 1)) (fin 4 (fld w 29 2)) (fin 32 (fld w 18 5)) (fin 32 (fld w 13 5)) (fin 32 (fld w 8 5)))
  else if fld w 0 8 = 13 then
    some (.vadds (bit1 (fld w 31 1)) (fin 4 (fld w 29 2)) (fin 32 (fld w 18 5)) (fin 32 (fld w 13 5)) (fin 32 (fld w 8 5)))
  else if fld w 0 8 = 14 then
    some (.vsubs (bit1 (fld w 31 1)) (fin 4 (fld w 29 2)) (fin 32 (fld w 18 5)) (fin 32 (fld w 13 5)) (fin 32 (fld w 8 5)))
  else if fld w 0 8 = 15 then
    some (.vavg (bit1 (fld w 31 1)) (fin 4 (fld w 29 2)) (fin 32 (fld w 18 5)) (fin 32 (fld w 13 5)) (fin 32 (fld w 8 5)))
  else if fld w 0 8 = 16 ∧ fld w 8 5 = 0 then
    some (.vabs (bit1 (fld w 31 1)) (fin 4 (fld w 29 2)) (fin 32 (fld w 18 5)) (fin 32 (fld w 13 5)))
  else if fld w 0 8 = 17 ∧ fld w 8 5 = 0 then
    some (.vclz (bit1 (fld w 31 1)) (fin 4 (fld w 29 2)) (fin 32 (fld w 18 5)) (fin 32 (fld w 13 5)))
  else if fld w 0 8 = 18 ∧ fld w 8 5 = 0 then
    some (.vffs (bit1 (fld w 31 1)) (fin 4 (fld w 29 2)) (fin 32 (fld w 18 5)) (fin 32 (fld w 13 5)))
  else if fld w 0 8 = 19 ∧ fld w 8 5 = 0 then
    some (.vpopc (bit1 (fld w 31 1)) (fin 4 (fld w 29 2)) (fin 32 (fld w 18 5)) (fin 32 (fld w 13 5)))
  else none

/-- The words of major 0x1F (07 R177, R161). -/
def decode1F (w : Nat) : Option Instr :=
  if fld w 0 8 = 0 then
    some (.vaddVs (bit1 (fld w 31 1)) (fin 4 (fld w 29 2)) (fin 32 (fld w 18 5)) (fin 32 (fld w 13 5)) (fin 32 (fld w 8 5)))
  else if fld w 0 8 = 1 then
    some (.vsubVs (bit1 (fld w 31 1)) (fin 4 (fld w 29 2)) (fin 32 (fld w 18 5)) (fin 32 (fld w 13 5)) (fin 32 (fld w 8 5)))
  else if fld w 0 8 = 2 then
    some (.vmulVs (bit1 (fld w 31 1)) (fin 4 (fld w 29 2)) (fin 32 (fld w 18 5)) (fin 32 (fld w 13 5)) (fin 32 (fld w 8 5)))
  else if fld w 0 8 = 3 then
    some (.vmulhVs (bit1 (fld w 31 1)) (fin 4 (fld w 29 2)) (fin 32 (fld w 18 5)) (fin 32 (fld w 13 5)) (fin 32 (fld w 8 5)))
  else if fld w 0 8 = 4 then
    some (.vminVs (bit1 (fld w 31 1)) (fin 4 (fld w 29 2)) (fin 32 (fld w 18 5)) (fin 32 (fld w 13 5)) (fin 32 (fld w 8 5)))
  else if fld w 0 8 = 5 then
    some (.vmaxVs (bit1 (fld w 31 1)) (fin 4 (fld w 29 2)) (fin 32 (fld w 18 5)) (fin 32 (fld w 13 5)) (fin 32 (fld w 8 5)))
  else if fld w 0 8 = 6 then
    some (.vandVs (bit1 (fld w 31 1)) (fin 4 (fld w 29 2)) (fin 32 (fld w 18 5)) (fin 32 (fld w 13 5)) (fin 32 (fld w 8 5)))
  else if fld w 0 8 = 7 then
    some (.vorVs (bit1 (fld w 31 1)) (fin 4 (fld w 29 2)) (fin 32 (fld w 18 5)) (fin 32 (fld w 13 5)) (fin 32 (fld w 8 5)))
  else if fld w 0 8 = 8 then
    some (.vxorVs (bit1 (fld w 31 1)) (fin 4 (fld w 29 2)) (fin 32 (fld w 18 5)) (fin 32 (fld w 13 5)) (fin 32 (fld w 8 5)))
  else if fld w 0 8 = 9 then
    some (.vandnVs (bit1 (fld w 31 1)) (fin 4 (fld w 29 2)) (fin 32 (fld w 18 5)) (fin 32 (fld w 13 5)) (fin 32 (fld w 8 5)))
  else if fld w 0 8 = 10 then
    some (.vsllVs (bit1 (fld w 31 1)) (fin 4 (fld w 29 2)) (fin 32 (fld w 18 5)) (fin 32 (fld w 13 5)) (fin 32 (fld w 8 5)))
  else if fld w 0 8 = 11 then
    some (.vsrlVs (bit1 (fld w 31 1)) (fin 4 (fld w 29 2)) (fin 32 (fld w 18 5)) (fin 32 (fld w 13 5)) (fin 32 (fld w 8 5)))
  else if fld w 0 8 = 12 then
    some (.vsraVs (bit1 (fld w 31 1)) (fin 4 (fld w 29 2)) (fin 32 (fld w 18 5)) (fin 32 (fld w 13 5)) (fin 32 (fld w 8 5)))
  else if fld w 0 8 = 13 then
    some (.vaddsVs (bit1 (fld w 31 1)) (fin 4 (fld w 29 2)) (fin 32 (fld w 18 5)) (fin 32 (fld w 13 5)) (fin 32 (fld w 8 5)))
  else if fld w 0 8 = 14 then
    some (.vsubsVs (bit1 (fld w 31 1)) (fin 4 (fld w 29 2)) (fin 32 (fld w 18 5)) (fin 32 (fld w 13 5)) (fin 32 (fld w 8 5)))
  else if fld w 0 8 = 15 then
    some (.vavgVs (bit1 (fld w 31 1)) (fin 4 (fld w 29 2)) (fin 32 (fld w 18 5)) (fin 32 (fld w 13 5)) (fin 32 (fld w 8 5)))
  else none

/-- The words of major 0x19 (07 R177, R161). -/
def decode19 (w : Nat) : Option Instr :=
  if fld w 0 8 = 0 then
    some (.vfadd (bit1 (fld w 31 1)) (fin 4 (fld w 29 2)) (fin 32 (fld w 18 5)) (fin 32 (fld w 13 5)) (fin 32 (fld w 8 5)))
  else if fld w 0 8 = 1 then
    some (.vfsub (bit1 (fld w 31 1)) (fin 4 (fld w 29 2)) (fin 32 (fld w 18 5)) (fin 32 (fld w 13 5)) (fin 32 (fld w 8 5)))
  else if fld w 0 8 = 2 then
    some (.vfmul (bit1 (fld w 31 1)) (fin 4 (fld w 29 2)) (fin 32 (fld w 18 5)) (fin 32 (fld w 13 5)) (fin 32 (fld w 8 5)))
  else if fld w 0 8 = 3 then
    some (.vfmac (bit1 (fld w 31 1)) (fin 4 (fld w 29 2)) (fin 32 (fld w 18 5)) (fin 32 (fld w 13 5)) (fin 32 (fld w 8 5)))
  else if fld w 0 8 = 4 then
    some (.vfnmac (bit1 (fld w 31 1)) (fin 4 (fld w 29 2)) (fin 32 (fld w 18 5)) (fin 32 (fld w 13 5)) (fin 32 (fld w 8 5)))
  else if fld w 0 8 = 5 then
    some (.vfmin (bit1 (fld w 31 1)) (fin 4 (fld w 29 2)) (fin 32 (fld w 18 5)) (fin 32 (fld w 13 5)) (fin 32 (fld w 8 5)))
  else if fld w 0 8 = 6 then
    some (.vfmax (bit1 (fld w 31 1)) (fin 4 (fld w 29 2)) (fin 32 (fld w 18 5)) (fin 32 (fld w 13 5)) (fin 32 (fld w 8 5)))
  else if fld w 0 8 = 9 then
    some (.vfdiv (bit1 (fld w 31 1)) (fin 4 (fld w 29 2)) (fin 32 (fld w 18 5)) (fin 32 (fld w 13 5)) (fin 32 (fld w 8 5)))
  else if fld w 0 8 = 7 ∧ fld w 8 5 = 0 then
    some (.vfabs (bit1 (fld w 31 1)) (fin 4 (fld w 29 2)) (fin 32 (fld w 18 5)) (fin 32 (fld w 13 5)))
  else if fld w 0 8 = 8 ∧ fld w 8 5 = 0 then
    some (.vfneg (bit1 (fld w 31 1)) (fin 4 (fld w 29 2)) (fin 32 (fld w 18 5)) (fin 32 (fld w 13 5)))
  else if fld w 0 8 = 10 ∧ fld w 8 5 = 0 then
    some (.vfsqrt (bit1 (fld w 31 1)) (fin 4 (fld w 29 2)) (fin 32 (fld w 18 5)) (fin 32 (fld w 13 5)))
  else if fld w 0 8 = 11 ∧ fld w 8 5 = 0 then
    some (.vfrec (bit1 (fld w 31 1)) (fin 4 (fld w 29 2)) (fin 32 (fld w 18 5)) (fin 32 (fld w 13 5)))
  else if fld w 0 8 = 12 ∧ fld w 8 5 = 0 then
    some (.vfexp2 (bit1 (fld w 31 1)) (fin 4 (fld w 29 2)) (fin 32 (fld w 18 5)) (fin 32 (fld w 13 5)))
  else if fld w 0 8 = 13 ∧ fld w 8 5 = 0 then
    some (.vflog2 (bit1 (fld w 31 1)) (fin 4 (fld w 29 2)) (fin 32 (fld w 18 5)) (fin 32 (fld w 13 5)))
  else if fld w 0 8 = 14 ∧ fld w 8 5 = 0 then
    some (.vfclass (bit1 (fld w 31 1)) (fin 4 (fld w 29 2)) (fin 32 (fld w 18 5)) (fin 32 (fld w 13 5)))
  else none

/-- The words of major 0x20 (07 R177, R161). -/
def decode20 (w : Nat) : Option Instr :=
  if fld w 0 8 = 0 then
    some (.vfaddVs (bit1 (fld w 31 1)) (fin 4 (fld w 29 2)) (fin 32 (fld w 18 5)) (fin 32 (fld w 13 5)) (fin 32 (fld w 8 5)))
  else if fld w 0 8 = 1 then
    some (.vfsubVs (bit1 (fld w 31 1)) (fin 4 (fld w 29 2)) (fin 32 (fld w 18 5)) (fin 32 (fld w 13 5)) (fin 32 (fld w 8 5)))
  else if fld w 0 8 = 2 then
    some (.vfmulVs (bit1 (fld w 31 1)) (fin 4 (fld w 29 2)) (fin 32 (fld w 18 5)) (fin 32 (fld w 13 5)) (fin 32 (fld w 8 5)))
  else if fld w 0 8 = 3 then
    some (.vfmacVs (bit1 (fld w 31 1)) (fin 4 (fld w 29 2)) (fin 32 (fld w 18 5)) (fin 32 (fld w 13 5)) (fin 32 (fld w 8 5)))
  else if fld w 0 8 = 4 then
    some (.vfnmacVs (bit1 (fld w 31 1)) (fin 4 (fld w 29 2)) (fin 32 (fld w 18 5)) (fin 32 (fld w 13 5)) (fin 32 (fld w 8 5)))
  else if fld w 0 8 = 5 then
    some (.vfminVs (bit1 (fld w 31 1)) (fin 4 (fld w 29 2)) (fin 32 (fld w 18 5)) (fin 32 (fld w 13 5)) (fin 32 (fld w 8 5)))
  else if fld w 0 8 = 6 then
    some (.vfmaxVs (bit1 (fld w 31 1)) (fin 4 (fld w 29 2)) (fin 32 (fld w 18 5)) (fin 32 (fld w 13 5)) (fin 32 (fld w 8 5)))
  else if fld w 0 8 = 9 then
    some (.vfdivVs (bit1 (fld w 31 1)) (fin 4 (fld w 29 2)) (fin 32 (fld w 18 5)) (fin 32 (fld w 13 5)) (fin 32 (fld w 8 5)))
  else none

/-- The words of major 0x1A (07 R177, R161). -/
def decode1A (w : Nat) : Option Instr :=
  if fld w 7 1 = 0 ∧ fld w 3 4 = 0 ∧ fld w 21 2 = 0 then
    ((Cond.ofCode (fld w 0 3)).bind fun o => (if o = .un then none else some (.vcmp (bit1 (fld w 31 1)) (fin 4 (fld w 29 2)) o (fin 8 (fld w 18 3)) (fin 32 (fld w 13 5)) (fin 32 (fld w 8 5)))))
  else if fld w 7 1 = 1 ∧ fld w 3 4 = 0 ∧ fld w 21 2 = 0 then
    ((Cond.ofCode (fld w 0 3)).bind fun o => some (.vfcmp (bit1 (fld w 31 1)) (fin 4 (fld w 29 2)) o (fin 8 (fld w 18 3)) (fin 32 (fld w 13 5)) (fin 32 (fld w 8 5))))
  else none

/-- The words of major 0x1B (07 R177, R161). -/
def decode1B (w : Nat) : Option Instr :=
  if fld w 12 1 = 0 ∧ fld w 8 4 = 0 ∧ fld w 0 3 = 0 then
    some (.vslup (bit1 (fld w 31 1)) (fin 4 (fld w 29 2)) (fin 32 (fld w 18 5)) (fin 32 (fld w 13 5)) (fin 32 (fld w 3 5)))
  else if fld w 12 1 = 0 ∧ fld w 8 4 = 1 ∧ fld w 0 3 = 0 then
    some (.vsldn (bit1 (fld w 31 1)) (fin 4 (fld w 29 2)) (fin 32 (fld w 18 5)) (fin 32 (fld w 13 5)) (fin 32 (fld w 3 5)))
  else if fld w 12 1 = 0 ∧ fld w 8 4 = 7 ∧ fld w 0 3 = 0 then
    some (.vdup (bit1 (fld w 31 1)) (fin 4 (fld w 29 2)) (fin 32 (fld w 18 5)) (fin 32 (fld w 13 5)) (fin 32 (fld w 3 5)))
  else if fld w 12 1 = 0 ∧ fld w 8 4 = 2 ∧ fld w 0 8 = 0 then
    some (.vcomp (bit1 (fld w 31 1)) (fin 4 (fld w 29 2)) (fin 32 (fld w 18 5)) (fin 32 (fld w 13 5)))
  else if fld w 12 1 = 0 ∧ fld w 8 4 = 3 ∧ fld w 0 8 = 0 then
    some (.vexp (bit1 (fld w 31 1)) (fin 4 (fld w 29 2)) (fin 32 (fld w 18 5)) (fin 32 (fld w 13 5)))
  else if fld w 12 1 = 0 ∧ fld w 8 4 = 4 ∧ fld w 3 5 = 0 then
    ((Pair.ofCode (fld w 0 3)).bind fun p => some (.vtrn (bit1 (fld w 31 1)) (fin 4 (fld w 29 2)) (fin 32 (fld w 18 5)) (fin 32 (fld w 13 5)) p))
  else if fld w 12 1 = 0 ∧ fld w 8 4 = 5 ∧ fld w 0 8 = 0 ∧ fld w 13 5 = 0 then
    some (.viota (bit1 (fld w 31 1)) (fin 4 (fld w 29 2)) (fin 32 (fld w 18 5)))
  else if fld w 12 1 = 0 ∧ fld w 8 4 = 6 ∧ fld w 0 3 = 0 then
    some (.vsel (bit1 (fld w 31 1)) (fin 4 (fld w 29 2)) (fin 32 (fld w 18 5)) (fin 32 (fld w 13 5)) (fin 32 (fld w 3 5)))
  else if fld w 12 1 = 1 then
    some (.vtbl (bit1 (fld w 31 1)) (fin 4 (fld w 29 2)) (fin 32 (fld w 18 5)) (fin 32 (fld w 13 5)) (fin 8 (fld w 8 3)) (bit1 (fld w 11 1)) (BitVec.ofNat 8 (fld w 0 8)))
  else none

/-- The words of major 0x1C (07 R177, R161). -/
def decode1C (w : Nat) : Option Instr :=
  if fld w 0 8 = 0 ∧ fld w 8 5 = 0 then
    some (.vrsum (bit1 (fld w 31 1)) (fin 4 (fld w 29 2)) (fin 32 (fld w 18 5)) (fin 32 (fld w 13 5)))
  else if fld w 0 8 = 1 ∧ fld w 8 5 = 0 then
    some (.vrmax (bit1 (fld w 31 1)) (fin 4 (fld w 29 2)) (fin 32 (fld w 18 5)) (fin 32 (fld w 13 5)))
  else if fld w 0 8 = 2 ∧ fld w 8 5 = 0 then
    some (.vrmin (bit1 (fld w 31 1)) (fin 4 (fld w 29 2)) (fin 32 (fld w 18 5)) (fin 32 (fld w 13 5)))
  else if fld w 0 8 = 3 ∧ fld w 8 5 = 0 then
    some (.vrand (bit1 (fld w 31 1)) (fin 4 (fld w 29 2)) (fin 32 (fld w 18 5)) (fin 32 (fld w 13 5)))
  else if fld w 0 8 = 4 ∧ fld w 8 5 = 0 then
    some (.vror (bit1 (fld w 31 1)) (fin 4 (fld w 29 2)) (fin 32 (fld w 18 5)) (fin 32 (fld w 13 5)))
  else if fld w 0 8 = 5 ∧ fld w 8 5 = 0 then
    some (.vrxor (bit1 (fld w 31 1)) (fin 4 (fld w 29 2)) (fin 32 (fld w 18 5)) (fin 32 (fld w 13 5)))
  else if fld w 0 8 = 6 ∧ fld w 8 5 = 0 then
    some (.vscan (bit1 (fld w 31 1)) (fin 4 (fld w 29 2)) (fin 32 (fld w 18 5)) (fin 32 (fld w 13 5)))
  else none

/-- The words of major 0x1D (07 R177, R161). -/
def decode1D (w : Nat) : Option Instr :=
  if fld w 0 8 = 0 then
    ((Fmt.ofCode (fld w 8 5)).bind fun t => some (.vcvt (bit1 (fld w 31 1)) (fin 4 (fld w 29 2)) (fin 32 (fld w 18 5)) (fin 32 (fld w 13 5)) t))
  else none

/-- The words of major 0x1E (07 R177, R161). -/
def decode1E (w : Nat) : Option Instr :=
  if fld w 0 8 = 0 then
    some (.amul (bit1 (fld w 31 1)) (fin 4 (fld w 29 2)) (fin 32 (fld w 18 5)) (fin 32 (fld w 13 5)) (fin 32 (fld w 8 5)))
  else if fld w 0 8 = 1 then
    some (.amac (bit1 (fld w 31 1)) (fin 4 (fld w 29 2)) (fin 32 (fld w 18 5)) (fin 32 (fld w 13 5)) (fin 32 (fld w 8 5)))
  else if fld w 0 8 = 2 ∧ fld w 8 5 = 0 then
    some (.aconj (bit1 (fld w 31 1)) (fin 4 (fld w 29 2)) (fin 32 (fld w 18 5)) (fin 32 (fld w 13 5)))
  else if fld w 0 8 = 3 ∧ fld w 8 5 = 0 then
    some (.anorm (bit1 (fld w 31 1)) (fin 4 (fld w 29 2)) (fin 32 (fld w 18 5)) (fin 32 (fld w 13 5)))
  else if fld w 0 8 = 4 ∧ fld w 8 5 = 0 ∧ fld w 21 2 = 0 then
    some (.ald (bit1 (fld w 31 1)) (fin 4 (fld w 29 2)) (fin 8 (fld w 18 3)) (fin 32 (fld w 13 5)))
  else if fld w 0 8 = 5 ∧ fld w 10 3 = 0 then
    some (.scac (bit1 (fld w 31 1)) (fin 4 (fld w 29 2)) (fin 32 (fld w 18 5)) (fin 32 (fld w 13 5)) (fin 4 (fld w 8 2)))
  else none

/-- The words of major 0x21 (07 R177, R161). -/
def decode21 (w : Nat) : Option Instr :=
  if fld w 0 2 = 0 ∧ fld w 8 5 = 0 then
    ((Off.ofCode (fld w 2 2)).bind fun dx => ((Off.ofCode (fld w 4 2)).bind fun dy => ((Off.ofCode (fld w 6 2)).bind fun dz => some (.omovF (bit1 (fld w 31 1)) (fin 4 (fld w 29 2)) (fin 32 (fld w 18 5)) (fin 32 (fld w 13 5)) dx dy dz))))
  else if fld w 0 2 = 1 then
    ((Off.ofCode (fld w 2 2)).bind fun dx => ((Off.ofCode (fld w 4 2)).bind fun dy => ((Off.ofCode (fld w 6 2)).bind fun dz => some (.oaddF (bit1 (fld w 31 1)) (fin 4 (fld w 29 2)) (fin 32 (fld w 18 5)) (fin 32 (fld w 13 5)) dx dy dz (fin 32 (fld w 8 5))))))
  else if fld w 0 2 = 2 then
    ((Off.ofCode (fld w 2 2)).bind fun dx => ((Off.ofCode (fld w 4 2)).bind fun dy => ((Off.ofCode (fld w 6 2)).bind fun dz => some (.osubF (bit1 (fld w 31 1)) (fin 4 (fld w 29 2)) (fin 32 (fld w 18 5)) (fin 32 (fld w 13 5)) dx dy dz (fin 32 (fld w 8 5))))))
  else if fld w 0 2 = 3 then
    ((Off.ofCode (fld w 2 2)).bind fun dx => ((Off.ofCode (fld w 4 2)).bind fun dy => ((Off.ofCode (fld w 6 2)).bind fun dz => some (.omacF (bit1 (fld w 31 1)) (fin 4 (fld w 29 2)) (fin 32 (fld w 18 5)) (fin 32 (fld w 13 5)) dx dy dz (fin 32 (fld w 8 5))))))
  else none

/-- The words of major 0x22 (07 R177, R161). -/
def decode22 (w : Nat) : Option Instr :=
  if fld w 0 2 = 0 ∧ fld w 8 5 = 0 then
    ((Off.ofCode (fld w 2 2)).bind fun dx => ((Off.ofCode (fld w 4 2)).bind fun dy => ((Off.ofCode (fld w 6 2)).bind fun dz => some (.omov (bit1 (fld w 31 1)) (fin 4 (fld w 29 2)) (fin 32 (fld w 18 5)) (fin 32 (fld w 13 5)) dx dy dz))))
  else if fld w 0 2 = 1 then
    ((Off.ofCode (fld w 2 2)).bind fun dx => ((Off.ofCode (fld w 4 2)).bind fun dy => ((Off.ofCode (fld w 6 2)).bind fun dz => some (.oadd (bit1 (fld w 31 1)) (fin 4 (fld w 29 2)) (fin 32 (fld w 18 5)) (fin 32 (fld w 13 5)) dx dy dz (fin 32 (fld w 8 5))))))
  else if fld w 0 2 = 2 then
    ((Off.ofCode (fld w 2 2)).bind fun dx => ((Off.ofCode (fld w 4 2)).bind fun dy => ((Off.ofCode (fld w 6 2)).bind fun dz => some (.osub (bit1 (fld w 31 1)) (fin 4 (fld w 29 2)) (fin 32 (fld w 18 5)) (fin 32 (fld w 13 5)) dx dy dz (fin 32 (fld w 8 5))))))
  else if fld w 0 2 = 3 then
    ((Off.ofCode (fld w 2 2)).bind fun dx => ((Off.ofCode (fld w 4 2)).bind fun dy => ((Off.ofCode (fld w 6 2)).bind fun dz => some (.omac (bit1 (fld w 31 1)) (fin 4 (fld w 29 2)) (fin 32 (fld w 18 5)) (fin 32 (fld w 13 5)) dx dy dz (fin 32 (fld w 8 5))))))
  else none

/-- The words of major 0x23 (07 R177, R161). -/
def decode23 (w : Nat) : Option Instr :=
  if fld w 0 8 = 0 then
    some (.vld (bit1 (fld w 31 1)) (fin 4 (fld w 29 2)) (fin 32 (fld w 18 5)) (fin 32 (fld w 13 5)) (fin 32 (fld w 8 5)))
  else if fld w 0 8 = 1 then
    some (.vst (bit1 (fld w 31 1)) (fin 4 (fld w 29 2)) (fin 32 (fld w 18 5)) (fin 32 (fld w 13 5)) (fin 32 (fld w 8 5)))
  else none

/-- The words of major 0x24 (07 R177, R161). -/
def decode24 (w : Nat) : Option Instr :=
  if fld w 0 8 = 0 then
    some (.vldl (bit1 (fld w 31 1)) (fin 4 (fld w 29 2)) (fin 32 (fld w 18 5)) (fin 32 (fld w 13 5)) (fin 32 (fld w 8 5)))
  else if fld w 0 8 = 1 then
    some (.vstl (bit1 (fld w 31 1)) (fin 4 (fld w 29 2)) (fin 32 (fld w 18 5)) (fin 32 (fld w 13 5)) (fin 32 (fld w 8 5)))
  else none

/-- The words of major 0x25 (07 R177, R161). -/
def decode25 (w : Nat) : Option Instr :=
  if fld w 0 8 = 0 then
    some (.vldx (bit1 (fld w 31 1)) (fin 4 (fld w 29 2)) (fin 32 (fld w 18 5)) (fin 32 (fld w 13 5)) (fin 32 (fld w 8 5)))
  else if fld w 0 8 = 1 then
    some (.vstx (bit1 (fld w 31 1)) (fin 4 (fld w 29 2)) (fin 32 (fld w 18 5)) (fin 32 (fld w 13 5)) (fin 32 (fld w 8 5)))
  else none

/-- The words of major 0x26 (07 R177, R161). -/
def decode26 (w : Nat) : Option Instr :=
  if fld w 0 8 = 0 then
    some (.vldi (bit1 (fld w 31 1)) (fin 4 (fld w 29 2)) (fin 32 (fld w 18 5)) (fin 32 (fld w 13 5)) (fin 32 (fld w 8 5)))
  else if fld w 0 8 = 1 then
    some (.vsti (bit1 (fld w 31 1)) (fin 4 (fld w 29 2)) (fin 32 (fld w 18 5)) (fin 32 (fld w 13 5)) (fin 32 (fld w 8 5)))
  else if fld w 0 8 = 2 then
    some (.vstia (bit1 (fld w 31 1)) (fin 4 (fld w 29 2)) (fin 32 (fld w 18 5)) (fin 32 (fld w 13 5)) (fin 32 (fld w 8 5)))
  else none

/-- The words of major 0x27 (07 R177, R161). -/
def decode27 (w : Nat) : Option Instr :=
  if fld w 0 5 = 0 ∧ fld w 5 3 = 0 then
    some (.vlda (bit1 (fld w 31 1)) (fin 4 (fld w 29 2)) (fin 32 (fld w 18 5)) (fin 32 (fld w 13 5)) (fin 32 (fld w 8 5)))
  else if fld w 0 5 = 1 then
    some (.gathb (bit1 (fld w 31 1)) (fin 4 (fld w 29 2)) (fin 32 (fld w 18 5)) (fin 32 (fld w 13 5)) (fin 32 (fld w 8 5)) (fin 8 (fld w 5 3)))
  else none

/-- The words of major 0x28 (07 R177, R161). -/
def decode28 (w : Nat) : Option Instr :=
  if fld w 0 8 = 0 ∧ fld w 21 2 = 0 ∧ fld w 16 2 = 0 ∧ fld w 11 2 = 0 then
    some (.mand (bit1 (fld w 31 1)) (fin 4 (fld w 29 2)) (fin 8 (fld w 18 3)) (fin 8 (fld w 13 3)) (fin 8 (fld w 8 3)))
  else if fld w 0 8 = 1 ∧ fld w 21 2 = 0 ∧ fld w 16 2 = 0 ∧ fld w 11 2 = 0 then
    some (.mor (bit1 (fld w 31 1)) (fin 4 (fld w 29 2)) (fin 8 (fld w 18 3)) (fin 8 (fld w 13 3)) (fin 8 (fld w 8 3)))
  else if fld w 0 8 = 2 ∧ fld w 21 2 = 0 ∧ fld w 16 2 = 0 ∧ fld w 11 2 = 0 then
    some (.mxor (bit1 (fld w 31 1)) (fin 4 (fld w 29 2)) (fin 8 (fld w 18 3)) (fin 8 (fld w 13 3)) (fin 8 (fld w 8 3)))
  else if fld w 0 8 = 3 ∧ fld w 21 2 = 0 ∧ fld w 16 2 = 0 ∧ fld w 8 5 = 0 then
    some (.mnot (bit1 (fld w 31 1)) (fin 4 (fld w 29 2)) (fin 8 (fld w 18 3)) (fin 8 (fld w 13 3)))
  else if fld w 0 8 = 4 ∧ fld w 16 2 = 0 ∧ fld w 8 5 = 0 then
    some (.mpopc (bit1 (fld w 31 1)) (fin 4 (fld w 29 2)) (fin 32 (fld w 18 5)) (fin 8 (fld w 13 3)))
  else if fld w 0 8 = 5 ∧ fld w 16 2 = 0 ∧ fld w 8 5 = 0 then
    some (.mffs (bit1 (fld w 31 1)) (fin 4 (fld w 29 2)) (fin 32 (fld w 18 5)) (fin 8 (fld w 13 3)))
  else if fld w 0 8 = 6 ∧ fld w 21 2 = 0 then
    some (.mset (bit1 (fld w 31 1)) (fin 4 (fld w 29 2)) (fin 8 (fld w 18 3)) (fin 32 (fld w 13 5)) (fin 32 (fld w 8 5)))
  else if fld w 0 8 = 7 ∧ fld w 16 2 = 0 then
    some (.mget (bit1 (fld w 31 1)) (fin 4 (fld w 29 2)) (fin 32 (fld w 18 5)) (fin 8 (fld w 13 3)) (fin 32 (fld w 8 5)))
  else none

/-- The words of major 0x29 (07 R177, R161). -/
noncomputable def decode29 (w : Nat) : Option Instr :=
  if fld w 0 8 = 0 ∧ fld w 13 5 = 0 then
    some (.vsplat (bit1 (fld w 31 1)) (fin 4 (fld w 29 2)) (fin 32 (fld w 18 5)) (fin 32 (fld w 8 5)))
  else if fld w 0 8 = 1 then
    some (.vext (bit1 (fld w 31 1)) (fin 4 (fld w 29 2)) (fin 32 (fld w 18 5)) (fin 32 (fld w 13 5)) (fin 32 (fld w 8 5)))
  else if fld w 0 8 = 2 then
    some (.vins (bit1 (fld w 31 1)) (fin 4 (fld w 29 2)) (fin 32 (fld w 18 5)) (fin 32 (fld w 13 5)) (fin 32 (fld w 8 5)))
  else if fld w 0 8 = 3 ∧ fld w 8 5 = 0 then
    some (.vsetl (bit1 (fld w 31 1)) (fin 4 (fld w 29 2)) (fin 32 (fld w 18 5)) (fin 32 (fld w 13 5)))
  else if fld w 0 8 = 4 ∧ fld w 8 5 = 0 then
    some (.vsetb (bit1 (fld w 31 1)) (fin 4 (fld w 29 2)) (fin 32 (fld w 18 5)) (fin 32 (fld w 13 5)))
  else none

/-- The words of major 0x2A (07 R177, R161). -/
noncomputable def decode2A (w : Nat) : Option Instr :=
  if fld w 0 5 = 0 ∧ fld w 5 3 = 0 then
    some (.nbset (bit1 (fld w 31 1)) (fin 4 (fld w 29 2)) (fin 32 (fld w 18 5)) (fin 32 (fld w 13 5)) (fin 32 (fld w 8 5)))
  else if fld w 0 5 = 1 ∧ fld w 5 3 = 0 then
    some (.nbget (bit1 (fld w 31 1)) (fin 4 (fld w 29 2)) (fin 32 (fld w 13 5)) (fin 32 (fld w 8 5)) (fin 32 (fld w 18 5)))
  else if fld w 0 5 = 2 then
    some (.waitv (bit1 (fld w 31 1)) (fin 4 (fld w 29 2)) (fin 8 (fld w 5 3)) (fin 32 (fld w 18 5)) (fin 32 (fld w 13 5)) (fin 32 (fld w 8 5)))
  else none

/-- The words of major 0x30 (07 R177, R161). -/
noncomputable def decode30 (w : Nat) : Option Instr :=
  if fld w 31 1 ≠ 0 then none else
  if fld w 0 7 = 0 then
    some (.copy (fin 4 (fld w 29 2)) (bit1 (fld w 7 1)) (fin 32 (fld w 18 5)) (fin 32 (fld w 13 5)) (fin 32 (fld w 8 5)))
  else if fld w 0 7 = 1 ∧ fld w 13 1 = 0 ∧ fld w 8 1 = 0 then
    some (.copyf (fin 4 (fld w 29 2)) (bit1 (fld w 7 1)) (fin 32 (fld w 18 5)) (fin 32 (fld w 13 5)) (fin 32 (fld w 8 5)))
  else if fld w 0 7 = 2 ∧ fld w 13 1 = 0 then
    some (.copym (fin 4 (fld w 29 2)) (bit1 (fld w 7 1)) (fin 32 (fld w 18 5)) (fin 32 (fld w 13 5)) (fin 32 (fld w 8 5)))
  else if fld w 0 7 = 3 ∧ fld w 13 1 = 0 then
    some (.grows (fin 4 (fld w 29 2)) (bit1 (fld w 7 1)) (fin 32 (fld w 18 5)) (fin 32 (fld w 13 5)) (fin 32 (fld w 8 5)))
  else if fld w 0 7 = 4 ∧ fld w 8 5 = 0 then
    some (.publish (fin 4 (fld w 29 2)) (bit1 (fld w 7 1)) (fin 32 (fld w 18 5)) (fin 32 (fld w 13 5)))
  else none

/-- The words of major 0x31 (07 R177, R161). -/
noncomputable def decode31 (w : Nat) : Option Instr :=
  if fld w 31 1 ≠ 0 then none else
  if fld w 0 7 = 0 then
    some (.mma (fin 4 (fld w 29 2)) (bit1 (fld w 7 1)) (fin 32 (fld w 18 5)) (fin 32 (fld w 13 5)) (fin 32 (fld w 8 5)))
  else if fld w 0 7 = 1 then
    some (.mmas (fin 4 (fld w 29 2)) (bit1 (fld w 7 1)) (fin 32 (fld w 18 5)) (fin 32 (fld w 13 5)) (fin 32 (fld w 8 5)))
  else if fld w 0 7 = 2 ∧ fld w 8 10 = 0 then
    some (.mclr (fin 4 (fld w 29 2)) (bit1 (fld w 7 1)) (fin 32 (fld w 18 5)))
  else if fld w 0 7 = 3 ∧ fld w 8 5 = 0 then
    some (.mrd (fin 4 (fld w 29 2)) (bit1 (fld w 7 1)) (fin 32 (fld w 18 5)) (fin 32 (fld w 13 5)))
  else none

/-- The words of major 0x32 (07 R177, R161). -/
noncomputable def decode32 (w : Nat) : Option Instr :=
  if fld w 31 1 ≠ 0 then none else
  if fld w 0 7 = 0 then
    some (.credSum (fin 4 (fld w 29 2)) (bit1 (fld w 7 1)) (fin 32 (fld w 18 5)) (fin 32 (fld w 13 5)) (fin 32 (fld w 8 5)))
  else if fld w 0 7 = 1 then
    some (.credMax (fin 4 (fld w 29 2)) (bit1 (fld w 7 1)) (fin 32 (fld w 18 5)) (fin 32 (fld w 13 5)) (fin 32 (fld w 8 5)))
  else if fld w 0 7 = 2 then
    some (.credMin (fin 4 (fld w 29 2)) (bit1 (fld w 7 1)) (fin 32 (fld w 18 5)) (fin 32 (fld w 13 5)) (fin 32 (fld w 8 5)))
  else if fld w 0 7 = 3 then
    some (.credAnd (fin 4 (fld w 29 2)) (bit1 (fld w 7 1)) (fin 32 (fld w 18 5)) (fin 32 (fld w 13 5)) (fin 32 (fld w 8 5)))
  else if fld w 0 7 = 4 then
    some (.credOr (fin 4 (fld w 29 2)) (bit1 (fld w 7 1)) (fin 32 (fld w 18 5)) (fin 32 (fld w 13 5)) (fin 32 (fld w 8 5)))
  else if fld w 0 7 = 5 then
    some (.credXor (fin 4 (fld w 29 2)) (bit1 (fld w 7 1)) (fin 32 (fld w 18 5)) (fin 32 (fld w 13 5)) (fin 32 (fld w 8 5)))
  else if fld w 0 7 = 8 then
    some (.cgat (fin 4 (fld w 29 2)) (bit1 (fld w 7 1)) (fin 32 (fld w 18 5)) (fin 32 (fld w 13 5)) (fin 32 (fld w 8 5)))
  else if fld w 0 7 = 9 then
    some (.cbc (fin 4 (fld w 29 2)) (bit1 (fld w 7 1)) (fin 32 (fld w 18 5)) (fin 32 (fld w 13 5)) (fin 32 (fld w 8 5)))
  else if fld w 0 7 = 10 ∧ fld w 8 10 = 0 then
    some (.cbar (fin 4 (fld w 29 2)) (bit1 (fld w 7 1)) (fin 32 (fld w 18 5)))
  else if fld w 0 7 = 16 then
    some (.train (fin 4 (fld w 29 2)) (bit1 (fld w 7 1)) (fin 32 (fld w 18 5)) (fin 32 (fld w 13 5)) (fin 32 (fld w 8 5)))
  else none

/-- The words of major 0x33 (07 R177, R161). -/
noncomputable def decode33 (w : Nat) : Option Instr :=
  if fld w 31 1 ≠ 0 then none else
  if fld w 0 7 = 0 then
    some (.migrOut (fin 4 (fld w 29 2)) (bit1 (fld w 7 1)) (fin 32 (fld w 18 5)) (fin 32 (fld w 13 5)) (fin 32 (fld w 8 5)))
  else if fld w 0 7 = 1 then
    some (.migrIn (fin 4 (fld w 29 2)) (bit1 (fld w 7 1)) (fin 32 (fld w 18 5)) (fin 32 (fld w 13 5)) (fin 32 (fld w 8 5)))
  else none

/-- The words of major 0x34 (07 R177, R161). -/
noncomputable def decode34 (w : Nat) : Option Instr :=
  if fld w 31 1 ≠ 0 then none else
  if fld w 0 8 = 0 ∧ fld w 20 3 = 0 then
    some (.scld (fin 4 (fld w 29 2)) (fin 4 (fld w 18 2)) (fin 32 (fld w 13 5)) (fin 32 (fld w 8 5)))
  else none

/-- The words of major 0x3E (07 R177, R161). -/
noncomputable def decode3E (w : Nat) : Option Instr :=
  if fld w 31 1 ≠ 0 then none else
  if fld w 0 8 = 0 ∧ fld w 8 10 = 0 then
    some (.claim (fin 4 (fld w 29 2)) (fin 32 (fld w 18 5)))
  else if fld w 0 8 = 1 ∧ fld w 8 15 = 0 then
    some (.tret (fin 4 (fld w 29 2)))
  else if fld w 0 8 = 2 then
    some (.srr (fin 4 (fld w 29 2)) (fin 32 (fld w 18 5)) (fin 1024 (fld w 8 10)))
  else if fld w 0 8 = 3 then
    some (.srw (fin 4 (fld w 29 2)) (fin 1024 (fld w 13 10)) (fin 32 (fld w 8 5)))
  else if fld w 0 8 = 4 then
    some (.tlbi (fin 4 (fld w 29 2)) (fin 32 (fld w 18 5)) (fin 32 (fld w 13 5)) (fin 32 (fld w 8 5)))
  else if fld w 0 8 = 5 then
    some (.ctxsv (fin 4 (fld w 29 2)) (fin 32 (fld w 18 5)) (fin 32 (fld w 13 5)) (fin 32 (fld w 8 5)))
  else if fld w 0 8 = 6 then
    some (.ctxld (fin 4 (fld w 29 2)) (fin 32 (fld w 18 5)) (fin 32 (fld w 13 5)) (fin 32 (fld w 8 5)))
  else if fld w 0 8 = 7 then
    some (.park (fin 4 (fld w 29 2)) (fin 32 (fld w 18 5)) (fin 32 (fld w 13 5)) (fin 32 (fld w 8 5)))
  else if fld w 0 8 = 8 then
    some (.halt (fin 4 (fld w 29 2)) (fin 32 (fld w 18 5)) (fin 32 (fld w 13 5)) (fin 32 (fld w 8 5)))
  else if fld w 0 8 = 10 then
    some (.bset (fin 4 (fld w 29 2)) (fin 32 (fld w 18 5)) (fin 32 (fld w 13 5)) (fin 32 (fld w 8 5)))
  else if fld w 0 8 = 9 ∧ fld w 8 5 = 0 then
    some (.pcan (fin 4 (fld w 29 2)) (fin 32 (fld w 18 5)) (fin 32 (fld w 13 5)))
  else if fld w 0 8 = 11 ∧ fld w 8 5 = 0 then
    some (.seqr (fin 4 (fld w 29 2)) (fin 32 (fld w 18 5)) (fin 32 (fld w 13 5)))
  else none

/-- The instruction of a 32-bit word (07 R176), none for a word that is not one (R161). -/
noncomputable def decodeWord (w : Nat) : Option Instr :=
  match fld w 23 6 with
  | 1 => decode01 w
  | 2 => decode02 w
  | 3 => decode03 w
  | 4 => decode04 w
  | 5 => decode05 w
  | 6 => decode06 w
  | 7 => decode07 w
  | 8 => decode08 w
  | 9 => decode09 w
  | 10 => decode0A w
  | 11 => decode0B w
  | 12 => decode0C w
  | 13 => decode0D w
  | 14 => decode0E w
  | 15 => decode0F w
  | 16 => decode10 w
  | 17 => decode11 w
  | 18 => decode12 w
  | 19 => decode13 w
  | 20 => decode14 w
  | 21 => decode15 w
  | 22 => decode16 w
  | 24 => decode18 w
  | 25 => decode19 w
  | 26 => decode1A w
  | 27 => decode1B w
  | 28 => decode1C w
  | 29 => decode1D w
  | 30 => decode1E w
  | 31 => decode1F w
  | 32 => decode20 w
  | 33 => decode21 w
  | 34 => decode22 w
  | 35 => decode23 w
  | 36 => decode24 w
  | 37 => decode25 w
  | 38 => decode26 w
  | 39 => decode27 w
  | 40 => decode28 w
  | 41 => decode29 w
  | 42 => decode2A w
  | 48 => decode30 w
  | 49 => decode31 w
  | 50 => decode32 w
  | 51 => decode33 w
  | 52 => decode34 w
  | 62 => decode3E w
  | _ => none

/-- The word four bytes hold, little-endian (00 R3, 07 R158). -/
def wordOfBytes (a b c d : Byte) : Nat := a.toNat + 256 * b.toNat + 65536 * c.toNat + 16777216 * d.toNat

/-- Decoding a byte stream: the instruction of its first word, with the bytes after it. -/
noncomputable def decodeBytes : List Byte → Option (Instr × List Byte)
  | a :: b :: c :: d :: rest => (decodeWord (wordOfBytes a b c d)).map (·, rest)
  | _ => none

/-- The bytes of a word as memory holds it (00 R3). -/
def bytesOfWord (w : Nat) : List Byte :=
  [BitVec.ofNat 8 w, BitVec.ofNat 8 (w / 256), BitVec.ofNat 8 (w / 65536), BitVec.ofNat 8 (w / 16777216)]

/-- What the decoder reads from a table row's bits: every instruction is one word of 32 bits, laid out as
memory holds it and given to `decodeBytes`. -/
noncomputable def decodeTableWord (nbits w : Nat) : Option Instr :=
  (decodeBytes (bytesOfWord (w % 2 ^ (min nbits 32)))).map (·.1)

/-- C, S and OP of a word (07 R158). -/
def head (c : Nat) (s : Fin 4) (op : Nat) : Nat := 2147483648 * c + 536870912 * s.val + 8388608 * op

/-- The word of an instruction, from the encoding tables of 07 R159 and R177; none for the events, which have
no word. -/
def encode : Instr → Option Nat
  | .add s d a b => some (head 0 s 1 + 262144 * d.val + 8192 * a.val + 256 * b.val)
  | .sub s d a b => some (head 0 s 1 + 262144 * d.val + 8192 * a.val + 256 * b.val + 1)
  | .addW s d a b => some (head 0 s 1 + 262144 * d.val + 8192 * a.val + 256 * b.val + 2)
  | .subW s d a b => some (head 0 s 1 + 262144 * d.val + 8192 * a.val + 256 * b.val + 3)
  | .mul s d a b => some (head 0 s 1 + 262144 * d.val + 8192 * a.val + 256 * b.val + 4)
  | .mulh s d a b => some (head 0 s 1 + 262144 * d.val + 8192 * a.val + 256 * b.val + 5)
  | .mulhn s d a b => some (head 0 s 1 + 262144 * d.val + 8192 * a.val + 256 * b.val + 6)
  | .div s d a b => some (head 0 s 1 + 262144 * d.val + 8192 * a.val + 256 * b.val + 7)
  | .divn s d a b => some (head 0 s 1 + 262144 * d.val + 8192 * a.val + 256 * b.val + 8)
  | .rem s d a b => some (head 0 s 1 + 262144 * d.val + 8192 * a.val + 256 * b.val + 9)
  | .remn s d a b => some (head 0 s 1 + 262144 * d.val + 8192 * a.val + 256 * b.val + 10)
  | .and s d a b => some (head 0 s 1 + 262144 * d.val + 8192 * a.val + 256 * b.val + 11)
  | .or s d a b => some (head 0 s 1 + 262144 * d.val + 8192 * a.val + 256 * b.val + 12)
  | .xor s d a b => some (head 0 s 1 + 262144 * d.val + 8192 * a.val + 256 * b.val + 13)
  | .andn s d a b => some (head 0 s 1 + 262144 * d.val + 8192 * a.val + 256 * b.val + 14)
  | .sll s d a b => some (head 0 s 1 + 262144 * d.val + 8192 * a.val + 256 * b.val + 15)
  | .srl s d a b => some (head 0 s 1 + 262144 * d.val + 8192 * a.val + 256 * b.val + 16)
  | .sra s d a b => some (head 0 s 1 + 262144 * d.val + 8192 * a.val + 256 * b.val + 17)
  | .slt s d a b => some (head 0 s 1 + 262144 * d.val + 8192 * a.val + 256 * b.val + 18)
  | .sltn s d a b => some (head 0 s 1 + 262144 * d.val + 8192 * a.val + 256 * b.val + 19)
  | .min s d a b => some (head 0 s 1 + 262144 * d.val + 8192 * a.val + 256 * b.val + 20)
  | .max s d a b => some (head 0 s 1 + 262144 * d.val + 8192 * a.val + 256 * b.val + 21)
  | .minn s d a b => some (head 0 s 1 + 262144 * d.val + 8192 * a.val + 256 * b.val + 22)
  | .maxn s d a b => some (head 0 s 1 + 262144 * d.val + 8192 * a.val + 256 * b.val + 23)
  | .clz s d a => some (head 0 s 1 + 262144 * d.val + 8192 * a.val + 24)
  | .ffs s d a => some (head 0 s 1 + 262144 * d.val + 8192 * a.val + 25)
  | .popc s d a => some (head 0 s 1 + 262144 * d.val + 8192 * a.val + 26)
  | .addi s d a i => some (head 0 s 2 + 262144 * d.val + 8192 * a.val + i.toNat)
  | .andi s d a i => some (head 0 s 3 + 262144 * d.val + 8192 * a.val + i.toNat)
  | .ori s d a i => some (head 0 s 4 + 262144 * d.val + 8192 * a.val + i.toNat)
  | .xori s d a i => some (head 0 s 5 + 262144 * d.val + 8192 * a.val + i.toNat)
  | .slli s d a h => some (head 0 s 6 + 262144 * d.val + 8192 * a.val + h.val)
  | .srli s d a h => some (head 0 s 6 + 262144 * d.val + 8192 * a.val + h.val + 2048)
  | .srai s d a h => some (head 0 s 6 + 262144 * d.val + 8192 * a.val + h.val + 4096)
  | .slti s d a i => some (head 0 s 7 + 262144 * d.val + 8192 * a.val + i.toNat)
  | .sltni s d a i => some (head 0 s 7 + 262144 * d.val + 8192 * a.val + i.toNat + 4096)
  | .lui s d i => some (head 0 s 8 + 262144 * d.val + i.toNat)
  | .auipc s d i => some (head 0 s 9 + 262144 * d.val + i.toNat)
  | .fadd s d a b p => some (head 0 s 10 + 262144 * d.val + 8192 * a.val + 256 * b.val + bitNat p)
  | .fsub s d a b p => some (head 0 s 10 + 262144 * d.val + 8192 * a.val + 256 * b.val + bitNat p + 2)
  | .fmul s d a b p => some (head 0 s 10 + 262144 * d.val + 8192 * a.val + 256 * b.val + bitNat p + 4)
  | .fmac s d a b p => some (head 0 s 10 + 262144 * d.val + 8192 * a.val + 256 * b.val + bitNat p + 6)
  | .fdiv s d a b p => some (head 0 s 10 + 262144 * d.val + 8192 * a.val + 256 * b.val + bitNat p + 8)
  | .fmin s d a b p => some (head 0 s 10 + 262144 * d.val + 8192 * a.val + 256 * b.val + bitNat p + 12)
  | .fmax s d a b p => some (head 0 s 10 + 262144 * d.val + 8192 * a.val + 256 * b.val + bitNat p + 14)
  | .fcmpEq s d a b p => some (head 0 s 10 + 262144 * d.val + 8192 * a.val + 256 * b.val + bitNat p + 16)
  | .fcmpLt s d a b p => some (head 0 s 10 + 262144 * d.val + 8192 * a.val + 256 * b.val + bitNat p + 18)
  | .fcmpLe s d a b p => some (head 0 s 10 + 262144 * d.val + 8192 * a.val + 256 * b.val + bitNat p + 20)
  | .fsqrt s d a p => some (head 0 s 10 + 262144 * d.val + 8192 * a.val + bitNat p + 10)
  | .fclass s d a p => some (head 0 s 10 + 262144 * d.val + 8192 * a.val + bitNat p + 26)
  | .fcvt s d a t p => some (head 0 s 10 + 262144 * d.val + 8192 * a.val + 256 * t.code + bitNat p + 22)
  | .fcvti s d a t n => some (head 0 s 10 + 262144 * d.val + 8192 * a.val + 256 * t.code + bitNat n + 24)
  | .beq s a b i => some (head 0 s 11 + 32768 * a.val + 1024 * b.val + i.toNat)
  | .bne s a b i => some (head 0 s 11 + 32768 * a.val + 1024 * b.val + i.toNat + 1048576)
  | .blt s a b i => some (head 0 s 11 + 32768 * a.val + 1024 * b.val + i.toNat + 4194304)
  | .bge s a b i => some (head 0 s 11 + 32768 * a.val + 1024 * b.val + i.toNat + 5242880)
  | .bltn s a b i => some (head 0 s 11 + 32768 * a.val + 1024 * b.val + i.toNat + 6291456)
  | .bgen s a b i => some (head 0 s 11 + 32768 * a.val + 1024 * b.val + i.toNat + 7340032)
  | .j s i => some (head 0 s 12 + i.toNat)
  | .jal s i => some (head 0 s 13 + i.toNat)
  | .jalr s d a i => some (head 0 s 14 + 262144 * d.val + 8192 * a.val + i.toNat)
  | .ldB s x a i => some (head 0 s 15 + 262144 * x.val + 8192 * a.val + i.toNat)
  | .ldH s x a i => some (head 0 s 15 + 262144 * x.val + 8192 * a.val + i.toNat + 1024)
  | .ldW s x a i => some (head 0 s 15 + 262144 * x.val + 8192 * a.val + i.toNat + 2048)
  | .ldD s x a i => some (head 0 s 15 + 262144 * x.val + 8192 * a.val + i.toNat + 3072)
  | .ldnB s x a i => some (head 0 s 15 + 262144 * x.val + 8192 * a.val + i.toNat + 4096)
  | .ldnH s x a i => some (head 0 s 15 + 262144 * x.val + 8192 * a.val + i.toNat + 5120)
  | .ldnW s x a i => some (head 0 s 15 + 262144 * x.val + 8192 * a.val + i.toNat + 6144)
  | .stB s x a i => some (head 0 s 16 + 262144 * x.val + 8192 * a.val + i.toNat)
  | .stH s x a i => some (head 0 s 16 + 262144 * x.val + 8192 * a.val + i.toNat + 1024)
  | .stW s x a i => some (head 0 s 16 + 262144 * x.val + 8192 * a.val + i.toNat + 2048)
  | .stD s x a i => some (head 0 s 16 + 262144 * x.val + 8192 * a.val + i.toNat + 3072)
  | .amoadd s d a b w q r => some (head 0 s 17 + 262144 * d.val + 8192 * a.val + 256 * b.val + 8 * bitNat w + 4 * bitNat q + 2 * bitNat r)
  | .amoand s d a b w q r => some (head 0 s 17 + 262144 * d.val + 8192 * a.val + 256 * b.val + 8 * bitNat w + 4 * bitNat q + 2 * bitNat r + 16)
  | .amoor s d a b w q r => some (head 0 s 17 + 262144 * d.val + 8192 * a.val + 256 * b.val + 8 * bitNat w + 4 * bitNat q + 2 * bitNat r + 32)
  | .amoxor s d a b w q r => some (head 0 s 17 + 262144 * d.val + 8192 * a.val + 256 * b.val + 8 * bitNat w + 4 * bitNat q + 2 * bitNat r + 48)
  | .amomin s d a b w q r => some (head 0 s 17 + 262144 * d.val + 8192 * a.val + 256 * b.val + 8 * bitNat w + 4 * bitNat q + 2 * bitNat r + 64)
  | .amomax s d a b w q r => some (head 0 s 17 + 262144 * d.val + 8192 * a.val + 256 * b.val + 8 * bitNat w + 4 * bitNat q + 2 * bitNat r + 80)
  | .amominn s d a b w q r => some (head 0 s 17 + 262144 * d.val + 8192 * a.val + 256 * b.val + 8 * bitNat w + 4 * bitNat q + 2 * bitNat r + 96)
  | .amomaxn s d a b w q r => some (head 0 s 17 + 262144 * d.val + 8192 * a.val + 256 * b.val + 8 * bitNat w + 4 * bitNat q + 2 * bitNat r + 112)
  | .amoswap s d a b w q r => some (head 0 s 17 + 262144 * d.val + 8192 * a.val + 256 * b.val + 8 * bitNat w + 4 * bitNat q + 2 * bitNat r + 128)
  | .amocas s d a b w q r => some (head 0 s 17 + 262144 * d.val + 8192 * a.val + 256 * b.val + 8 * bitNat w + 4 * bitNat q + 2 * bitNat r + 144)
  | .fence s k p => some (head 0 s 18 + 8192 * k.code + 256 * p.code)
  | .ldaqB s d a => some (head 0 s 18 + 262144 * d.val + 8192 * a.val + 1)
  | .ldaqH s d a => some (head 0 s 18 + 262144 * d.val + 8192 * a.val + 2)
  | .ldaqW s d a => some (head 0 s 18 + 262144 * d.val + 8192 * a.val + 3)
  | .ldaqD s d a => some (head 0 s 18 + 262144 * d.val + 8192 * a.val + 4)
  | .strlB s a b => some (head 0 s 18 + 8192 * a.val + 256 * b.val + 5)
  | .strlH s a b => some (head 0 s 18 + 8192 * a.val + 256 * b.val + 6)
  | .strlW s a b => some (head 0 s 18 + 8192 * a.val + 256 * b.val + 7)
  | .strlD s a b => some (head 0 s 18 + 8192 * a.val + 256 * b.val + 8)
  | .endTask s => some (head 0 s 18 + 9)
  | .stall s => some (head 0 s 18 + 10)
  | .slip s => some (head 0 s 18 + 11)
  | .yieldTurn s => some (head 0 s 18 + 12)
  | .svc s i => some (head 0 s 18 + 256 * i.toNat + 13)
  | .brk s i => some (head 0 s 18 + 256 * i.toNat + 14)
  | .qpush s d => some (head 0 s 19 + 262144 * d.val)
  | .qpushC s d a => some (head 0 s 19 + 262144 * d.val + 8192 * a.val + 1)
  | .qpop s => some (head 0 s 19 + 2)
  | .qtry s d => some (head 0 s 19 + 262144 * d.val + 3)
  | .join s d a => some (head 0 s 19 + 262144 * d.val + 8192 * a.val + 4)
  | .early s => some (head 0 s 19 + 5)
  | .pwait s d => some (head 0 s 19 + 262144 * d.val + 6)
  | .lnch s d a b => some (head 0 s 19 + 262144 * d.val + 8192 * a.val + 256 * b.val + 7)
  | .hcanL s d a => some (head 0 s 19 + 262144 * d.val + 8192 * a.val + 8)
  | .hcanG s d a => some (head 0 s 19 + 262144 * d.val + 8192 * a.val + 9)
  | .hcanP s d a => some (head 0 s 19 + 262144 * d.val + 8192 * a.val + 10)
  | .hcanJ s d a => some (head 0 s 19 + 262144 * d.val + 8192 * a.val + 11)
  | .hcntL s d a => some (head 0 s 19 + 262144 * d.val + 8192 * a.val + 12)
  | .hcntG s d a => some (head 0 s 19 + 262144 * d.val + 8192 * a.val + 13)
  | .hcntP s d a => some (head 0 s 19 + 262144 * d.val + 8192 * a.val + 14)
  | .hcntJ s d a => some (head 0 s 19 + 262144 * d.val + 8192 * a.val + 15)
  | .twait s d a b => some (head 0 s 20 + 262144 * d.val + 8192 * a.val + 256 * b.val)
  | .twaitAny s d a b => some (head 0 s 20 + 262144 * d.val + 8192 * a.val + 256 * b.val + 1)
  | .twaitAll s d a b => some (head 0 s 20 + 262144 * d.val + 8192 * a.val + 256 * b.val + 2)
  | .tffr s d a b => some (head 0 s 20 + 262144 * d.val + 8192 * a.val + 256 * b.val + 3)
  | .tcan s d a => some (head 0 s 20 + 262144 * d.val + 8192 * a.val + 4)
  | .tdet s d a => some (head 0 s 20 + 262144 * d.val + 8192 * a.val + 5)
  | .tadopt s d a => some (head 0 s 20 + 262144 * d.val + 8192 * a.val + 6)
  | .tstat s d a => some (head 0 s 20 + 262144 * d.val + 8192 * a.val + 7)
  | .wch s d a b => some (head 0 s 20 + 262144 * d.val + 8192 * a.val + 256 * b.val + 8)
  | .tch s d a => some (head 0 s 20 + 262144 * d.val + 8192 * a.val + 9)
  | .crr s d r => some (head 0 s 21 + 262144 * d.val + r.val)
  | .crw s r a => some (head 0 s 21 + r.val + 8192 * a.val + 2048)
  | .crwi s r i => some (head 0 s 21 + r.val + 8192 * i.toNat + 4096)
  | .ldpB s d w a => some (head 0 s 22 + 262144 * d.val + 32 * w.val + 8192 * a.val)
  | .ldpH s d w a => some (head 0 s 22 + 262144 * d.val + 32 * w.val + 8192 * a.val + 8)
  | .ldpW s d w a => some (head 0 s 22 + 262144 * d.val + 32 * w.val + 8192 * a.val + 16)
  | .ldpD s d w a => some (head 0 s 22 + 262144 * d.val + 32 * w.val + 8192 * a.val + 24)
  | .ldpnB s d w a => some (head 0 s 22 + 262144 * d.val + 32 * w.val + 8192 * a.val + 4)
  | .ldpnH s d w a => some (head 0 s 22 + 262144 * d.val + 32 * w.val + 8192 * a.val + 12)
  | .ldpnW s d w a => some (head 0 s 22 + 262144 * d.val + 32 * w.val + 8192 * a.val + 20)
  | .vadd c s d a b => some (head (bitNat c) s 24 + 262144 * d.val + 8192 * a.val + 256 * b.val)
  | .vsub c s d a b => some (head (bitNat c) s 24 + 262144 * d.val + 8192 * a.val + 256 * b.val + 1)
  | .vmul c s d a b => some (head (bitNat c) s 24 + 262144 * d.val + 8192 * a.val + 256 * b.val + 2)
  | .vmulh c s d a b => some (head (bitNat c) s 24 + 262144 * d.val + 8192 * a.val + 256 * b.val + 3)
  | .vmin c s d a b => some (head (bitNat c) s 24 + 262144 * d.val + 8192 * a.val + 256 * b.val + 4)
  | .vmax c s d a b => some (head (bitNat c) s 24 + 262144 * d.val + 8192 * a.val + 256 * b.val + 5)
  | .vand c s d a b => some (head (bitNat c) s 24 + 262144 * d.val + 8192 * a.val + 256 * b.val + 6)
  | .vor c s d a b => some (head (bitNat c) s 24 + 262144 * d.val + 8192 * a.val + 256 * b.val + 7)
  | .vxor c s d a b => some (head (bitNat c) s 24 + 262144 * d.val + 8192 * a.val + 256 * b.val + 8)
  | .vandn c s d a b => some (head (bitNat c) s 24 + 262144 * d.val + 8192 * a.val + 256 * b.val + 9)
  | .vsll c s d a b => some (head (bitNat c) s 24 + 262144 * d.val + 8192 * a.val + 256 * b.val + 10)
  | .vsrl c s d a b => some (head (bitNat c) s 24 + 262144 * d.val + 8192 * a.val + 256 * b.val + 11)
  | .vsra c s d a b => some (head (bitNat c) s 24 + 262144 * d.val + 8192 * a.val + 256 * b.val + 12)
  | .vadds c s d a b => some (head (bitNat c) s 24 + 262144 * d.val + 8192 * a.val + 256 * b.val + 13)
  | .vsubs c s d a b => some (head (bitNat c) s 24 + 262144 * d.val + 8192 * a.val + 256 * b.val + 14)
  | .vavg c s d a b => some (head (bitNat c) s 24 + 262144 * d.val + 8192 * a.val + 256 * b.val + 15)
  | .vabs c s d a => some (head (bitNat c) s 24 + 262144 * d.val + 8192 * a.val + 16)
  | .vclz c s d a => some (head (bitNat c) s 24 + 262144 * d.val + 8192 * a.val + 17)
  | .vffs c s d a => some (head (bitNat c) s 24 + 262144 * d.val + 8192 * a.val + 18)
  | .vpopc c s d a => some (head (bitNat c) s 24 + 262144 * d.val + 8192 * a.val + 19)
  | .vaddVs c s d a x => some (head (bitNat c) s 31 + 262144 * d.val + 8192 * a.val + 256 * x.val)
  | .vsubVs c s d a x => some (head (bitNat c) s 31 + 262144 * d.val + 8192 * a.val + 256 * x.val + 1)
  | .vmulVs c s d a x => some (head (bitNat c) s 31 + 262144 * d.val + 8192 * a.val + 256 * x.val + 2)
  | .vmulhVs c s d a x => some (head (bitNat c) s 31 + 262144 * d.val + 8192 * a.val + 256 * x.val + 3)
  | .vminVs c s d a x => some (head (bitNat c) s 31 + 262144 * d.val + 8192 * a.val + 256 * x.val + 4)
  | .vmaxVs c s d a x => some (head (bitNat c) s 31 + 262144 * d.val + 8192 * a.val + 256 * x.val + 5)
  | .vandVs c s d a x => some (head (bitNat c) s 31 + 262144 * d.val + 8192 * a.val + 256 * x.val + 6)
  | .vorVs c s d a x => some (head (bitNat c) s 31 + 262144 * d.val + 8192 * a.val + 256 * x.val + 7)
  | .vxorVs c s d a x => some (head (bitNat c) s 31 + 262144 * d.val + 8192 * a.val + 256 * x.val + 8)
  | .vandnVs c s d a x => some (head (bitNat c) s 31 + 262144 * d.val + 8192 * a.val + 256 * x.val + 9)
  | .vsllVs c s d a x => some (head (bitNat c) s 31 + 262144 * d.val + 8192 * a.val + 256 * x.val + 10)
  | .vsrlVs c s d a x => some (head (bitNat c) s 31 + 262144 * d.val + 8192 * a.val + 256 * x.val + 11)
  | .vsraVs c s d a x => some (head (bitNat c) s 31 + 262144 * d.val + 8192 * a.val + 256 * x.val + 12)
  | .vaddsVs c s d a x => some (head (bitNat c) s 31 + 262144 * d.val + 8192 * a.val + 256 * x.val + 13)
  | .vsubsVs c s d a x => some (head (bitNat c) s 31 + 262144 * d.val + 8192 * a.val + 256 * x.val + 14)
  | .vavgVs c s d a x => some (head (bitNat c) s 31 + 262144 * d.val + 8192 * a.val + 256 * x.val + 15)
  | .vfadd c s d a b => some (head (bitNat c) s 25 + 262144 * d.val + 8192 * a.val + 256 * b.val)
  | .vfsub c s d a b => some (head (bitNat c) s 25 + 262144 * d.val + 8192 * a.val + 256 * b.val + 1)
  | .vfmul c s d a b => some (head (bitNat c) s 25 + 262144 * d.val + 8192 * a.val + 256 * b.val + 2)
  | .vfmac c s d a b => some (head (bitNat c) s 25 + 262144 * d.val + 8192 * a.val + 256 * b.val + 3)
  | .vfnmac c s d a b => some (head (bitNat c) s 25 + 262144 * d.val + 8192 * a.val + 256 * b.val + 4)
  | .vfmin c s d a b => some (head (bitNat c) s 25 + 262144 * d.val + 8192 * a.val + 256 * b.val + 5)
  | .vfmax c s d a b => some (head (bitNat c) s 25 + 262144 * d.val + 8192 * a.val + 256 * b.val + 6)
  | .vfdiv c s d a b => some (head (bitNat c) s 25 + 262144 * d.val + 8192 * a.val + 256 * b.val + 9)
  | .vfabs c s d a => some (head (bitNat c) s 25 + 262144 * d.val + 8192 * a.val + 7)
  | .vfneg c s d a => some (head (bitNat c) s 25 + 262144 * d.val + 8192 * a.val + 8)
  | .vfsqrt c s d a => some (head (bitNat c) s 25 + 262144 * d.val + 8192 * a.val + 10)
  | .vfrec c s d a => some (head (bitNat c) s 25 + 262144 * d.val + 8192 * a.val + 11)
  | .vfexp2 c s d a => some (head (bitNat c) s 25 + 262144 * d.val + 8192 * a.val + 12)
  | .vflog2 c s d a => some (head (bitNat c) s 25 + 262144 * d.val + 8192 * a.val + 13)
  | .vfclass c s d a => some (head (bitNat c) s 25 + 262144 * d.val + 8192 * a.val + 14)
  | .vfaddVs c s d a x => some (head (bitNat c) s 32 + 262144 * d.val + 8192 * a.val + 256 * x.val)
  | .vfsubVs c s d a x => some (head (bitNat c) s 32 + 262144 * d.val + 8192 * a.val + 256 * x.val + 1)
  | .vfmulVs c s d a x => some (head (bitNat c) s 32 + 262144 * d.val + 8192 * a.val + 256 * x.val + 2)
  | .vfmacVs c s d a x => some (head (bitNat c) s 32 + 262144 * d.val + 8192 * a.val + 256 * x.val + 3)
  | .vfnmacVs c s d a x => some (head (bitNat c) s 32 + 262144 * d.val + 8192 * a.val + 256 * x.val + 4)
  | .vfminVs c s d a x => some (head (bitNat c) s 32 + 262144 * d.val + 8192 * a.val + 256 * x.val + 5)
  | .vfmaxVs c s d a x => some (head (bitNat c) s 32 + 262144 * d.val + 8192 * a.val + 256 * x.val + 6)
  | .vfdivVs c s d a x => some (head (bitNat c) s 32 + 262144 * d.val + 8192 * a.val + 256 * x.val + 9)
  | .vcmp c s o m a b => some (head (bitNat c) s 26 + o.code + 262144 * m.val + 8192 * a.val + 256 * b.val)
  | .vfcmp c s o m a b => some (head (bitNat c) s 26 + o.code + 262144 * m.val + 8192 * a.val + 256 * b.val + 128)
  | .vslup c s d a x => some (head (bitNat c) s 27 + 262144 * d.val + 8192 * a.val + 8 * x.val)
  | .vsldn c s d a x => some (head (bitNat c) s 27 + 262144 * d.val + 8192 * a.val + 8 * x.val + 256)
  | .vdup c s d a x => some (head (bitNat c) s 27 + 262144 * d.val + 8192 * a.val + 8 * x.val + 1792)
  | .vcomp c s d a => some (head (bitNat c) s 27 + 262144 * d.val + 8192 * a.val + 512)
  | .vexp c s d a => some (head (bitNat c) s 27 + 262144 * d.val + 8192 * a.val + 768)
  | .vtrn c s d a p => some (head (bitNat c) s 27 + 262144 * d.val + 8192 * a.val + p.code + 1024)
  | .viota c s d => some (head (bitNat c) s 27 + 262144 * d.val + 1280)
  | .vsel c s d a b => some (head (bitNat c) s 27 + 262144 * d.val + 8192 * a.val + 8 * b.val + 1536)
  | .vtbl c s d a n h f => some (head (bitNat c) s 27 + 262144 * d.val + 8192 * a.val + 256 * n.val + 2048 * bitNat h + f.toNat + 4096)
  | .vrsum c s d a => some (head (bitNat c) s 28 + 262144 * d.val + 8192 * a.val)
  | .vrmax c s d a => some (head (bitNat c) s 28 + 262144 * d.val + 8192 * a.val + 1)
  | .vrmin c s d a => some (head (bitNat c) s 28 + 262144 * d.val + 8192 * a.val + 2)
  | .vrand c s d a => some (head (bitNat c) s 28 + 262144 * d.val + 8192 * a.val + 3)
  | .vror c s d a => some (head (bitNat c) s 28 + 262144 * d.val + 8192 * a.val + 4)
  | .vrxor c s d a => some (head (bitNat c) s 28 + 262144 * d.val + 8192 * a.val + 5)
  | .vscan c s d a => some (head (bitNat c) s 28 + 262144 * d.val + 8192 * a.val + 6)
  | .vcvt c s d a t => some (head (bitNat c) s 29 + 262144 * d.val + 8192 * a.val + 256 * t.code)
  | .amul c s d a b => some (head (bitNat c) s 30 + 262144 * d.val + 8192 * a.val + 256 * b.val)
  | .amac c s d a b => some (head (bitNat c) s 30 + 262144 * d.val + 8192 * a.val + 256 * b.val + 1)
  | .aconj c s d a => some (head (bitNat c) s 30 + 262144 * d.val + 8192 * a.val + 2)
  | .anorm c s d a => some (head (bitNat c) s 30 + 262144 * d.val + 8192 * a.val + 3)
  | .ald c s j a => some (head (bitNat c) s 30 + 262144 * j.val + 8192 * a.val + 4)
  | .scac c s d a k => some (head (bitNat c) s 30 + 262144 * d.val + 8192 * a.val + 256 * k.val + 5)
  | .omovF c s d a dx dy dz => some (head (bitNat c) s 33 + 262144 * d.val + 8192 * a.val + 4 * dx.code + 16 * dy.code + 64 * dz.code)
  | .oaddF c s d a dx dy dz b => some (head (bitNat c) s 33 + 262144 * d.val + 8192 * a.val + 4 * dx.code + 16 * dy.code + 64 * dz.code + 256 * b.val + 1)
  | .osubF c s d a dx dy dz b => some (head (bitNat c) s 33 + 262144 * d.val + 8192 * a.val + 4 * dx.code + 16 * dy.code + 64 * dz.code + 256 * b.val + 2)
  | .omacF c s d a dx dy dz b => some (head (bitNat c) s 33 + 262144 * d.val + 8192 * a.val + 4 * dx.code + 16 * dy.code + 64 * dz.code + 256 * b.val + 3)
  | .omov c s d a dx dy dz => some (head (bitNat c) s 34 + 262144 * d.val + 8192 * a.val + 4 * dx.code + 16 * dy.code + 64 * dz.code)
  | .oadd c s d a dx dy dz b => some (head (bitNat c) s 34 + 262144 * d.val + 8192 * a.val + 4 * dx.code + 16 * dy.code + 64 * dz.code + 256 * b.val + 1)
  | .osub c s d a dx dy dz b => some (head (bitNat c) s 34 + 262144 * d.val + 8192 * a.val + 4 * dx.code + 16 * dy.code + 64 * dz.code + 256 * b.val + 2)
  | .omac c s d a dx dy dz b => some (head (bitNat c) s 34 + 262144 * d.val + 8192 * a.val + 4 * dx.code + 16 * dy.code + 64 * dz.code + 256 * b.val + 3)
  | .vld c s b a i => some (head (bitNat c) s 35 + 262144 * b.val + 8192 * a.val + 256 * i.val)
  | .vst c s b a i => some (head (bitNat c) s 35 + 262144 * b.val + 8192 * a.val + 256 * i.val + 1)
  | .vldl c s b a i => some (head (bitNat c) s 36 + 262144 * b.val + 8192 * a.val + 256 * i.val)
  | .vstl c s b a i => some (head (bitNat c) s 36 + 262144 * b.val + 8192 * a.val + 256 * i.val + 1)
  | .vldx c s b a i => some (head (bitNat c) s 37 + 262144 * b.val + 8192 * a.val + 256 * i.val)
  | .vstx c s b a i => some (head (bitNat c) s 37 + 262144 * b.val + 8192 * a.val + 256 * i.val + 1)
  | .vldi c s b a i => some (head (bitNat c) s 38 + 262144 * b.val + 8192 * a.val + 256 * i.val)
  | .vsti c s b a i => some (head (bitNat c) s 38 + 262144 * b.val + 8192 * a.val + 256 * i.val + 1)
  | .vstia c s b a i => some (head (bitNat c) s 38 + 262144 * b.val + 8192 * a.val + 256 * i.val + 2)
  | .vlda c s b a i => some (head (bitNat c) s 39 + 262144 * b.val + 8192 * a.val + 256 * i.val)
  | .gathb c s b a i m => some (head (bitNat c) s 39 + 262144 * b.val + 8192 * a.val + 256 * i.val + 32 * m.val + 1)
  | .mand c s d a b => some (head (bitNat c) s 40 + 262144 * d.val + 8192 * a.val + 256 * b.val)
  | .mor c s d a b => some (head (bitNat c) s 40 + 262144 * d.val + 8192 * a.val + 256 * b.val + 1)
  | .mxor c s d a b => some (head (bitNat c) s 40 + 262144 * d.val + 8192 * a.val + 256 * b.val + 2)
  | .mnot c s d a => some (head (bitNat c) s 40 + 262144 * d.val + 8192 * a.val + 3)
  | .mpopc c s d a => some (head (bitNat c) s 40 + 262144 * d.val + 8192 * a.val + 4)
  | .mffs c s d a => some (head (bitNat c) s 40 + 262144 * d.val + 8192 * a.val + 5)
  | .mset c s d a b => some (head (bitNat c) s 40 + 262144 * d.val + 8192 * a.val + 256 * b.val + 6)
  | .mget c s d a b => some (head (bitNat c) s 40 + 262144 * d.val + 8192 * a.val + 256 * b.val + 7)
  | .vsplat c s d x => some (head (bitNat c) s 41 + 262144 * d.val + 256 * x.val)
  | .vext c s d a x => some (head (bitNat c) s 41 + 262144 * d.val + 8192 * a.val + 256 * x.val + 1)
  | .vins c s d a x => some (head (bitNat c) s 41 + 262144 * d.val + 8192 * a.val + 256 * x.val + 2)
  | .vsetl c s d a => some (head (bitNat c) s 41 + 262144 * d.val + 8192 * a.val + 3)
  | .vsetb c s d a => some (head (bitNat c) s 41 + 262144 * d.val + 8192 * a.val + 4)
  | .nbset c s d a b => some (head (bitNat c) s 42 + 262144 * d.val + 8192 * a.val + 256 * b.val)
  | .nbget c s a b d => some (head (bitNat c) s 42 + 8192 * a.val + 256 * b.val + 262144 * d.val + 1)
  | .waitv c s m a b x => some (head (bitNat c) s 42 + 32 * m.val + 262144 * a.val + 8192 * b.val + 256 * x.val + 2)
  | .copy s p t a b => some (head 0 s 48 + 128 * bitNat p + 262144 * t.val + 8192 * a.val + 256 * b.val)
  | .copyf s p t a b => some (head 0 s 48 + 128 * bitNat p + 262144 * t.val + 8192 * a.val + 256 * b.val + 1)
  | .copym s p t a b => some (head 0 s 48 + 128 * bitNat p + 262144 * t.val + 8192 * a.val + 256 * b.val + 2)
  | .grows s p t a b => some (head 0 s 48 + 128 * bitNat p + 262144 * t.val + 8192 * a.val + 256 * b.val + 3)
  | .publish s p t a => some (head 0 s 48 + 128 * bitNat p + 262144 * t.val + 8192 * a.val + 4)
  | .mma s p t a b => some (head 0 s 49 + 128 * bitNat p + 262144 * t.val + 8192 * a.val + 256 * b.val)
  | .mmas s p t a b => some (head 0 s 49 + 128 * bitNat p + 262144 * t.val + 8192 * a.val + 256 * b.val + 1)
  | .mclr s p t => some (head 0 s 49 + 128 * bitNat p + 262144 * t.val + 2)
  | .mrd s p t a => some (head 0 s 49 + 128 * bitNat p + 262144 * t.val + 8192 * a.val + 3)
  | .credSum s p t a b => some (head 0 s 50 + 128 * bitNat p + 262144 * t.val + 8192 * a.val + 256 * b.val)
  | .credMax s p t a b => some (head 0 s 50 + 128 * bitNat p + 262144 * t.val + 8192 * a.val + 256 * b.val + 1)
  | .credMin s p t a b => some (head 0 s 50 + 128 * bitNat p + 262144 * t.val + 8192 * a.val + 256 * b.val + 2)
  | .credAnd s p t a b => some (head 0 s 50 + 128 * bitNat p + 262144 * t.val + 8192 * a.val + 256 * b.val + 3)
  | .credOr s p t a b => some (head 0 s 50 + 128 * bitNat p + 262144 * t.val + 8192 * a.val + 256 * b.val + 4)
  | .credXor s p t a b => some (head 0 s 50 + 128 * bitNat p + 262144 * t.val + 8192 * a.val + 256 * b.val + 5)
  | .cgat s p t a b => some (head 0 s 50 + 128 * bitNat p + 262144 * t.val + 8192 * a.val + 256 * b.val + 8)
  | .cbc s p t a b => some (head 0 s 50 + 128 * bitNat p + 262144 * t.val + 8192 * a.val + 256 * b.val + 9)
  | .cbar s p t => some (head 0 s 50 + 128 * bitNat p + 262144 * t.val + 10)
  | .train s p t a b => some (head 0 s 50 + 128 * bitNat p + 262144 * t.val + 8192 * a.val + 256 * b.val + 16)
  | .migrOut s p t a b => some (head 0 s 51 + 128 * bitNat p + 262144 * t.val + 8192 * a.val + 256 * b.val)
  | .migrIn s p t a b => some (head 0 s 51 + 128 * bitNat p + 262144 * t.val + 8192 * a.val + 256 * b.val + 1)
  | .scld s k a b => some (head 0 s 52 + 262144 * k.val + 8192 * a.val + 256 * b.val)
  | .claim s d => some (head 0 s 62 + 262144 * d.val)
  | .tret s => some (head 0 s 62 + 1)
  | .srr s d r => some (head 0 s 62 + 262144 * d.val + 256 * r.val + 2)
  | .srw s r b => some (head 0 s 62 + 8192 * r.val + 256 * b.val + 3)
  | .tlbi s d a b => some (head 0 s 62 + 262144 * d.val + 8192 * a.val + 256 * b.val + 4)
  | .ctxsv s d a b => some (head 0 s 62 + 262144 * d.val + 8192 * a.val + 256 * b.val + 5)
  | .ctxld s d a b => some (head 0 s 62 + 262144 * d.val + 8192 * a.val + 256 * b.val + 6)
  | .park s d a b => some (head 0 s 62 + 262144 * d.val + 8192 * a.val + 256 * b.val + 7)
  | .halt s d a b => some (head 0 s 62 + 262144 * d.val + 8192 * a.val + 256 * b.val + 8)
  | .bset s d a b => some (head 0 s 62 + 262144 * d.val + 8192 * a.val + 256 * b.val + 10)
  | .pcan s d a => some (head 0 s 62 + 262144 * d.val + 8192 * a.val + 9)
  | .seqr s d a => some (head 0 s 62 + 262144 * d.val + 8192 * a.val + 11)
  | .illegalWord _ => none
  | .vectorWordStart _ => none
  | .convoyStep _ => none
  | .remoteGroupServe _ _ _ _ => none
  | .groupLand _ _ _ => none
  | .writeApply _ _ => none
  | .writeAcknowledge _ => none
  | .frontierReceive _ _ => none
  | .readServe _ => none
  | .looseWriteApply _ _ => none
  | .waitSatisfied _ => none
  | .waitTimeout _ => none
  | .taskTake _ => none
  | .dispatchGenerate _ _ => none
  | .dispatchPreempt _ _ => none
  | .threadSave _ => none
  | .taskPriorityAge _ _ => none
  | .launchPriorityAge _ _ => none
  | .ringRefill _ => none
  | .joinBufferDrain _ => none
  | .stealAsk _ => none
  | .stealLend _ _ => none
  | .lendAcknowledge _ => none
  | .lendExpiry _ _ => none
  | .cancelReachesThread _ => none
  | .cancelDrained _ _ => none
  | .launchComplete _ _ => none
  | .graphComplete _ _ _ => none
  | .phaseComplete _ _ _ => none
  | .jobComplete _ _ => none
  | .opStart _ _ => none
  | .predecessorFault _ _ => none
  | .copyStep _ _ => none
  | .growsRow _ _ _ => none
  | .publishExchange _ _ => none
  | .mmaKBlock _ _ _ _ => none
  | .mclrStep _ _ => none
  | .mrdRow _ _ => none
  | .trainApply _ _ _ => none
  | .trainAck _ _ _ _ => none
  | .collectiveStep _ _ => none
  | .collJoinTimeout _ _ _ => none
  | .cbarComplete _ _ => none
  | .migrPageMove _ _ _ => none
  | .parkDrainExpiry _ => none
  | .woadCoreStop _ => none
  | .stateParityError _ _ => none
  | .scrub _ => none
  | .hostReadRequest _ _ _ => none
  | .hostWrite _ _ _ => none
  | .fabricRequest _ _ _ _ _ => none
  | .linkCompletion _ _ _ => none
  | .linkAcknowledgement _ _ => none
  | .linkReplayRequest _ _ => none
  | .flitCorrupt _ => none
  | .linkFail _ => none
  | .migrationData _ _ _ => none
  | .statusQuery => none
  | .attestationRequest _ => none
  | .gangLaunchReceive _ _ _ _ => none
  | .gangAck _ _ _ => none
  | .gangRefusal _ _ _ => none
  | .gangMemberReport _ _ _ _ => none
  | .gangAckTimeout _ _ _ => none
  | .powerOnReset => none
  | .firmwareLoad => none
  | .firmwareVerify => none
  | .selfTest => none
  | .brctlGo => none
  | .brctlFail _ => none
  | .oppWrite _ _ => none
  | .oppChangeComplete _ => none
  | .powerLimitExceeded => none
  | .powerLimitRestore => none
  | .qctlWrite _ _ _ => none
  | .poolWrite _ _ _ => none
  | .ringWrite _ _ _ => none
  | .qjobWrite _ _ _ => none
  | .jcloseWrite _ _ => none
  | .migrationBlockWrite _ _ _ => none
  | .carveWrite _ _ _ => none
  | .portTrain _ => none
  | .partWrite _ _ => none
  | .registerWrite _ _ => none
  | .pushArrival _ => none
  | .stealAnswer _ => none
  | .lendAnswer _ => none
  | .gangCancel _ _ => none
  | .securityVersionRaise _ => none

end Sys2Proof
end

