-- ==== Sys2Proof/Config.lean ====
section
/-! DEFINITION. Config: what the manual leaves open. Every constant here is opaque: no proof can see a value
of it, and a statement about a free value holds for every value. -/

namespace Sys2Proof.Config

/-- The free choices of the part (02 R45, 05 R116, R120, R130, 07 R166, R175, 17 R320, 10 R244): the choice
number `salt` of the step number `tick`. DESIGN CHOICE, log entry 2. -/
opaque choice (tick salt : Nat) : Nat

/-- One of n outcomes that a rule permits (00 R8): no choice is made where there is only one. -/
def pick (tick salt n : Nat) : Nat := if n ≤ 1 then 0 else choice tick salt % n

/-- A duration in cycles that no rule fixes, such as the time a waiting word has waited (18 R339, R341). Log
entry 17. -/
opaque cycles (tick salt : Nat) : BitVec 64

/-- What a table walk reads at an address that lies in no region of 17 R315. Log entry 18. -/
opaque absentDword (pa : Nat) : BitVec 64

/-- A byte of another module's memory, as an operation of this one reads it (10 R252): the module is not in the state.
Log entry 26. -/
opaque remoteByte (tick mod pa : Nat) : BitVec 8

/-- Woad's RSA-3072 PSS signature (19 R361), made with a private key that no rule gives and with a salt of its own each time, which `tick`
stands for. Log entry 5. -/
opaque rsaSign (tick : Nat) (msg : List (BitVec 8)) : BitVec 3072

/-- Woad's SLH-DSA-SHA2-256s signature, 29,792 bytes (19 R361), with its own private key and randomiser. Log entry 5. -/
opaque slhSign (tick : Nat) (msg : List (BitVec 8)) : BitVec 238336

/-- Whether a module is a member of a gang, beside this one (16 R312, 17 R319, 19 R352): the fabric's membership stands in no
register. Log entry 80. -/
opaque gangHas (gang : BitVec 32) (m : Nat) : Bool

/-- How Madder compresses a page (17 R328): the length in bytes of the compressed page, which a program never
sees but for the room it takes in the tier (10 R270). Log entry 19. -/
opaque compressedSize (bytes : List (BitVec 8)) : Nat

end Sys2Proof.Config
end

