-- ==== Sys2Proof/Machine/VOp.lean ====
section
/-! DEFINITION. VOp: a queued vector word as plain data, with its operands and without its C and S. A context
holds words in its vector queues (07 R167, 18 R342), so State needs this type. -/

namespace Sys2Proof.Machine

/-- The integer operations of majors 0x18 and 0x1F (09 R212). -/
inductive VInt where
  | add | sub | mul | mulh | min | max | and | or | xor | andn | sll | srl | sra | adds | subs | avg
  | abs | clz | ffs | popc
deriving DecidableEq, Repr

/-- The FP operations of majors 0x19 and 0x20 (09 R213, R215). -/
inductive VFp where
  | add | sub | mul | mac | nmac | min | max | abs | neg | div | sqrt | recip | exp2 | log2 | fclass
deriving DecidableEq, Repr

/-- The reductions of major 0x1C (09 R229). -/
inductive VRed where
  | sum | max | min | and | or | xor
deriving DecidableEq, Repr

/-- The operations of majors 0x21 and 0x22 (09 R217). -/
inductive VOff where
  | mov | add | sub | mac
deriving DecidableEq, Repr

/-- The mask operations of major 0x28 that write a mask (09 R231). -/
inductive VMaskFn where
  | and | or | xor | not
deriving DecidableEq, Repr

/-- The paths of the strided words (10 R240). -/
inductive VPath where
  | space | lane | cross
deriving DecidableEq, Repr

/-- A vector word (07 R167): what the sequencer performs. Field names follow 07 R159. -/
inductive VOp where
  | int (f : VInt) (d a b : Fin 32)
  | intVs (f : VInt) (d a x : Fin 32)
  | fp (f : VFp) (d a b : Fin 32)
  | fpVs (f : VFp) (d a x : Fin 32)
  | cmp (o : Cond) (m : Fin 8) (a b : Fin 32)
  | fcmp (o : Cond) (m : Fin 8) (a b : Fin 32)
  | tbl (d a : Fin 32) (h : Bool) (n : Fin 8) (fill : BitVec 8)
  | slup (d a x : Fin 32)
  | sldn (d a x : Fin 32)
  | comp (d a : Fin 32)
  | exp (d a : Fin 32)
  | trn (d a : Fin 32) (p : Pair)
  | iota (d : Fin 32)
  | sel (d a b : Fin 32)
  | dup (d a x : Fin 32)
  | red (f : VRed) (d a : Fin 32)
  | scan (d a : Fin 32)
  | cvt (d a : Fin 32) (t : Fmt)
  | amul (d a b : Fin 32)
  | amac (d a b : Fin 32)
  | aconj (d a : Fin 32)
  | anorm (d a : Fin 32)
  | ald (j : Fin 8) (x : Fin 32)
  | scac (d a : Fin 32) (k : Fin 4)
  | off (float : Bool) (f : VOff) (d a b : Fin 32) (dx dy dz : Off)
  | ld (p : VPath) (b x i : Fin 32)
  | st (p : VPath) (b x i : Fin 32)
  | ldi (b x i : Fin 32)
  | sti (b x i : Fin 32)
  | stia (b x i : Fin 32)
  | lda (b x i : Fin 32)
  | gathb (b x i : Fin 32) (m : Fin 8)
  | mask (f : VMaskFn) (d a b : Fin 8)
  | mpopc (x : Fin 32) (m : Fin 8)
  | mffs (x : Fin 32) (m : Fin 8)
  | mset (m : Fin 8) (a b : Fin 32)
  | mget (x : Fin 32) (m : Fin 8) (b : Fin 32)
  | splat (d x : Fin 32)
  | ext (x b i : Fin 32)
  | ins (d a x : Fin 32)
  | setl (x a : Fin 32)
  | setb (x a : Fin 32)
  | nbset (b x y : Fin 32)
  | nbget (x y b : Fin 32)
  | waitv (m : Fin 8) (a b x : Fin 32)
  | scld (k : Fin 4) (a b : Fin 32)
deriving DecidableEq, Repr

/-- WAITV, after which nothing issues (10 R248); not while the vector side is frozen. -/
def VOp.holdsIssue : VOp → Bool
  | .waitv .. => true
  | _ => false

end Sys2Proof.Machine
end

