-- ==== Sys2Proof/Machine/State.lean ====
section
/-! DEFINITION. State: everything the manual gives the part, as plain data, and the state after reset. Tables
are sparse: an entry that is not listed holds the reset value of its kind (`Table`). -/

namespace Sys2Proof.Machine

/-- Entries by number, strictly rising; what an unlisted number holds is said by each reader. -/
abbrev Table (α : Type) := List (Nat × α)

/-- The causal clock C[0..3], and any vector of one number per die (05 R118, R119). -/
structure Clock where
  c0 : Nat := 0
  c1 : Nat := 0
  c2 : Nat := 0
  c3 : Nat := 0
deriving DecidableEq, Repr

/-- Eight dwords: a task record (02 R27), a fault record (18 R331), a launch descriptor (16 R298). -/
structure Rec8 where
  d0 : Word := 0
  d1 : Word := 0
  d2 : Word := 0
  d3 : Word := 0
  d4 : Word := 0
  d5 : Word := 0
  d6 : Word := 0
  d7 : Word := 0
deriving DecidableEq, Repr

/-- Privilege levels (15 R275): U 00, S 01, M 11. -/
inductive Level where
  | u | s | m
deriving DecidableEq, Repr

/-- The RW user control registers of 03 R58, with the reset values of R61 to R63. -/
structure Ctrl where
  vl : Word := 0x200
  vm : Word := 0
  vs : Word := 0x0001000001000001
  vt : Word := 9
  vmt : Word := 0
  vf : Word := 0
  seed : Word := 0
  dchk : Word := 0
  bsw : Word := 0
  slipd : Word := 16
  opri : Word := 0
  msh : Word := 0x808080
  mft : Word := 0x2529
  csh : Word := 0x0000000100000001
  cst : Word := 0
  ctm : Word := 0
deriving DecidableEq, Repr

/-- The system registers of context scope (15 R277, R278). -/
structure Sys where
  cpl : Level := .u
  ppl : Level := .u
  mppl : Level := .u
  epc : Word := 0
  ecause : Word := 0
  frec : Rec8 := {}
  ssa : Word := 0
  ssb : Word := 0
  csa : Word := 0
  mepc : Word := 0
  mcause : Word := 0
  mfrec : Rec8 := {}
deriving DecidableEq, Repr

/-- Where a byte lies: in the physical map, or in a shadowed buffer whose backing is chosen when the access is
served (17 R322). -/
inductive Loc where
  | phys (pa : Nat)
  | buf (part idx off : Nat)
deriving DecidableEq, Repr

/-- The eight operations of an atomic that always write (08 R191), the compare-and-swap, and the FP addition of
VSTIA (10 R244). -/
inductive Rmw where
  | add | and | or | xor | min | max | minn | maxn | swap | cas
  | fadd (fmt : Fmt) (vt : Word) (lane : Nat)
deriving DecidableEq, Repr

/-- Who made a write that has no number of its own yet (05 R116, R129). -/
inductive Tag where
  | none
  | loose (ctx : Nat)
  | op (core slot gen : Nat)
deriving DecidableEq, Repr

/-- One value a byte has held: when it was applied, the die and number of its write, and the clock it carries
(05 R117 to R120). `num = 0` says that the write has no number. -/
structure Ver where
  val : Byte
  time : Nat
  die : Fin 4 := 0
  num : Nat := 0
  clock : Clock := {}
  tag : Tag := .none
deriving DecidableEq, Repr

/-- One element of a write in flight, or a byte of an unaligned one: where it goes, the bytes it writes (for an atomic, its operand),
whether it is a nibble (10 R237) or an atomic update, and the number of its element. -/
structure WPart where
  locs : List Loc
  bytes : List Byte
  nibble : Option Nat := none
  rmw : Option Rmw := none
  elem : Nat := 0
deriving DecidableEq, Repr

/-- A numbered write that is not yet acknowledged (05 R117): its parts are those not yet applied; `growing` says
that a vector store has groups still to perform; `id` is its place among the counted stores of its context (02
R33), or 640 and an order for a write of the device. -/
structure Write where
  die : Fin 4
  num : Nat
  clock : Clock
  ctx : Nat
  parts : List WPart
  growing : Bool := false
  id : Nat := 0
deriving DecidableEq, Repr

/-- A FENCE whose earlier accesses are not all performed (05 R126, R127): `icnt` and `wic` part the thread's earlier loads and
counted stores from its later ones, `order` its child operations. `handler` says that it was issued with the vector side
frozen, whose words it leaves out (log entry 27); `numbered` that kind loose has given the earlier loose writes their number;
`done` that what the scope covers is performed. -/
structure Fence where
  kind : FenceKind
  scope : FenceScope
  icnt : Word
  wic : Nat
  order : Nat
  handler : Bool := false
  numbered : Bool := false
  done : Bool := false
deriving DecidableEq, Repr

/-- The moments before which a reader obtains nothing (05 R120, R126, R127): for any byte, for those of its core's window, for
those homed on its die, and byte by byte what it has read or made. -/
structure Bounds where
  all : Nat := 0
  core : Nat := 0
  die : Nat := 0
  seen : Table Nat := []
deriving DecidableEq, Repr

/-- A loose write not yet applied (05 R116), with the icnt of its word. -/
structure Loose where
  part : WPart
  icnt : Word
deriving DecidableEq, Repr

/-- A result whose fixed latency has not elapsed (07 R164 to R166): the register (0..31 a scalar register, 64 + r
control register r, 128 + r system register r), the old value, the producer's position, the position at which
the new value is certain, and the producer's address. -/
structure Shadow where
  reg : Nat
  old : Word
  pos : Nat
  due : Nat
  addr : Word
deriving DecidableEq, Repr

/-- The control registers a vector word captures (07 R163). -/
structure VCtl where
  vl : Word
  vm : Word
  vs : Word
  vt : Word
  vmt : Word
  vf : Word
  seed : Word
deriving DecidableEq, Repr

/-- The queue of a vector word (07 R167). -/
inductive VQ where
  | load | arith | store
deriving DecidableEq, Repr

/-- One group of a REMOTE read, once served (03 R78). -/
structure Served where
  ctx : Nat
  reg : Nat
  group : Nat
  data : BitVec 2048
deriving DecidableEq, Repr

/-- Where an offset read finds an element (03 R73): the fill value, an element of a register of a context, or an
element of a brick image in the scratchpad of a core. -/
inductive Src where
  | fill
  | reg (ctx reg elem : Nat)
  | spill (core off elem : Nat)
deriving DecidableEq, Repr

/-- A queued vector word (07 R163, 18 R342). `s` is its stall count, `cv` says that the next entry is of the
same convoy, `prog` counts the groups it has processed, `olds` holds what each group of its destination held
before it wrote it (07 R175). `resumed` says that it started before a stop (18 R336). `act` holds the activity fixed at its start (R172), `res` its resolved links (03
R74), `locs` the locations its probe found (17 R321). A store's `stores` is its place among the counted stores of its
context (02 R33), and `numbered` says that it has taken its number (05 R117); `wic` is the count of counted stores
before it. `late` says that an earlier word of its convoy writes the mask or the indices that its accesses hang on (R173). `since` is
the moment of the thread's last FENCE or acquire before it, for a loose read (05 R116, 13 R274). -/
structure VEntry where
  op : VOp
  s : Fin 4
  cv : Bool
  addr : Word
  q : VQ
  xa : Word
  xb : Word
  xi : Word
  ctl : VCtl
  icnt : Word
  clock : Clock
  level : Level
  started : Bool := false
  prog : Nat := 0
  slip : Bool := false
  resumed : Bool := false
  act : BitVec 4096 := 0
  res : Table Src := []
  olds : Table (BitVec 2048) := []
  served : List Served := []
  locs : Table (List Loc) := []
  stores : Nat := 0
  numbered : Bool := false
  wic : Nat := 0
  late : Bool := false
  since : Nat := 0
deriving DecidableEq, Repr

/-- A group that VLDA or GATHB has still to land (03 R76): the captured word, its resolved locations, and its
place in issue order. `after` are words of density time that have passed the group over and zero it once it has landed (03
R67), `got` what the word has fetched for elements with the same locations (10 R246). -/
structure Landing where
  reg : Nat
  group : Nat
  entry : VEntry
  after : List VEntry := []
  got : List (List Loc × Nat) := []
deriving DecidableEq, Repr

/-- What a met flag of WAITV read (10 R248). -/
structure Flag where
  elem : Nat
  va : Word
  expect : Word
  met : Bool
  acq : Clock
deriving DecidableEq, Repr

/-- The widths and extension of a scalar access (08 R189). -/
structure Acc where
  size : Nat
  zext : Bool
deriving DecidableEq, Repr

/-- A pushed record on its way (08 R197): the record, its stamp (02 R33) and its clock (R34). -/
structure QEntry where
  r : Rec8
  prod : Nat
  wic : Nat
  clock : Clock
  lent : Option (Nat × Nat) := none
  eff : Nat := 0
deriving DecidableEq, Repr

/-- A scalar load that its thread has gone past (07 R163, R165): the register it writes, the access, and the address of its word. -/
structure Deferred where
  dst : Fin 32
  acc : Acc
  va : Word
  locs : List Loc
  addr : Word
deriving DecidableEq, Repr

/-- What a thread waits for (02 R52), with the operands its word captured. The wait word stands at pc and is
re-issued on resume (18 R338). -/
inductive Wait where
  /-- a load, LDAQ, or the read of an atomic whose bytes are resolved (05 R120, R122). -/
  | read (dst : Fin 32) (acc : Acc) (va : Word) (locs : List Loc) (acq : Bool)
  | amo (dst : Fin 32) (f : Rmw) (size : Nat) (va : Word) (locs : List Loc) (v old : Word) (acq rel : Bool)
  /-- a release store (05 R125). -/
  | release (size : Nat) (locs : List Loc) (v : Word)
  /-- a scalar store held back by R170. -/
  | store (size : Nat) (locs : List Loc) (v : Word)
  | token (dst : Fin 32) (core slot gen : Nat) (timeout : Word)
  | any (dst : Fin 32) (mask timeout : Word)
  | all (dst : Fin 32) (mask timeout : Word)
  | ffr (dst : Fin 32) (mask timeout : Word)
  | chunks (dst : Fin 32) (first count : Nat) (timeout : Word)
  | flags (m : Fin 8) (fs : List Flag) (ctl : VCtl) (icnt : Word) (timeout : Word)
  | pop
  | tryPop (dst : Fin 32)
  | pwait (dst : Fin 32)
  | endTask
  | join (dst : Fin 32) (a : Word)
  /-- the status of a push to another core (20 R364), by the number of its record. -/
  | push (dst : Fin 32) (id : Nat)
  | launch (dst : Fin 32) (a b : Word)
  /-- vector queues are full (07 R167). -/
  | queue (full : List VQ)
  /-- the VL that a queued VCOMP writes (09 R223), or the table a queued ALD loads (09 R234). -/
  | vl
  | ald
  | stall
  /-- a brick or mask that an engine word reads has still to be written (10 R249). -/
  | bricks
  /-- no token slot is free (02 R44). -/
  | slot
  /-- a system word whose reads of memory may not be served yet, or which has still to wait (15 R287): it is issued again. -/
  | retry
  | claim (dst : Fin 32)
  | tret
  | tlbi (dst : Fin 32) (kind : Nat) (va : Word)
  | ctxsv (dst : Fin 32) (target uid pa : Nat)
  | halt (dst : Fin 32) (core : Nat)
  | park (dst : Fin 32) (p : Nat)
deriving DecidableEq, Repr

/-- The thread resident on a context: its record as delivered (02 R29), its partition, launch and job, and a number
that no other thread has. -/
structure Thread where
  r : Rec8
  part : Nat
  lid : Nat
  job : Nat
  uid : Nat
deriving DecidableEq, Repr

/-- Why a thread is to be saved (18 R338), with the area its image goes to: for PARK, for the dispatcher (`pool`, an area of the
pre-emption pool by its number, with the launch whose block takes the context), or for a context that waits in CTXSV. -/
structure SaveReq where
  pa : Nat := 0
  park : Bool := false
  pool : Option Nat := none
  next : Option Nat := none
  by_ : Option Nat := none
deriving DecidableEq, Repr

/-- One of the 640 contexts (03 R54, 18 R340). `fences` are its FENCEs that are not complete (05 R126); `vclock` joins the clocks
that its queued words have obtained (R121); `reads` are the loads that it has gone past (R116). -/
structure Ctx where
  x : Table Word := []
  pc : Word := 0
  b : Table (BitVec 16384) := []
  m : Table (BitVec 4096) := []
  k : Table (BitVec 4096) := []
  landed : Table (BitVec 8) := []
  links : Table (Word × Word) := []
  ctrl : Ctrl := {}
  wic : Nat := 0
  wdc : Nat := 0
  tabs : Table (BitVec 576) := []
  flags : Table (BitVec 7) := []
  icnt : Word := 0
  clock : Clock := {}
  sys : Sys := {}
  thread : Option Thread := none
  prev : Option (Nat × Nat) := none
  wait : Option Wait := none
  ws : Fin 4 := 0
  waited : Word := 0
  sptr : Nat := 63
  vq : List VEntry := []
  opened : List VEntry := []
  vstep : Nat := 0
  landing : List Landing := []
  shadow : List Shadow := []
  pos : Nat := 0
  loose : List Loose := []
  looseFrom : Nat := 0
  readFrom : Nat := 0
  readFromCore : Nat := 0
  readFromDie : Nat := 0
  seen : Table Nat := []
  looseSeen : Table Nat := []
  fences : List Fence := []
  vclock : Clock := {}
  reads : List Deferred := []
  holds : Bool := false
  saving : Option SaveReq := none
  claims : List VEntry := []
  mclaims : List VEntry := []
  yielded : Bool := false
  ended : Bool := false
deriving DecidableEq, Repr

/-- The kinds of child operation (18 R332). -/
inductive OpKind where
  | copy | copyf | copym | grows | publish | mma | mmas | mclr | mrd | train
  | cred (f : VRed) | cgat | cbc | cbar | migrOut | migrIn
deriving DecidableEq, Repr

/-- The states of a token slot (02 R40). -/
inductive SlotState where
  | free | waiting | running | done | faulted | cancelled | parked | orphaned
deriving DecidableEq, Repr

/-- What an address of an operation reaches (10 R252): a location, another module, a refusal with its fault code, a link that
does not stand (18 R347), or a page in a move, which it waits for (R271). -/
inductive Reach where
  | here (l : Loc)
  | there (mod pa : Nat)
  | bad (code : Nat)
  | broken (link : Nat)
  | later
deriving DecidableEq, Repr

/-- A byte that a step of an operation writes: its operand offset, its value, its address and what that reaches. -/
structure Xfer where
  off : Nat
  val : Byte
  addr : Word
  dst : Reach
deriving DecidableEq, Repr

/-- A cached translation (17 R320): its partition, the first virtual address, the size, and the leaf; or for a page of a
shadowed buffer the buffer's index (R322), with `shadow`. -/
structure Tlb where
  part : Nat
  base : Nat
  size : Nat
  pte : Word
  shadow : Bool := false
deriving DecidableEq, Repr

/-- What an engine word captured at issue (10 R249), with what its steps have done so far. -/
structure EngOp where
  kind : OpKind := .copy
  ctx : Nat := 0
  iaddr : Word := 0
  xa : Word := 0
  xb : Word := 0
  xa1 : Word := 0
  xb1 : Word := 0
  csh : Word := 0
  cst : Word := 0
  msh : Word := 0
  mft : Word := 0
  ctm : Word := 0
  ctl : VCtl := ⟨0, 0, 0, 0, 0, 0, 0⟩
  mask : BitVec 4096 := 0
  table : BitVec 576 := 0
  brickA : BitVec 16384 := 0
  brickB : BitVec 16384 := 0
  level : Level := .u
  part : Nat := 0
  lid : Nat := 0
  job : Nat := 0
  clock : Clock := {}
  bounds : Bounds := {}
  /-- that it writes another module, as far as the engine knows (05 R127). -/
  leaves : Bool := false
  wic : Nat := 0
  /-- stores that stood frozen when the word issued, for which it does not wait (15 R281, log entry 27). -/
  skip : List Nat := []
  /-- the predecessor's token (02 R45), and the issuing thread's number; `order` is the place in issue order. -/
  pred : Option Word := none
  uid : Nat := 0
  order : Nat := 0
  /-- how the predecessor ended, once it has, with the code of its record and its clock; and D0 of the record. -/
  predOut : Option (SlotState × Nat × Clock) := none
  predD0 : Word := 0
  /-- a collective: a member whose operation was cancelled or faulted (10 R266). -/
  failedBy : Option Nat := none
  /-- the chunks the operation writes (10 R253), as 6,144 · core + chunk, each with a step that writes to it. -/
  chunks : List (Nat × Nat) := []
  /-- the translations that the step in progress has made (17 R321). -/
  kept : List Tlb := []
  /-- rows that are complete (10 R256), the elements of trains that are applied on this module, or the step of a collective that its
  member has begun. -/
  rows : List Nat := []
  /-- by step, the bytes still to be written of a step of which a part is written (02 R47, 05 R130); and the operand offsets
  written before their step, with a unit of 8 bytes that an earlier step shares. -/
  held : Table (List Xfer) := []
  ahead : List Nat := []
  /-- writes to another module that are not acknowledged (05 R137), and that the data of the step in progress is all written. -/
  unacked : Nat := 0
  awaiting : Bool := false
  /-- the team of a train or collective (10 R265), read when the operation starts; its place among the operations of
  the team's TAG that its member has issued; the place, with its TAG and its member, that it was given before it started; and that every
  member has been seen to have joined. -/
  team : List Word := []
  seq : Nat := 0
  placed : Option (Word × Nat × Nat) := none
  met : Bool := false
  /-- trains: the destination of each active element, a home die 0..3 of this module, 4 + a member, or 2000 + a module whose page this
  module's tables name (17 R319); destinations applied
  and not yet acknowledged, with the numbers their dies must know (05 R137); those acknowledged; and the members that refused. -/
  dests : List (Nat × Nat) := []
  sent : List (Nat × Clock) := []
  acked : List Nat := []
  nacks : List Nat := []
  /-- that a later part has begun: the matrix command is accepted (10 R263), the data of COPYF's last step is written and
  its flag is not (R254), a page has moved and its barrier add has not been made (R272). `buf` holds what a collective has
  read of its source, `pool` what it will write, by operand offset, and `took` how many bytes of each member it has taken. -/
  started : Bool := false
  buf : List Byte := []
  pool : List (Nat × Byte) := []
  took : Nat := 0
  /-- the page in the move: its leaf, the leaf's address and level, and its frame or 0; and the tier space reserved for it. -/
  page : Option (Word × Nat × Nat × Nat) := none
  place : Option (Nat × Nat) := none
  /-- the shadowed buffers it has written (05 R135). -/
  wrote : List Nat := []
deriving DecidableEq, Repr

/-- One of the 64 token slots of a core (02 R39, R40). -/
structure Slot where
  st : SlotState := .free
  gen : Nat := 1
  pri : Nat := 0
  owner : Option Nat := none
  detached : Bool := false
  /-- that TADOPT has counted it in its adopter's launch (02 R46). -/
  adopted : Bool := false
  saved : Bool := false
  prog : Nat := 0
  frec : Rec8 := {}
  clock : Clock := {}
  eff : Nat := 0
  left : SlotState := .waiting
  op : EngOp := {}
deriving DecidableEq, Repr

/-- The steal a core has under way as a thief (16 R310, R311). -/
inductive Steal where
  | ask (victim : Nat)
  | copy (victim seq : Nat) (e : QEntry)
  | none (victim : Nat)
  | acked (victim seq ctx : Nat) (e : QEntry)
  | accepted (victim seq ctx : Nat) (e : QEntry)
  | refused
deriving DecidableEq, Repr

/-- One of the 160 cores (01 R14). `setters` names the operation that set each chunk-map bit (05 R132). -/
structure Core where
  slots : Table Slot := []
  queue : List QEntry := []
  ring : List QEntry := []
  joinBuf : List QEntry := []
  lendSeq : Nat := 0
  steal : Option Steal := none
  chunks : BitVec 6144 := BitVec.allOnes 6144
  setters : Table Tag := []
  acc : Table (BitVec 256) := []
  holder : Option (Nat × Nat) := none
  holderJob : Nat := 0
  tlb : List Tlb := []
  seqs : Table Nat := []
  halted : Bool := true
  halting : Bool := false
  stopped : Bool := false
  stopRec : Rec8 := {}
  scrub : Nat := 0
deriving DecidableEq, Repr

/-- The state of a gang launch at its initiator, and of a member's copy (16 R313, R314). -/
structure Gang where
  members : List Nat := []
  acked : List Nat := []
  finished : List Nat := []
  failed : Option Nat := none
  initiator : Bool := false
  home : Nat := 0
  anyCancelled : Bool := false
deriving DecidableEq, Repr

/-- One launch of a partition (16 R298 to R303, 02 R36). `stat` is 0 until it is terminal; `pred` is the
predecessor's id and `predStat` its STAT (02 R50); `moment` is when it was made (05 R113). -/
structure Launch where
  desc : Rec8 := {}
  windows : List Word := []
  level : Level := .u
  queue : Nat := 0
  job : Nat := 0
  gx : Nat := 0
  gy : Nat := 0
  gz : Nat := 0
  made : Nat := 0
  counter : Nat := 0
  stat : Nat := 0
  cancelled : Bool := false
  early : Bool := false
  pred : Option Nat := none
  predStat : Nat := 0
  predClock : Clock := {}
  clock : Clock := {}
  moment : Nat := 0
  stores : Clock := {}
  eff : Nat := 0
  gang : Option Gang := none
  done : Bool := false
deriving DecidableEq, Repr

/-- A graph or a phase of a job that exists (16 R301): its job, its id, its phase, whether the last launch has
been made in it, and whether a cancel has reached it. -/
structure Group where
  job : Nat
  id : Nat
  phase : Nat
  last : Bool
deriving DecidableEq, Repr

/-- A saved thread image the device knows of (02 R37, 15 R288); `words` are its queued words, of which the image in
memory holds what 18 R342 lists, `claims` and `mclaims` those in its claim area, `held` the slots held for it, with their
cores, `fences` its FENCEs, and `clock` the clock it was saved with. -/
structure Image where
  pa : Nat
  ctx : Nat
  lid : Nat
  pool : Option Nat
  park : Bool
  holds : Bool
  eff : Nat
  uid : Nat
  words : List VEntry := []
  held : List (Nat × Nat) := []
  claims : List VEntry := []
  mclaims : List VEntry := []
  fences : List Fence := []
  clock : Clock := {}
deriving DecidableEq, Repr

/-- An entry of the buffer table (15 R286). -/
structure Buf where
  vbase : Nat
  size : Nat
  pa : Nat
  pb : Nat
  vis : Bool := false
  void : Bool := false
deriving DecidableEq, Repr

/-- A page Madder stored in the tier (17 R328): where, its size, its bytes, compressed with no loss, and the last writes
of them. -/
structure TierPage where
  ta : Nat
  size : Nat
  bytes : List Host.Cell
  last : Table Ver := []
  space : Nat
  sound : Bool := true
deriving DecidableEq, Repr

/-- One of the 40 partitions: the composition, the registers of partition scope and the blocks of Book Two. `tierHeld` is the tier
space that moves in flight have reserved (17 R328); `drained` that the count of a park has ended (18 R343);
`lastEnds` holds by queue the STAT of its last launch, once that is complete, with the clock of its stores (02 R50). -/
structure Part where
  qmask : BitVec 40 := 0
  composed : Bool := false
  tvec : Word := 0
  ttb : Word := 0
  lqopen : Word := 0
  qctl : Table (BitVec 8) := []
  ppb : Word := 0
  ppc : Word := 0
  ring0 : Table Word := []
  ring1 : Table Word := []
  qjob : Table (BitVec 32) := []
  launches : Table Launch := []
  nextId : Nat := 1
  lastInQueue : Table Nat := []
  lastEnds : Table (Nat × Clock) := []
  closedJobs : List Nat := []
  graphs : List Group := []
  phases : List Group := []
  images : List Image := []
  bufs : Table Buf := []
  tierb : Word := 0
  tiers : Word := 0
  fsb : Table Word := []
  fsn : Table Word := []
  reserved : Table Nat := []
  joins : List (Word × Nat × Nat) := []
  tier : List TierPage := []
  tierHeld : List (Nat × Nat) := []
  carveb : Word := 0
  carves : Word := 0
  hlw : Word := 0
  stopped : Bool := false
  parked : Bool := false
  parking : Bool := false
  drained : Bool := false
  errStop : Bool := false
  lastServed : Table Nat := []
deriving DecidableEq, Repr

/-- An answer the part has given the outside: a host completion (19 R351), a report of Woad (R360, R361), fabric
traffic and gang messages (16 R313), and the acknowledgements and requests for replay of a link's receiver (R348). -/
inductive Msg where
  | completion (tag status : Nat) (data : List Byte)
  | status (bytes : List Byte)
  | report (bytes : List Byte) (rsa : BitVec 3072) (slh : BitVec 238336)
  | fabric (port status : Nat) (data : List Byte)
  | gangLaunch (part queue member : Nat) (desc : List Word)
  | gangAck (part queue member : Nat) (ok : Bool)
  | gangCancel (part lid member : Nat)
  | gangReport (part lid member : Nat) (cancelled : Bool)
  | train (member : Nat) (elems : List (Nat × List Byte))
  | remoteWrite (mod pa : Nat) (bytes : List Byte)
  | acknowledge (link seq : Nat)
  | replay (link seq : Nat)
deriving DecidableEq, Repr

/-- A flit in the replay buffer of a link: its number, how often it has been replayed, and the message it carries (19 R348). -/
structure Flit where
  seq : Nat
  times : Nat
  msg : Msg
deriving DecidableEq, Repr

/-- A link: six die-to-die (0..5), sixteen fabric ports (16..31), Dorog Link (32), by 18 R330 and 19 R348. `waiting` holds the messages
for which the replay buffer has no room, `asks` counts the replays asked for since the last flit was delivered, and `early` holds the
flits that have come before their turn (R350). -/
structure Link where
  next : Nat := 0
  held : List Flit := []
  waiting : List Msg := []
  expect : Nat := 0
  replayAsked : Option Nat := none
  asks : Nat := 0
  failed : Bool := false
  up : Bool := false
  peer : Nat := 0
  early : List (List Byte) := []
deriving DecidableEq, Repr

/-- A record on its way to another core (08 R197), with a number that no other has; `gone` says that a cancel has discarded it (02 R37), though its pusher has still
to receive the status. -/
structure Travel where
  ctx : Nat
  dst : Fin 32
  core : Nat
  e : QEntry
  id : Nat := 0
  gone : Bool := false
deriving DecidableEq, Repr

/-- The states of bring-up (19 R356). -/
inductive Boot where
  | rom | load | verify | selftest | config | run | safe
deriving DecidableEq, Repr

/-- A move of the part: the issue of a context, that of a load which the context goes past before it is performed (05 R116, log entry
96), an event of the opcode table, the report of an error that the error-correcting
code of a core's storage has corrected, found by a read or by scrubbing (18 R345, R346; `loc` the register or 0, `va` the offset
in the window), the arrival of 256 bytes over a link (19 R349, R350), or that of a train of another module with the count of its tail (05
R137). Log entries 1, 92, 93 and 40. -/
inductive Move where
  | issue (ctx : Nat)
  | defer (ctx : Nat)
  | event (i : Instr)
  | corrected (core loc : Nat) (va : Word)
  | flit (link : Nat) (bytes : List Byte)
  | train (port part : Nat) (elems : List (Nat × List Byte)) (count : Nat)
deriving DecidableEq, Repr

/-- The power block's islands and Woad's own limit (19 R363). -/
structure Power where
  opp : Table (BitVec 8) := []
  asked : Table (BitVec 8) := []
  effect : Table (BitVec 8) := []
  limit : Nat := 0
deriving DecidableEq, Repr

/-- Woad: bring-up, the firmware and fuses, telemetry, SAFE's report (19 R356 to R361). `own` numbers the records of which Woad itself is
the source (18 R333). -/
structure Woad where
  boot : Boot := .rom
  image : List Byte := []
  loaded : List Byte := []
  rsaKeyDigest : BitVec 384 := 0
  slhKeyDigest : BitVec 384 := 0
  rsaKey : List Byte := []
  slhKey : List Byte := []
  identity : List Byte := []
  minVersion : BitVec 32 := 0
  romOk : Bool := true
  repairFails : List Nat := []
  laneFails : List Nat := []
  arrayFails : List Nat := []
  marchFails : List Nat := []
  channelFails : List (Nat × Nat) := []
  scrubFails : List Nat := []
  linkFails : List Nat := []
  failStep : Nat := 0
  unit : BitVec 8 := 0
  index : Nat := 0
  detail : BitVec 16 := 0
  telemetry : List Rec8 := []
  seq : Nat := 0
  own : Nat := 0
deriving DecidableEq, Repr

/-- The whole module. `badCells` names storage with an uncorrectable error (18 R345): (0, d, _, _) dword d of the window region,
(1, c, b, g) group g of a brick of context c, (2, c, m, g) of a mask, (3, c, k, _) a scale register, (4, c, x, _) a scalar
register, (5, c, b, _) the landed bits of a brick, (6, c, b, _) its links. `cuts` holds ranges (base, length, moment) of which no die held a read copy at the moment (05 R133, R134). `fabric` holds the
writes of other modules that have still to be acknowledged (R137): the port, and the numbers that every die must know. -/
structure State where
  ctxs : Table Ctx := []
  cores : Table Core := []
  parts : Table Part := []
  mem : List Host.Cell := []
  hist : Table (List Ver) := []
  cuts : List (Nat × Nat × Nat) := []
  parity : List Host.Cell := []
  deadChannels : List (Nat × Nat) := []
  badLines : List (Nat × Nat) := []
  badCells : List (Nat × Nat × Nat × Nat) := []
  issued : Clock := {}
  known : Table Clock := []
  writes : List Write := []
  travel : List Travel := []
  fabric : List (Nat × Clock) := []
  mvec : Word := 0
  gang : BitVec 32 := 0
  modNum : BitVec 10 := 0
  routes : Table (BitVec 4) := []
  links : Table Link := []
  power : Power := {}
  woad : Woad := {}
  out : List Msg := []
  agenda : List Move := []
  cur : Nat := 0
  background : Bool := false
  tick : Nat := 0
  time : Nat := 0
  nextOrder : Nat := 1
  prompt : Bool := false
deriving DecidableEq, Repr

/-- Why the machine stops: there is no reason. Every condition the manual names is a trap, a record or a state of the
machine, and no step ends in a fault. -/
inductive Fault where
deriving DecidableEq, Repr

/-- Why an instruction has no meaning. -/
inductive Refusal where
  /-- Raised by an arm of `exec` that has no meaning yet. Safe: nothing is claimed of the instruction. -/
  | notModelled (mnemonic : String)
deriving DecidableEq, Repr

/-- The machine after power-on, before Woad's ROM runs (19 R356): nothing is listed, so every register and every
byte holds its reset value; bring-up stands in ROM. -/
def State.reset : State := {}

end Sys2Proof.Machine
end

