-- ==== Sys2Proof/Machine/Tables.lean ====
section
/-! DEFINITION. Tables: sparse tables, bit fields, sign extension and byte order (00 R3, R4). -/

namespace Sys2Proof.Machine

/-- The entry of number n, or d. -/
def tget {α : Type} (d : α) : Table α → Nat → α
  | [], _ => d
  | (k, v) :: t, n => if k = n then v else tget d t n

/-- The table with entry n holding v; the order of the numbers stays rising. -/
def tput {α : Type} : Table α → Nat → α → Table α
  | [], n, v => [(n, v)]
  | (k, w) :: t, n, v =>
    if n < k then (n, v) :: (k, w) :: t
    else if n = k then (k, v) :: t
    else (k, w) :: tput t n v

/-- The table without entry n. -/
def tdel {α : Type} : Table α → Nat → Table α
  | [], _ => []
  | (k, w) :: t, n => if k = n then tdel t n else (k, w) :: tdel t n

/-- The table with entry n holding v, and nothing listed that holds the default d: equal contents are equal
tables. -/
def tset {α : Type} [DecidableEq α] (d : α) (t : Table α) (n : Nat) (v : α) : Table α :=
  if v = d then tdel t n else tput t n v

/-- Whether entry n is listed. -/
def thas {α : Type} (t : Table α) (n : Nat) : Bool := t.any (·.1 == n)

/-- The canonical form: numbers strictly rising. -/
def tsorted {α : Type} : Table α → Bool
  | [] => true
  | [_] => true
  | (a, _) :: (b, w) :: t => a < b && tsorted ((b, w) :: t)

/-- The canonical form of a table whose unlisted entries hold d. -/
def twf {α : Type} [DecidableEq α] (d : α) (t : Table α) : Bool := tsorted t && t.all (fun e => e.2 ≠ d)

/-- The field of n bits of a dword that begins at bit lo (00 R3). -/
def fldW (w : Word) (lo n : Nat) : Nat := fld w.toNat lo n

/-- One bit of a dword. -/
def bitW (w : Word) (i : Nat) : Bool := w.getLsbD i

/-- The dword with the field of n bits at lo replaced. -/
def setFld (w : Word) (lo n v : Nat) : Word :=
  BitVec.ofNat 64 (w.toNat - fld w.toNat lo n * 2 ^ lo + v % 2 ^ n * 2 ^ lo)

/-- A dword of 64 bits from a number, modulo 2^64. -/
def word (n : Nat) : Word := BitVec.ofNat 64 n

/-- The n-bit value v, read as two's complement. -/
def sint (n v : Nat) : Int := if 2 * (v % 2 ^ n) < 2 ^ n then ((v % 2 ^ n : Nat) : Int) else ((v % 2 ^ n : Nat) : Int) - 2 ^ n

/-- sext(v, n) of 08 R180. -/
def sextW (v n : Nat) : Word := BitVec.ofInt 64 (sint n v)

/-- The number that bytes hold, little-endian (00 R3). -/
def leNat : List Byte → Nat
  | [] => 0
  | b :: t => b.toNat + 256 * leNat t

/-- The n bytes of a number, little-endian (00 R3). -/
def leBytes : Nat → Nat → List Byte
  | 0, _ => []
  | n + 1, v => BitVec.ofNat 8 v :: leBytes n (v / 256)

/-- The numbers lo, lo + 1, … (n of them). -/
def span (lo n : Nat) : List Nat := (List.range n).map (lo + ·)

/-- Dword i of eight, and the eight with dword i replaced. -/
def Rec8.dw (r : Rec8) (i : Nat) : Word :=
  match i with
  | 0 => r.d0 | 1 => r.d1 | 2 => r.d2 | 3 => r.d3 | 4 => r.d4 | 5 => r.d5 | 6 => r.d6 | _ => r.d7

/-- The eight dwords as a list, in order. -/
def Rec8.list (r : Rec8) : List Word := [r.d0, r.d1, r.d2, r.d3, r.d4, r.d5, r.d6, r.d7]

/-- Eight dwords from a list; missing ones are 0. -/
def Rec8.ofList (l : List Word) : Rec8 :=
  ⟨l.getD 0 0, l.getD 1 0, l.getD 2 0, l.getD 3 0, l.getD 4 0, l.getD 5 0, l.getD 6 0, l.getD 7 0⟩

/-- Component e of a clock (05 R118). -/
def Clock.at (c : Clock) (e : Nat) : Nat :=
  match e with | 0 => c.c0 | 1 => c.c1 | 2 => c.c2 | _ => c.c3

/-- The clock with component e set. -/
def Clock.set (c : Clock) (e v : Nat) : Clock :=
  match e with
  | 0 => { c with c0 := v } | 1 => { c with c1 := v } | 2 => { c with c2 := v } | _ => { c with c3 := v }

/-- The elementwise maximum (05 R118). -/
def Clock.join (a b : Clock) : Clock := ⟨max a.c0 b.c0, max a.c1 b.c1, max a.c2 b.c2, max a.c3 b.c3⟩

/-- Whether every component of a is at most that of b. -/
def Clock.le (a b : Clock) : Bool := a.c0 ≤ b.c0 && a.c1 ≤ b.c1 && a.c2 ≤ b.c2 && a.c3 ≤ b.c3

/-- The list without its element i. -/
def dropAt {α : Type} : List α → Nat → List α
  | [], _ => []
  | _ :: t, 0 => t
  | a :: t, i + 1 => a :: dropAt t i

/-- The list with f applied to its element i. -/
def mapAt {α : Type} (f : α → α) : List α → Nat → List α
  | [], _ => []
  | a :: t, 0 => f a :: t
  | a :: t, i + 1 => a :: mapAt f t i

/-- The place of the first element that p holds of. -/
def findIdx {α : Type} (p : α → Bool) (l : List α) : Option Nat :=
  let i := l.findIdx p
  if i < l.length then some i else none

end Sys2Proof.Machine
end

