-- ==== Sys2Proof/Machine/Num.lean ====
section
/-! DEFINITION. Num: the number formats (04 R80 to R87), exact values and the exact operations on them
(R97, R184, R185), before any rounding. -/

namespace Sys2Proof

open Machine

/-- The seven sticky flags in the order of 02 R31: NV, DZ, OF, UF, NX, IDZ, SATF. -/
abbrev Flags := BitVec 7
def NV : Flags := 1
def DZ : Flags := 2
def OF : Flags := 4
def UF : Flags := 8
def NX : Flags := 16
def IDZ : Flags := 32
def SATF : Flags := 64
/-- No flag. -/
def noFlags : Flags := 0
/-- A flag, when a condition holds. -/
def flagIf (b : Bool) (f : Flags) : Flags := if b then f else 0

/-- The width of a format (04 R80). -/
def Fmt.width : Fmt → Nat
  | .i8 | .n8 | .sb8 _ | .nb8 _ => 8
  | .i16 | .n16 | .bf16 | .f16 => 16
  | .i32 | .n32 | .f32 => 32
  | .i64 | .n64 | .f64 => 64
  | .sb4 _ => 4

/-- The integer formats (04 R80). -/
def Fmt.isInt : Fmt → Bool
  | .i8 | .n8 | .i16 | .n16 | .i32 | .n32 | .i64 | .n64 => true
  | _ => false
/-- The signed integer formats. -/
def Fmt.isSigned : Fmt → Bool
  | .i8 | .i16 | .i32 | .i64 => true
  | _ => false
/-- The formats with an IEEE encoding (04 R84, R85). -/
def Fmt.isIeee : Fmt → Bool
  | .f64 | .f32 | .bf16 | .f16 => true
  | _ => false
/-- The narrow formats (04 R86). -/
def Fmt.isNarrow (t : Fmt) : Bool := !t.isInt && !t.isIeee
/-- nb8, the narrow formats without a sign. -/
def Fmt.isUnsignedFloat : Fmt → Bool
  | .nb8 _ => true
  | _ => false

/-- Significant bits of a float format (04 R84 to R86). -/
def Fmt.prec : Fmt → Nat
  | .f64 => 53 | .f32 => 24 | .bf16 => 8 | .f16 => 11
  | .sb4 p => p.val + 1 | .sb8 p => p.val + 1 | .nb8 p => p.val + 1
  | _ => 1

/-- The exponent field's width of a float format (04 R84 to R86). -/
def Fmt.ebits : Fmt → Nat
  | .f64 => 11 | .f32 => 8 | .bf16 => 8 | .f16 => 5
  | .sb4 p => 4 - (p.val + 1) | .sb8 p => 8 - (p.val + 1) | .nb8 p => 9 - (p.val + 1)
  | _ => 1

/-- The exponent of the last place of the subnormals: 1 − bias − (p − 1) (04 R84, R86). -/
def Fmt.qmin (t : Fmt) : Int :=
  if t.isIeee then 1 - ((2 ^ (t.ebits - 1) : Nat) - 1 : Int) - (t.prec - 1 : Nat)
  else 1 - (2 ^ (t.ebits - 1) : Nat) - ((t.prec - 1 : Nat) : Int)

/-- The code of the largest finite magnitude (04 R84, R87); `inf` is VT.INF. -/
def Fmt.maxCode (t : Fmt) (inf : Bool) : Nat :=
  match t with
  | .nb8 _ => if inf then 0xFD else 0xFE
  | .sb8 _ => if inf then 0x7E else 0x7F
  | .sb4 _ => if inf then 0x6 else 0x7
  | t => (2 ^ t.ebits - 1) * 2 ^ (t.prec - 1) - 1

/-- The code of NaN that instructions produce (04 R84, R87). -/
def Fmt.nanCode (t : Fmt) : Nat :=
  match t with
  | .nb8 _ => 0xFF
  | .sb8 _ => 0x80
  | .sb4 _ => 0x8
  | t => (2 ^ t.ebits - 1) * 2 ^ (t.prec - 1) + 2 ^ (t.prec - 2)

/-- Whether the format carries infinities (04 R86, R87). -/
def Fmt.hasInf (t : Fmt) (inf : Bool) : Bool := t.isIeee || (t.isNarrow && inf)

/-- The code of an infinity (04 R84, R87). -/
def Fmt.infCode (t : Fmt) (neg : Bool) : Nat :=
  t.maxCode true + 1 + (if neg then 2 ^ (t.width - 1) else 0)

/-- An exact real ±(m + f)·2^e, where f is 0, or with `st` some fraction between 0 and 1. A zero keeps its sign. -/
structure Ex where
  neg : Bool
  m : Nat
  e : Int
  st : Bool := false
deriving DecidableEq, Repr

/-- What an element holds: a NaN (signalling or quiet), an infinity, or a real. -/
inductive Val where
  | nan (sig : Bool)
  | inf (neg : Bool)
  | fin (x : Ex)
deriving DecidableEq, Repr

/-- Zero of a sign. -/
def Val.zero (neg : Bool) : Val := .fin ⟨neg, 0, 0, false⟩
/-- An integer, exactly. -/
def Val.ofInt (i : Int) : Val := .fin ⟨decide (i < 0), i.natAbs, 0, false⟩
def Val.isNan : Val → Bool | .nan _ => true | _ => false
def Val.isSig : Val → Bool | .nan b => b | _ => false
def Val.isZero : Val → Bool | .fin x => x.m = 0 && !x.st | _ => false
def Val.isNeg : Val → Bool | .nan _ => false | .inf n => n | .fin x => x.neg

/-- The real of a magnitude code (04 R86). -/
def Fmt.magnitude (t : Fmt) (neg : Bool) (c : Nat) : Ex :=
  let h := 2 ^ (t.prec - 1)
  if c / h = 0 then ⟨neg, c % h, t.qmin, false⟩
  else ⟨neg, h + c % h, t.qmin + ((c / h : Nat) : Int) - 1, false⟩

/-- The value of the code c of a float format (04 R84 to R87). -/
def Fmt.decode (t : Fmt) (inf : Bool) (c : Nat) : Val :=
  let sb := 2 ^ (t.width - 1)
  if t.isIeee then
    let neg := decide (sb ≤ c)
    let m := c % sb
    if m ≤ t.maxCode inf then .fin (t.magnitude neg m)
    else if m = t.maxCode inf + 1 then .inf neg
    else .nan (decide (m % 2 ^ (t.prec - 1) < 2 ^ (t.prec - 2)))
  else if c = t.nanCode then .nan false
  else if t.isUnsignedFloat then (if inf && c = 0xFE then .inf false else .fin (t.magnitude false c))
  else if inf && c % sb = t.maxCode true + 1 then .inf (decide (sb ≤ c))
  else .fin (t.magnitude (decide (sb ≤ c)) (c % sb))

/-- An exact result with the flags its inputs raise, before it is rounded. -/
structure Res where
  v : Val
  f : Flags := 0
deriving DecidableEq, Repr

/-- NV of a signalling input (04 R84). -/
def sigFlag (l : List Val) : Flags := flagIf (l.any Val.isSig) NV

/-- The invalid result. -/
def Res.invalid : Res := ⟨.nan false, NV⟩

/-- The signed integer m·2^(e − q), for q at most e. -/
def Ex.scaled (x : Ex) (q : Int) : Int :=
  let n : Int := (x.m * 2 ^ (x.e - q).toNat : Nat)
  if x.neg then -n else n

/-- The exact sum of two reals; an exact zero has the sign of IEEE 754: that of both zeros, or + but for RDN. -/
def Ex.add (a b : Ex) (rdn : Bool) : Ex :=
  if a.m = 0 && b.m = 0 then ⟨(a.neg && b.neg) || (rdn && (a.neg || b.neg)), 0, 0, false⟩
  else
    let q := min a.e b.e
    let n := a.scaled q + b.scaled q
    if n = 0 then ⟨rdn, 0, 0, false⟩ else ⟨decide (n < 0), n.natAbs, q, false⟩

/-- The exact product of two reals. -/
def Ex.mul (a b : Ex) : Ex := ⟨a.neg != b.neg, a.m * b.m, a.e + b.e, false⟩

/-- The sum of two values (04 R84). -/
def Val.add (a b : Val) (rdn : Bool) : Res :=
  let f := sigFlag [a, b]
  match a, b with
  | .nan _, _ | _, .nan _ => ⟨.nan false, f⟩
  | .inf x, .inf y => if x = y then ⟨.inf x, f⟩ else .invalid
  | .inf x, _ | _, .inf x => ⟨.inf x, f⟩
  | .fin x, .fin y => ⟨.fin (x.add y rdn), f⟩

/-- The value negated; a NaN stays one. -/
def Val.neg : Val → Val
  | .nan b => .nan b
  | .inf x => .inf (!x)
  | .fin x => .fin { x with neg := !x.neg }

/-- The product of two values. -/
def Val.mul (a b : Val) : Res :=
  let f := sigFlag [a, b]
  match a, b with
  | .nan _, _ | _, .nan _ => ⟨.nan false, f⟩
  | .inf x, y | y, .inf x => if y.isZero then .invalid else ⟨.inf (x != y.isNeg), f⟩
  | .fin x, .fin y => ⟨.fin (x.mul y), f⟩

/-- d + a·b, exactly (04 R97). -/
def Val.fma (d a b : Val) (rdn : Bool) : Res :=
  let p := Val.mul a b
  let r := Val.add p.v d rdn
  ⟨r.v, p.f ||| r.f ||| sigFlag [d]⟩

/-- How many bits a number has. -/
def bitLen (n : Nat) : Nat := if n = 0 then 0 else Nat.log2 n + 1

/-- The quotient of two reals to 128 bits and more, with its remainder kept as `st`: more than the 53 of f64 and the 32 that R91
draws. -/
def Ex.div (a b : Ex) : Ex :=
  let k := 128 + bitLen b.m
  ⟨a.neg != b.neg, a.m * 2 ^ k / b.m, a.e - b.e - (k : Int), a.m * 2 ^ k % b.m ≠ 0⟩

/-- The quotient of two values (04 R96). -/
def Val.div (a b : Val) : Res :=
  let f := sigFlag [a, b]
  match a, b with
  | .nan _, _ | _, .nan _ => ⟨.nan false, f⟩
  | .inf _, .inf _ => .invalid
  | .inf x, y => ⟨.inf (x != y.isNeg), f⟩
  | x, .inf y => ⟨.zero (x.isNeg != y), f⟩
  | .fin x, .fin y =>
    if y.m = 0 then (if x.m = 0 then .invalid else ⟨.inf (x.neg != y.neg), f ||| DZ⟩)
    else if x.m = 0 then ⟨.zero (x.neg != y.neg), f⟩
    else ⟨.fin (x.div y), f⟩

/-- The integer square root, one bit at a time from bit k. -/
def isqrtBits (n : Nat) : Nat → Nat → Nat
  | 0, r => r
  | k + 1, r => let t := r + 2 ^ k; isqrtBits n k (if t * t ≤ n then t else r)
/-- The largest r with r·r ≤ n. -/
def isqrt (n : Nat) : Nat := isqrtBits n (bitLen n / 2 + 1) 0

/-- The square root of a real to 128 bits and more. -/
def Ex.sqrt (a : Ex) : Ex :=
  let k : Nat := if a.e % 2 = 0 then 256 else 257
  let n := a.m * 2 ^ k
  let r := isqrt n
  ⟨false, r, (a.e - (k : Int)) / 2, r * r ≠ n⟩

/-- The square root of a value; that of −0 is −0 (08 R184). -/
def Val.sqrt (a : Val) : Res :=
  match a with
  | .nan s => ⟨.nan false, flagIf s NV⟩
  | .inf n => if n then .invalid else ⟨.inf false, 0⟩
  | .fin x => if x.m = 0 then ⟨.fin x, 0⟩ else if x.neg then .invalid else ⟨.fin x.sqrt, 0⟩

/-- Whether a < b, for values that are not NaN. -/
def Val.lt (a b : Val) : Bool :=
  match a, b with
  | .inf x, .inf y => x && !y
  | .inf x, _ => x
  | _, .inf y => !y
  | .fin x, .fin y => let q := min x.e y.e; decide (x.scaled q < y.scaled q)
  | _, _ => false
/-- Whether a = b, for values that are not NaN: the zeros are equal. -/
def Val.eq (a b : Val) : Bool := !a.isNan && !b.isNan && !Val.lt a b && !Val.lt b a

/-- Whether a stands below b in the order of FMIN and FMAX, where −0 is below +0 (08 R185). -/
def Val.below (a b : Val) : Bool := Val.lt a b || (Val.eq a b && a.isNeg && !b.isNeg)

/-- FMIN and FMAX of two values by their codes (08 R185): the code of the result, and NV of a signalling source. -/
def minMaxCode (t : Fmt) (max : Bool) (a b : Val) (ca cb : Nat) : Nat × Flags :=
  let f := sigFlag [a, b]
  match a.isNan, b.isNan with
  | true, true => (t.nanCode, f)
  | true, false => (cb, f)
  | false, true => (ca, f)
  | false, false => (if (if max then Val.below b a else Val.below a b) then ca else cb, f)

/-- The class mask of FCLASS (08 R185). -/
def classMask (t : Fmt) (v : Val) : Nat :=
  match v with
  | .nan true => 2 ^ 8
  | .nan false => 2 ^ 9
  | .inf n => if n then 2 ^ 0 else 2 ^ 7
  | .fin x =>
    if x.m = 0 then (if x.neg then 2 ^ 3 else 2 ^ 4)
    else if x.m < 2 ^ (t.prec - 1) && x.e = t.qmin then (if x.neg then 2 ^ 2 else 2 ^ 5)
    else (if x.neg then 2 ^ 1 else 2 ^ 6)

/-- The bits needed of a number below the point, by halving: round toward zero of a/b at P bits. -/
def fdivBits (a b P : Nat) : Nat := a * 2 ^ P / b

/-- ln 2 at P bits, by Σ 1/(k·2^k). -/
def ln2Bits (P : Nat) : Nat := (List.range (P + 8)).foldl (fun s k => s + 2 ^ P / ((k + 1) * 2 ^ (k + 1))) 0

/-- exp of y/2^P at P bits, for 0 ≤ y < 2^P, by its power series with n terms. -/
def expBits (y P : Nat) : Nat → Nat → Nat → Nat → Nat
  | 0, _, _, s => s
  | n + 1, k, t, s =>
    let t' := t * y / 2 ^ P / (k + 1)
    if t' = 0 then s else expBits y P n (k + 1) t' (s + t')

/-- 2^x for a real x whose fraction is not 0, to P bits: its integer part goes to the exponent. The result is not a
rational of few bits, so `st` holds (log entry 20). -/
def Ex.exp2 (x : Ex) (P : Nat) : Ex :=
  -- floor and fraction of x at P bits
  let n : Int := if 0 ≤ x.e then x.scaled 0 else
    (if x.neg then -((x.m + (2 ^ (-x.e).toNat - 1)) / 2 ^ (-x.e).toNat : Nat) else (x.m / 2 ^ (-x.e).toNat : Nat))
  let fr : Nat := if 0 ≤ x.e then 0 else
    let d := 2 ^ (-x.e).toNat
    let m := x.m % d
    (if x.neg && m ≠ 0 then (d - m) else m) * 2 ^ P / d
  let y := fr * ln2Bits P / 2 ^ P
  let v := expBits y P (P + 8) 0 (2 ^ P) (2 ^ P)
  if fr = 0 then ⟨false, 1, n, false⟩ else ⟨false, v, n - (P : Int), true⟩

/-- The bits of log2 of m/2^P, 1 ≤ m/2^P < 2, by repeated squaring. -/
def log2Bits (P : Nat) : Nat → Nat → Nat → Nat
  | 0, _, r => r
  | n + 1, m, r =>
    let sq := m * m / 2 ^ P
    if 2 ^ (P + 1) ≤ sq then log2Bits P n (sq / 2) (2 * r + 1) else log2Bits P n sq (2 * r)

/-- log2 of a positive real that is not a power of two, to N bits below the point (log entry 20). -/
def Ex.log2 (x : Ex) (N P : Nat) : Ex :=
  let l := bitLen x.m
  let n : Int := x.e + ((l - 1 : Nat) : Int)
  let m := x.m * 2 ^ P / 2 ^ (l - 1)
  if x.m = 2 ^ (l - 1) then ⟨decide (n < 0), n.natAbs, 0, false⟩
  else
    let r : Int := n * ((2 ^ N : Nat) : Int) + ((log2Bits P N m 0 : Nat) : Int)
    if r < 0 then ⟨true, (r + 1).natAbs, -(N : Int), true⟩ else ⟨false, r.natAbs, -(N : Int), true⟩

end Sys2Proof
end

