-- ==== Sys2Proof/Machine/Ops.lean ====
section
/-! DEFINITION. Ops: the named operations over registers, issue (07 R163 to R166), fault records (18 R331), taking
a trap (15 R280) and the return from one (R283). -/

namespace Sys2Proof.Machine

/-- The outcome of a step. -/
abbrev Out := Host.Outcome State Fault Refusal

/-- Context c. -/
def State.ctx (s : State) (c : Nat) : Ctx := tget {} s.ctxs c
/-- Context c changed by f. -/
def State.setCtx (s : State) (c : Nat) (f : Ctx → Ctx) : State := { s with ctxs := tput s.ctxs c (f (s.ctx c)) }
/-- Core c. -/
def State.core (s : State) (c : Nat) : Core := tget {} s.cores c
/-- Core c changed by f. -/
def State.setCore (s : State) (c : Nat) (f : Core → Core) : State := { s with cores := tput s.cores c (f (s.core c)) }
/-- Partition p. -/
def State.part (s : State) (p : Nat) : Part := tget {} s.parts p
/-- Partition p changed by f. -/
def State.setPart (s : State) (p : Nat) (f : Part → Part) : State := { s with parts := tput s.parts p (f (s.part p)) }
/-- The context whose word this is. -/
def State.me (s : State) : Ctx := s.ctx s.cur
/-- The issuing context changed by f. -/
def State.setMe (s : State) (f : Ctx → Ctx) : State := s.setCtx s.cur f

/-- The core of a context and the die of a core (01 R19). -/
def coreOf (c : Nat) : Nat := c / 4
def dieOf (core : Nat) : Nat := core / 40
/-- The package quad of a core (01 R19). -/
def quadOf (core : Nat) : Nat := core / 4
/-- The partition of a core by PART.QMASK (15 R278); 40, whose registers hold their reset values until written,
stands for no partition (log entry 6). -/
def State.partOf (s : State) (core : Nat) : Nat :=
  match s.parts.find? (fun e => e.2.composed && e.2.qmask.getLsbD (quadOf core)) with
  | some e => e.1
  | none => 40
/-- The partition of the issuing context. -/
def State.myPart (s : State) : Nat := s.partOf (coreOf s.cur)
/-- The cores of partition p, ascending (15 R278, 01 R19). -/
def State.coresOf (s : State) (p : Nat) : List Nat :=
  (List.range 160).filter fun c => (s.part p).composed && (s.part p).qmask.getLsbD (quadOf c)
/-- The contexts of a core (01 R19). -/
def ctxsOf (core : Nat) : List Nat := [4 * core, 4 * core + 1, 4 * core + 2, 4 * core + 3]

/-- A scalar register of a context; x0 reads zero (03 R55). -/
def Ctx.rx (c : Ctx) (r : Nat) : Word := if r = 0 then 0 else tget 0 c.x r
/-- A write to a scalar register; to x0 it is discarded (03 R55). -/
def Ctx.wx (c : Ctx) (r : Nat) (v : Word) : Ctx := if r = 0 then c else { c with x := tset 0 c.x r v }
/-- A brick register (03 R54). -/
def Ctx.brick (c : Ctx) (r : Nat) : BitVec 16384 := tget 0 c.b r
def Ctx.setBrick (c : Ctx) (r : Nat) (v : BitVec 16384) : Ctx := { c with b := tset 0 c.b r v }
/-- A mask register (03 R70). -/
def Ctx.mask (c : Ctx) (r : Nat) : BitVec 4096 := tget 0 c.m r
def Ctx.setMask (c : Ctx) (r : Nat) (v : BitVec 4096) : Ctx := { c with m := tset 0 c.m r v }
/-- A scale register (03 R70). -/
def Ctx.scale (c : Ctx) (r : Nat) : BitVec 4096 := tget 0 c.k r
def Ctx.setScale (c : Ctx) (r : Nat) (v : BitVec 4096) : Ctx := { c with k := tset 0 c.k r v }
/-- The landed bits of a brick, all 1 at reset (03 R76, 02 R29). -/
def Ctx.land (c : Ctx) (r : Nat) : BitVec 8 := tget 0xFF c.landed r
def Ctx.setLand (c : Ctx) (r : Nat) (v : BitVec 8) : Ctx := { c with landed := tset 0xFF c.landed r v }
/-- The two link images of a brick (03 R72). -/
def Ctx.link (c : Ctx) (r : Nat) : Word × Word := tget (0, 0) c.links r
def Ctx.setLink (c : Ctx) (r : Nat) (v : Word × Word) : Ctx := { c with links := tset (0, 0) c.links r v }

/-- A control register by its number of 03 R58, of those that are RW. -/
def Ctrl.get (k : Ctrl) (r : Nat) : Word :=
  match r with
  | 0x00 => k.vl | 0x01 => k.vm | 0x02 => k.vs | 0x03 => k.vt | 0x04 => k.vmt | 0x05 => k.vf | 0x06 => k.seed
  | 0x07 => k.dchk | 0x08 => k.bsw | 0x09 => k.slipd | 0x0A => k.opri | 0x10 => k.msh | 0x11 => k.mft
  | 0x12 => k.csh | 0x13 => k.cst | 0x14 => k.ctm | _ => 0
/-- A control register written whole. -/
def Ctrl.put (k : Ctrl) (r : Nat) (v : Word) : Ctrl :=
  match r with
  | 0x00 => { k with vl := v } | 0x01 => { k with vm := v } | 0x02 => { k with vs := v }
  | 0x03 => { k with vt := v } | 0x04 => { k with vmt := v } | 0x05 => { k with vf := v }
  | 0x06 => { k with seed := v } | 0x07 => { k with dchk := v } | 0x08 => { k with bsw := v }
  | 0x09 => { k with slipd := v } | 0x0A => { k with opri := v } | 0x10 => { k with msh := v }
  | 0x11 => { k with mft := v } | 0x12 => { k with csh := v } | 0x13 => { k with cst := v }
  | 0x14 => { k with ctm := v } | _ => k

/-- The place of a control register among the shadowed registers (07 R166). -/
def ctlReg (r : Nat) : Nat := 64 + r
/-- The place of a system register of context scope among them (15 R279). -/
def sysReg (r : Nat) : Nat := 128 + r

/-- The old values of register n that a word at the present declared position may still read (07 R166). -/
def Ctx.olds (c : Ctx) (n : Nat) : List Word := (c.shadow.filter fun h => h.reg = n && c.pos < h.due).map (·.old)

/-- What a word reads: the new value, or at a short declared distance an old one (07 R166). -/
def State.choose (s : State) (n : Nat) (new : Word) : Word :=
  let l := s.me.olds n
  (new :: l).getD (Config.pick s.tick (2 * n) (l.length + 1)) new

/-- A scalar register as a word of the issuing context reads it. -/
def State.rx (s : State) (r : Fin 32) : Word := if r.val = 0 then 0 else s.choose r.val (s.me.rx r.val)
/-- A control register as a word of the issuing context reads it. -/
def State.rc (s : State) (r : Nat) : Word := s.choose (ctlReg r) (s.me.ctrl.get r)

/-- The registers among `srcs` whose declared distance is short, with their producers (07 R166). -/
def Ctx.short (c : Ctx) (srcs : List Nat) : List Shadow :=
  c.shadow.filter fun h => c.pos < h.due && h.reg ∈ srcs && h.reg ≠ 0

/-- A result of latency L in register n: readers at a shorter declared distance may read the old value. A latency
of 1 or an interlock leaves none, and ends an older result's (DESIGN CHOICE, log entry 79). -/
def Ctx.shade (c : Ctx) (n : Nat) (old : Word) (lat : Nat) : Ctx :=
  if lat ≤ 1 then { c with shadow := c.shadow.filter fun h => h.reg ≠ n }
  else { c with shadow := ⟨n, old, c.pos, c.pos + lat, c.pc⟩ :: c.shadow }

/-- A scalar result of latency L (07 R165). -/
def Ctx.result (c : Ctx) (r : Nat) (v : Word) (lat : Nat) : Ctx :=
  if r = 0 then c else (c.shade r (c.rx r) lat).wx r v

/-- The declared distance of a word with stall count S is 1 + S; its successor issues at the next position
(07 R164). -/
def Ctx.passBy (c : Ctx) (d : Nat) : Ctx :=
  { c with icnt := c.icnt + 1, pos := c.pos + d, wait := none, waited := 0, shadow := c.shadow.filter fun h => c.pos + d < h.due }

/-- Issue goes on at pc + 4 (07 R164). -/
def Ctx.advance (c : Ctx) (S : Fin 4) : Ctx := { c.passBy (1 + S.val) with pc := c.pc + 4 }
/-- A taken transfer (07 R164). -/
def Ctx.jump (c : Ctx) (S : Fin 4) (t : Word) : Ctx := { c.passBy (max 4 (1 + S.val)) with pc := t }
/-- An issue break (07 R166). -/
def Ctx.break (c : Ctx) : Ctx := { c with shadow := [], pos := 0 }

/-- Whether the vector side of a context is frozen (15 R281, R283). -/
def Ctx.frozen (c : Ctx) : Bool :=
  match c.sys.cpl with
  | .u => false
  | .s => bitW c.sys.ecause 15 && !bitW c.sys.ecause 14
  | .m => bitW c.sys.mcause 15 && !bitW c.sys.mcause 14
/-- Whether a handler of the context is active (18 R338, state TRAP). -/
def Ctx.inTrap (c : Ctx) : Bool := bitW c.sys.ecause 15 || bitW c.sys.mcause 15

/-- The code of a level (15 R275). -/
def Level.code : Level → Nat
  | .u => 0 | .s => 1 | .m => 3
/-- The level a code names; 10 is never held. -/
def Level.ofCode : Nat → Option Level
  | 0 => some .u | 1 => some .s | 3 => some .m | _ => none

/-- A launch's or a thread's launch id (02 R27). -/
def Rec8.lid (r : Rec8) : Nat := fldW r.d3 0 32
def Rec8.pri (r : Rec8) : Nat := fldW r.d3 34 2
def Rec8.gen (r : Rec8) : Bool := bitW r.d3 32

/-- What a record says beyond its code (18 R330, R331). -/
structure Detail where
  reason : Nat := 0
  face : Nat := 0
  opnd : Nat := 0
  kind : Nat := 0
  elem : Nat := 0
  loc : Nat := 0
  step : Nat := 0
  d0 : Word := 0
  d1 : Word := 0
  va : Word := 0
deriving DecidableEq, Repr

/-- The next sequence number of a source (15 R293, 18 R333), and the state that has given it. -/
def State.nextSeq (s : State) (core unit : Nat) : Nat × State :=
  let n := tget 0 (s.core core).seqs unit + 1
  (n, s.setCore core fun k => { k with seqs := tput k.seqs unit n })

/-- A fault record (18 R331) of context c, written by a unit of a core, numbered by its source. -/
def State.record (s : State) (c unit code : Nat) (d : Detail) (iaddr : Word) : Rec8 × State :=
  let core := coreOf c
  let (n, s) := s.nextSeq core unit
  (⟨word (c * 2 ^ 37 + core * 2 ^ 29 + unit * 2 ^ 26 + d.reason * 2 ^ 23 + d.face * 2 ^ 20 + d.opnd * 2 ^ 16
      + d.kind * 2 ^ 8 + code), word n, word (d.elem * 2 ^ 48 + d.loc % 65536 * 2 ^ 32 + d.step % 2 ^ 32), d.d0, d.d1,
    d.va, iaddr, word (s.issued.at (dieOf core))⟩, s)

/-- Woad records telemetry (18 R333). -/
def State.tell (s : State) (r : Rec8) : State :=
  { s with woad := { s.woad with telemetry := s.woad.telemetry ++ [r], seq := s.woad.seq + 1 } }

/-- Telemetry of Woad itself, numbered by it as by any source (18 R333). -/
def State.tellOwn (s : State) (code : Nat) (d0 : Word) : State :=
  { s with woad := { s.woad with own := s.woad.own + 1 } }.tell
    ⟨word code, word (s.woad.own + 1), 0, d0, 0, 0, 0, word (s.issued.at 0)⟩

/-- Telemetry of a unit of a core that names an address or index (18 R333, R345). -/
def State.telemetry (s : State) (core unit code : Nat) (d : Detail) : State :=
  let (r, s) := s.record (4 * core) unit code d 0
  s.tell r

/-- The islands SAFE gates: all of dies 1 to 3, and islands 0..27 of die 0 (19 R360). -/
def safeGates : List Nat := span 0 28 ++ span 32 96

/-- Woad enters SAFE with a unit code (19 R357, R359, R360). -/
def State.enterSafe (s : State) (step : Nat) (unit : BitVec 8) (index : Nat) : State :=
  { s with
    woad := { s.woad with boot := .safe, failStep := step, unit := unit, index := index }
    power := { s.power with effect := safeGates.foldl (fun t i => tset 0 t i 6) s.power.effect } }

/-- The trap codes of 18 R330. -/
def Code.illegal : Nat := 0x01
def Code.illop : Nat := 0x02
def Code.priv : Nat := 0x03
def Code.stallShort : Nat := 0x04
def Code.convoy : Nat := 0x05
def Code.align : Nat := 0x06
def Code.pageAbsent : Nat := 0x07
def Code.pageAccess : Nat := 0x08
def Code.paramBound : Nat := 0x09
def Code.paramUnbound : Nat := 0x0A
def Code.neighbour : Nat := 0x0B
def Code.tokenStale : Nat := 0x0C
def Code.tokenFull : Nat := 0x0D
def Code.svc : Nat := 0x0E
def Code.brk : Nat := 0x0F
def Code.eccUncorr : Nat := 0x10
def Code.link : Nat := 0x11

/-- The saved half of a cause register: ACT 1, CLM 0, VQ and CODE (15 R278, R280). -/
def cause (vq : Bool) (code : Nat) : Word := word (0x8000 + (if vq then 0x2000 else 0) + code)

/-- Where the vector table of TVEC or MVEC has the entry of a code (15 R280). -/
def vector (tvec : Word) (code : Nat) : Word := word (fldW tvec 12 44 * 4096 + 64 * code)

/-- The most flits that a sender holds unacknowledged (19 R348). -/
def replayRoom : Nat := 2 ^ 16

/-- A message for the outside leaves by a link, with the link's next number, and is held until acknowledged (19 R348). It waits while
the replay buffer is full, and a failed link carries nothing. -/
def State.emit (s : State) (link : Nat) (m : Msg) : State :=
  let l := tget {} s.links link
  if l.failed then s
  else if replayRoom ≤ l.held.length || l.waiting ≠ [] then { s with links := tput s.links link { l with waiting := l.waiting ++ [m] } }
  else { s with
    out := s.out ++ [m]
    links := tput s.links link { l with next := (l.next + 1) % 2 ^ 32, held := l.held ++ [⟨l.next, 0, m⟩] } }

/-- What waited for room in a link's replay buffer leaves, as far as there is room (19 R348). -/
def State.drainLink (s : State) (link : Nat) : State :=
  let l := tget {} s.links link
  let s := { s with links := tput s.links link { l with waiting := [] } }
  l.waiting.foldl (fun t m => t.emit link m) s

/-- The fabric port by which another module is reached (19 R352). -/
def State.portOf (s : State) (mod : Nat) : Nat := 16 + (tget 0 s.routes mod).toNat

/-- Taking a trap (15 R280): context c enters the handler of `code` with record `r`, to resume at `resume`. `vq`
says that a queued vector word trapped; `direct` sends the trap to M past S (18 R345). A trap at M stops the
core, or in CONFIG enters SAFE (19 R355, R357). -/
def State.takeTrap (s : State) (c code : Nat) (r : Rec8) (resume : Word) (vq direct : Bool) : State :=
  match (s.ctx c).sys.cpl, direct with
  | .u, false =>
    s.setCtx c fun k => { k.break with
      wait := none
      waited := 0
      pc := vector (s.part (s.partOf (coreOf c))).tvec code
      sys := { k.sys with ppl := .u, cpl := .s, epc := resume, ecause := cause vq code, frec := r } }
  | .m, _ =>
    if s.woad.boot = .config then (s.tell r).enterSafe 5 0x08 0
    else s.setCore (coreOf c) fun k => { k with stopped := true, stopRec := r }
  | _, _ =>
    s.setCtx c fun k => { k.break with
      wait := none
      waited := 0
      pc := vector s.mvec code
      sys := { k.sys with mppl := k.sys.cpl, cpl := .m, mepc := resume, mcause := cause vq code, mfrec := r } }

/-- A word of context c traps (07 R161, 18 R330), with the address of the word at fault. A convoy that has not
issued whole traps as one word, at its first (07 R164, R171). -/
def State.trapWord (s : State) (c code : Nat) (d : Detail) (iaddr resume : Word) (vq : Bool) : State :=
  let resume := match (s.ctx c).opened with
    | [] => resume
    | e :: _ => if vq then resume else e.addr
  let (r, s) := s.record c 0 code d iaddr
  let s := s.setCtx c fun k => match k.opened with
    | [] => k
    | e :: _ => { k with opened := [], icnt := e.icnt }
  s.takeTrap c code r resume vq false

/-- The word that the issuing context issues traps, with itself as the resume address (15 R280). -/
def State.trap (s : State) (code : Nat) (d : Detail) : State := s.trapWord s.cur code d s.me.pc s.me.pc false

/-- An illegal operand (00 R7): operand index, or 14 and the governing control register (18 R330). -/
def State.illop (s : State) (opnd : Nat) : State := s.trap Code.illop { opnd := opnd }
def State.illopCtl (s : State) (r : Nat) : State := s.trap Code.illop { opnd := 14, d0 := word r }

/-- The words of the first convoy of a queue. -/
def firstConvoy : List VEntry → List VEntry
  | [] => []
  | e :: t => if e.cv then e :: firstConvoy t else [e]

/-- Words that a stop found in flight go on from their progress indices, each with a new probe (18 R336, R337). A convoy with late words has
processed nothing until it is done, and starts anew (07 R175). -/
def resumeWords (l : List VEntry) : List VEntry :=
  let late := (firstConvoy l).any (·.late)
  l.map fun e => if e.started then { e with started := false, resumed := e.resumed || !late } else e

/-- The return from a trap (15 R283), to the level and the pc that the trap saved: the cause is inactive, and the vector
side, unless an unclaimed handler at S remains, goes on from its progress indices. -/
def Ctx.returnFrom (c : Ctx) (prev : Level) (ret : Word) : Ctx :=
  let k := { c.break with
    pc := ret
    icnt := c.icnt + 1
    wait := none
    waited := 0
    sys := match c.sys.cpl with
      | .s => { c.sys with cpl := prev, ecause := c.sys.ecause &&& ~~~0xC000#64 }
      | _ => { c.sys with cpl := prev, mcause := c.sys.mcause &&& ~~~0xC000#64 } }
  if k.frozen then k else { k with vq := resumeWords k.vq }

/-- A scalar register among those a word of the issuing context reads that lies in a failed slot (18 R345). -/
def State.failedScalar (s : State) (srcs : List Nat) : Option Nat := srcs.find? fun r => s.badCells.contains (4, s.cur, r, 0)

/-- A word that reads registers `srcs`, once none of them is found to have failed (18 R345). -/
def State.sound (s : State) (srcs : List Nat) (f : State → Out) : Out :=
  match s.failedScalar srcs with
  | some r => .next (s.trap Code.eccUncorr { loc := r })
  | none => f s

/-- The check of the declared distances of a word that reads the registers `srcs`, and the word itself (07 R166).
With DCHK.EN = 1 a short distance traps STALL_SHORT; `srcs` names scalar registers by number and control
registers by `ctlReg`. A register that cannot be read comes after it (18 R345). DCHK itself, written less than its
latency before, gives its old or its new EN: DESIGN CHOICE, log entry 106. -/
def State.checked (s : State) (srcs : List Nat) (f : State → Out) : Out :=
  match s.me.short srcs with
  | [] => s.sound srcs f
  | h :: _ =>
    if bitW (s.rc 0x07) 0 then
      .next (s.trap Code.stallShort { d0 := h.addr, d1 := word (s.me.pos - h.pos) })
    else s.sound srcs f

/-- A word that only writes a scalar result of latency L and goes on (07 R164, R165). -/
def State.scalar (s : State) (S : Fin 4) (d : Fin 32) (lat : Nat) (srcs : List Nat) (v : State → Word) : Out :=
  s.checked srcs fun s => .next (s.setMe fun c => (c.result d.val (v s) lat).advance S)

/-- The same with an interlocked result (07 R165). -/
def State.interlocked (s : State) (S : Fin 4) (d : Fin 32) (v : Word) : State :=
  s.setMe fun c => (c.result d.val v 1).advance S

end Sys2Proof.Machine
end

