-- ==== Sys2Proof/Machine/Flags.lean ====
section
/-! DEFINITION. Flags: rounding and the flags it raises (04 R88 to R95), and the sticky flags of the lanes
(R96). -/

namespace Sys2Proof

open Machine

/-- The rounding state an instruction rounds under: VT.RM, VT.SAT and VT.INF, and the random bits of R91. -/
structure Rnd where
  rm : Nat := 0
  sat : Bool := false
  inf : Bool := false
  sr : Nat := 0
deriving DecidableEq, Repr

/-- The rounding state of a VT value (03 R62). -/
def Rnd.ofVt (vt : Word) (sr : Nat) : Rnd := ⟨fldW vt 12 3, bitW vt 15, bitW vt 16, sr⟩
/-- Whether the mode rounds toward −∞ (the sign of an exact zero sum). -/
def Rnd.rdn (r : Rnd) : Bool := r.rm = 2

/-- The 32 random bits of the value destined for element e (04 R91). -/
def srbits (seed icnt : Word) (e : Nat) : Nat :=
  let z := seed + 0x9E3779B97F4A7C15#64 * (icnt * 4096 + word (e + 1))
  let z := (z ^^^ (z >>> 30)) * 0xBF58476D1CE4E5B9#64
  let z := (z ^^^ (z >>> 27)) * 0x94D049BB133111EB#64
  let z := z ^^^ (z >>> 31)
  fldW z 32 32

/-- The magnitude code of |v| rounded in a grid that has no end (04 R88): the code, and whether it is inexact. -/
def roundMag (p : Nat) (qmin : Int) (r : Rnd) (x : Ex) : Nat × Bool :=
  let q := max qmin (x.e + (bitLen x.m : Nat) - (p : Nat))
  let sh := (q - x.e).toNat
  let m := if x.e ≤ q then x.m / 2 ^ sh else x.m * 2 ^ (x.e - q).toNat
  let rest := if x.e ≤ q then x.m % 2 ^ sh else 0
  let inexact := decide (rest ≠ 0) || x.st
  let code := (q - qmin).toNat * 2 ^ (p - 1) + m
  let half := 2 ^ sh / 2
  let above := 0 < sh && (half < rest || (rest = half && x.st))
  let tie := 0 < sh && rest = half && !x.st
  let up := match r.rm with
    | 0 => above || (tie && code % 2 = 1)
    | 1 => false
    | 2 => inexact && x.neg
    | 3 => inexact && !x.neg
    | 4 => above || tie
    | _ => inexact && decide (2 ^ 32 ≤ rest * 2 ^ 32 / 2 ^ sh + r.sr)
  (if up then code + 1 else code, inexact)

/-- The code of a magnitude with its sign; a narrow format has no negative zero (04 R86). -/
def Fmt.signed (t : Fmt) (neg : Bool) (c : Nat) : Nat :=
  if neg && !t.isUnsignedFloat && (t.isIeee || c ≠ 0) then c + 2 ^ (t.width - 1) else c

/-- An overflow (04 R89). -/
def overflow (t : Fmt) (r : Rnd) (neg : Bool) : Nat × Flags :=
  let toMax := match r.rm with | 1 => true | 2 => !neg | 3 => neg | _ => false
  if r.sat then (t.signed neg (t.maxCode r.inf), OF ||| NX ||| flagIf (!toMax) SATF)
  else if toMax then (t.signed neg (t.maxCode r.inf), OF ||| NX)
  else if t.hasInf r.inf then (t.infCode neg, OF ||| NX)
  else (t.nanCode, OF ||| NX ||| NV)

/-- round(fmt, v, rm) of 03 R79: the code of the rounded value and the flags (04 R88 to R92). -/
def Fmt.round (t : Fmt) (r : Rnd) (v : Val) : Nat × Flags :=
  match v with
  | .nan _ => (t.nanCode, 0)
  | .inf neg =>
    if neg && t.isUnsignedFloat then (if r.sat then (0, SATF) else (t.nanCode, NV))
    else if t.hasInf r.inf then (t.infCode neg, 0)
    else if r.sat then (t.signed neg (t.maxCode r.inf), SATF)
    else (t.nanCode, NV)
  | .fin x =>
    if x.m = 0 && !x.st then (t.signed x.neg 0, 0)
    else
      let (c, inexact) := roundMag t.prec t.qmin r x
      let tiny := decide (c < 2 ^ (t.prec - 1))
      let fl := flagIf inexact NX ||| flagIf (inexact && tiny) UF
      if x.neg && t.isUnsignedFloat then
        (if c = 0 then (0, fl) else if r.sat then (0, SATF) else (t.nanCode, NV))
      else if t.maxCode r.inf < c then overflow t r x.neg
      else (t.signed x.neg c, fl)

/-- A result rounded once (04 R97), with its own flags and the rounding's. -/
def Fmt.finish (t : Fmt) (r : Rnd) (x : Res) : Nat × Flags :=
  let (c, f) := t.round r x.v
  (c, f ||| x.f)

/-- The least and greatest integer of an integer format (04 R81). -/
def Fmt.minInt (t : Fmt) : Int := if t.isSigned then -(2 ^ (t.width - 1) : Nat) else 0
def Fmt.maxInt (t : Fmt) : Int := if t.isSigned then (2 ^ (t.width - 1) : Nat) - 1 else (2 ^ t.width : Nat) - 1

/-- An integer reduced to n bits (04 R81). -/
def wrapInt (n : Nat) (i : Int) : Nat := (i % (2 ^ n : Nat)).toNat

/-- An exact integer clamped to a format (04 R81), with SATF when that changed it. -/
def Fmt.clamp (t : Fmt) (i : Int) : Nat × Flags :=
  if i < t.minInt then (wrapInt t.width t.minInt, SATF)
  else if t.maxInt < i then (wrapInt t.width t.maxInt, SATF)
  else (wrapInt t.width i, 0)

/-- A value rounded to an integer (04 R94), in the mode VT.RM. -/
def roundInt (r : Rnd) (x : Ex) : Int × Bool :=
  -- the grid of the integers: a code space whose last place is 2^0 and whose spacing never grows
  let p := max (bitLen x.m + x.e.toNat + 2) 2
  let (c, inexact) := roundMag p 0 r x
  (if x.neg then -(c : Int) else (c : Int), inexact)

/-- A float converted to an integer format (04 R94). -/
def Fmt.toInt (t : Fmt) (r : Rnd) (v : Val) : Nat × Flags :=
  match v with
  | .nan _ => (0, NV)
  | .inf neg => (wrapInt t.width (if neg then t.minInt else t.maxInt), NV ||| SATF)
  | .fin x =>
    let (i, inexact) := roundInt r x
    if i < t.minInt then (wrapInt t.width t.minInt, NV ||| SATF)
    else if t.maxInt < i then (wrapInt t.width t.maxInt, NV ||| SATF)
    else (wrapInt t.width i, flagIf inexact NX)

/-- The integer a code of an integer format is. -/
def Fmt.intOf (t : Fmt) (c : Nat) : Int := if t.isSigned then sint t.width c else ((c % 2 ^ t.width : Nat) : Int)

/-- The code c of format `src` converted to `dst`, rounded once (04 R93 to R95). -/
def convert (src dst : Fmt) (r : Rnd) (c : Nat) : Nat × Flags :=
  match src.isInt, dst.isInt with
  | true, true => if r.sat then dst.clamp (src.intOf c) else (wrapInt dst.width (src.intOf c), 0)
  | true, false => dst.round r (.ofInt (src.intOf c))
  | false, true => let v := src.decode r.inf c; let (i, f) := dst.toInt r v; (i, f ||| sigFlag [v])
  | false, false => let v := src.decode r.inf c; dst.finish r ⟨v, sigFlag [v]⟩

namespace Machine

/-- The sticky flags of lane s of a context (04 R96). -/
def Ctx.lane (c : Ctx) (s : Nat) : Flags := tget 0 c.flags s
/-- Flags raised in a lane. -/
def Ctx.raise (c : Ctx) (s : Nat) (f : Flags) : Ctx :=
  if f = 0 then c else { c with flags := tset 0 c.flags s (c.lane s ||| f) }
/-- The OR of the flags of all lanes (02 R30). -/
def Ctx.allFlags (c : Ctx) : Flags := c.flags.foldl (fun a e => a ||| e.2) 0

/-- The lane of element e at width w: the slot that holds it, the lower one for 64 bits (03 R56, 04 R96). -/
def laneOf (w e : Nat) : Nat := w * e % 2048 / 32

end Machine

end Sys2Proof
end

