-- ==== Sys2Proof/Machine/Mem.lean ====
section
/-! DEFINITION. Mem: the physical map (17 R315), homes and parity (R323, R324), translation (R316 to R322), and
memory as programs see it (05 R110 to R125). -/

namespace Sys2Proof.Machine

/-! ### The physical map -/

/-- The regions of 17 R315. -/
inductive Region where
  | main | window | tier | control | nowhere
deriving DecidableEq, Repr

/-- The region of a physical address (17 R315). -/
def region (pa : Nat) : Region :=
  if pa < 0xE000000000 then .main
  else if 0x100000000000 ≤ pa ∧ pa < 0x100028000000 then .window
  else if 0x200000000000 ≤ pa ∧ pa < 0x300000000000 then .tier
  else if 0xF00000000000 ≤ pa ∧ pa < 0x1000000000000 then .control
  else .nowhere

/-- The physical address of byte `off` of a core's window: scratchpad, then B-store (05 R110, 17 R315). -/
def windowAddr (core off : Nat) : Nat := 0x100000000000 + core * 0x400000 + off
/-- The core and offset of a window address. -/
def windowCore (pa : Nat) : Nat := (pa - 0x100000000000) / 0x400000
def windowOff (pa : Nat) : Nat := (pa - 0x100000000000) % 0x400000
/-- Bytes of a scratchpad (01 R14). -/
def scratchBytes : Nat := 3145728

/-- The stripe and the position of a main-memory address (17 R323). -/
def stripe (pa : Nat) : Nat := pa / 256 / 7
def position (pa : Nat) : Nat := pa / 256 % 7
/-- The stack that holds the parity line of a stripe (17 R323). -/
def parityStack (st : Nat) : Nat := st % 8
/-- The stack of a data line (17 R323). -/
def dataStack (pa : Nat) : Nat := (parityStack (stripe pa) + 1 + position pa) % 8
/-- The channel of a stripe, one channel number in all eight stacks (17 R323). -/
def channel (st : Nat) : Nat :=
  fld st 3 5 ^^^ fld st 8 5 ^^^ fld st 13 5 ^^^ fld st 18 5 ^^^ fld st 23 5
/-- The in-channel line of a stripe, and its bank group, bank, column and row (17 R323). -/
def inChannel (st : Nat) : Nat := fld st 8 21 * 8 + fld st 0 3
def bankGroup (t : Nat) : Nat := fld t 0 3 ^^^ fld t 7 3
def bank (t : Nat) : Nat := fld t 3 2 ^^^ fld t 10 2
def column (t : Nat) : Nat := fld t 5 2
def row (t : Nat) : Nat := fld t 7 17

/-- The home die of a byte (05 R117, 01 R18). -/
def homeDie (pa : Nat) : Nat :=
  match region pa with
  | .main => dataStack pa / 2
  | .window => dieOf (windowCore pa)
  | _ => 0

/-- A byte as its home holds it; unlisted bytes read 0 (19 R354, R359, log entry 7). -/
def State.peek (s : State) (pa : Nat) : Byte := tget 0 s.mem pa

/-- The canonical form of memory (log entry 7): addresses strictly rising, and no byte listed that holds 0. -/
def Memory.wf (m : List Host.Cell) : Bool := twf 0 m

/-- The bytes of a dword at a physical address. -/
def State.peekDword (s : State) (pa : Nat) : Word := word (leNat ((span pa 8).map s.peek))

/-- A byte of the parity line of a stripe (17 R324). -/
def parityAddr (pa : Nat) : Nat := stripe pa * 256 + pa % 256

/-- Whether the line of `pa` in a stack is unreadable: in a failed channel, or uncorrectable (17 R325). -/
def State.lineDead (s : State) (st stack : Nat) : Bool :=
  (stack, channel st) ∈ s.deadChannels || (stack, st) ∈ s.badLines

/-- How many of the eight lines of a stripe are unreadable (17 R325). -/
def State.deadLines (s : State) (st : Nat) : Nat := ((List.range 8).filter (s.lineDead st)).length

/-- Whether a byte cannot be rebuilt (17 R325): its line and another of its stripe are unreadable; or it lies in a
scratchpad cell that is uncorrectable (18 R345). -/
def State.unreadable (s : State) (pa : Nat) : Bool :=
  match region pa with
  | .main => s.lineDead (stripe pa) (dataStack pa) && 1 < s.deadLines (stripe pa)
  | .window => s.badCells.any fun c => c.1 == 0 && c.2.1 == pa / 8
  | _ => false

/-- A byte of memory put, in the canonical form of memory (log entry 7). -/
def State.poke (s : State) (pa : Nat) (v : Byte) : State := { s with mem := tset 0 s.mem pa v }

/-- A write of one byte at its home: the data, the parity of its stripe by old parity ^ old data ^ new data
(17 R324), and the value's place in the byte's coherence order (05 R119). A stripe with two unreadable lines
takes the write on its readable lines (R325). -/
def State.writeByte (s : State) (pa : Nat) (v : Ver) : State :=
  let old := s.peek pa
  let hist := match tget [] s.hist pa with
    | [] => [⟨old, 0, 0, 0, {}, .none⟩]
    | l => l
  let s := if region pa = .main then
      { s with parity := tset 0 s.parity (parityAddr pa) (tget 0 s.parity (parityAddr pa) ^^^ old ^^^ v.val) } else s
  { s.poke pa v.val with hist := tput s.hist pa (v :: hist) }

/-! ### Partitions and their carves -/

/-- The first byte and the length of a partition's main-memory carve (19 R353). -/
def Part.carveBase (p : Part) : Nat := fldW p.carveb 30 18 * 2 ^ 30
def Part.carveSize (p : Part) : Nat := fldW p.carves 0 10 * 2 ^ 30
/-- Whether n bytes at pa lie wholly in the carve. -/
def Part.inCarve (p : Part) (pa n : Nat) : Bool := p.carveBase ≤ pa && pa + n ≤ p.carveBase + p.carveSize
/-- Whether n bytes at pa lie wholly in one window of a core of partition p. -/
def State.inWindow (s : State) (p pa n : Nat) : Bool :=
  region pa = .window && windowCore pa ∈ s.coresOf p && windowOff pa + n ≤ 0x400000
/-- The tier carve of a partition (17 R327). -/
def Part.inTier (p : Part) (ta n : Nat) : Bool :=
  fldW p.tierb 16 32 * 65536 ≤ ta && ta + n ≤ fldW p.tierb 16 32 * 65536 + fldW p.tiers 0 29 * 65536

/-- The buffer of a partition that holds a virtual address (15 R287). -/
def Part.bufAt (p : Part) (va : Nat) : Option (Nat × Buf) :=
  p.bufs.find? fun e => e.2.vbase ≤ va && va < e.2.vbase + e.2.size

/-- The physical address of a location for reads of threads and of child operations: the visible backing
(05 R133, 17 R322). -/
def State.visible (s : State) : Loc → Nat
  | .phys pa => pa
  | .buf p i off => let b := tget ⟨0, 0, 0, 0, false, false⟩ (s.part p).bufs i; (if b.vis then b.pb else b.pa) + off
/-- The physical address of a location for writes of child operations: the hidden backing (05 R133). -/
def State.hidden (s : State) : Loc → Nat
  | .phys pa => pa
  | .buf p i off => let b := tget ⟨0, 0, 0, 0, false, false⟩ (s.part p).bufs i; (if b.vis then b.pa else b.pb) + off

/-- Whether a physical byte belongs to a ring of a core of the partition (16 R297). -/
def State.inRing (s : State) (p pa : Nat) : Bool :=
  let q := s.part p
  q.ring1.any fun e => 0 < fldW e.2 0 13 && fldW (tget 0 q.ring0 e.1) 7 41 * 128 ≤ pa &&
    pa < fldW (tget 0 q.ring0 e.1) 7 41 * 128 + 128 * fldW e.2 0 13

/-! ### Links between dies and lost lines -/

/-- The link between two dies (01 R17), in the order 0–1, 0–2, 0–3, 1–2, 1–3, 2–3 (log entry 21). -/
def dieLink (a b : Nat) : Nat :=
  match min a b, max a b with
  | 0, 1 => 0 | 0, 2 => 1 | 0, 3 => 2 | 1, 2 => 3 | 1, 3 => 4 | _, _ => 5

/-- The failed die-to-die link that an access of a core to these bytes needs (18 R347). -/
def State.brokenLink (st : State) (core : Nat) (pas : List Nat) : Option Nat :=
  (pas.find? fun pa => homeDie pa ≠ dieOf core && (tget {} st.links (dieLink (homeDie pa) (dieOf core))).failed).map
    fun pa => dieLink (homeDie pa) (dieOf core)

/-- The lines that a core's read of these bytes rebuilds from their stripes are reported, and one that does not lie in a failed channel
is rewritten (17 R325). -/
def State.rebuildFor (st : State) (core : Nat) (pas : List Nat) : State :=
  (((pas.filter fun pa => region pa = .main).map fun pa => (dataStack pa, stripe pa)).eraseDups).foldl (fun t x =>
    if t.lineDead x.2 x.1 && t.deadLines x.2 = 1 then
      { t with badLines := if (x.1, channel x.2) ∈ t.deadChannels then t.badLines else t.badLines.filter (· ≠ x) }.telemetry core 0 Code.eccUncorr
        { va := word (256 * (7 * x.2 + (x.1 + 7 - parityStack x.2) % 8)) }
    else t) st
/-! ### Translation -/

/-- Access kinds (17 R318), coded as D0 of a page trap (18 R330). -/
inductive Kind where
  | fetch | read | write | atomic
deriving DecidableEq, Repr
def Kind.code : Kind → Nat
  | .fetch => 0 | .read => 1 | .write => 2 | .atomic => 3

/-- What a translation gives: a location, a page of another module (17 R316, F = 1), the faults of R317, a page in the move, which
accesses wait for (R271), or a walk that storage or a link has failed (18 R345, R347): the code of the trap, and its D0. -/
inductive Tr where
  | ok (l : Loc)
  | remote (mod pa : Nat)
  | absent
  | access
  | moving
  | failed (code d0 : Nat)
deriving DecidableEq, Repr

/-- Fields of a page-table entry (17 R316). -/
def pteV (w : Word) : Bool := bitW w 0
def pteL (w : Word) : Bool := bitW w 1
def pteT (w : Word) : Bool := bitW w 7
def pteF (w : Word) : Bool := bitW w 51
def ptePA (w : Word) : Nat := fldW w 16 32 * 65536
def pteNext (w : Word) : Nat := fldW w 8 40 * 256
def pteTaddr (w : Word) : Nat := fldW w 12 36 * 4096
def pteMod (w : Word) : Nat := fldW w 52 10

/-- The page size of a leaf at level k (17 R317). -/
def pageSize (k : Nat) : Nat :=
  match k with | 1 => 2 ^ 31 | 2 => 2 ^ 26 | 3 => 2 ^ 21 | _ => 2 ^ 16
/-- The index of a virtual address at level k (17 R317), and the size in bytes of the table of level k. -/
def vaIndex (va k : Nat) : Nat :=
  match k with | 0 => fld va 43 13 | 1 => fld va 31 12 | 2 => fld va 26 5 | 3 => fld va 21 5 | _ => fld va 16 5
def tableSize (k : Nat) : Nat := match k with | 0 => 65536 | 1 => 32768 | _ => 256

/-- Whether a module is a member of the gang that this one is in (16 R312, 19 R352), and the size of the gang. -/
def State.gangMember (s : State) (m : Nat) : Bool :=
  s.gang ≠ 0 && m < 1024 && (m = s.modNum.toNat || Config.gangHas s.gang m)
def State.gangSize (s : State) : Nat := ((List.range 1024).filter s.gangMember).length

/-- Whether a valid entry met at level k is malformed (17 R319). -/
def State.malformed (s : State) (p k : Nat) (w : Word) : Bool :=
  let q := s.part p
  if !pteL w then
    k = 4 || fldW w 2 6 ≠ 0 || fldW w 48 16 ≠ 0 || pteNext w % tableSize (k + 1) ≠ 0
  else if k = 0 || (bitW w 3 && !bitW w 2) || bitW w 6 || fldW w 48 3 ≠ 0 then true
  else if pteT w then
    pteF w || fldW w 52 12 ≠ 0 || fldW w 8 4 ≠ 0 || !q.inTier (pteTaddr w) 1
  else if fldW w 8 8 ≠ 0 || fldW w 62 2 ≠ 0 || ptePA w % pageSize k ≠ 0 then true
  else
    (if pteF w then !s.gangMember (pteMod w) else fldW w 52 10 ≠ 0) ||
    match region (ptePA w) with
    | .main => !pteF w && !q.inCarve (ptePA w) (pageSize k)
    | .window => (!pteF w && !s.inWindow p (ptePA w) (pageSize k)) || 2 ^ 21 < pageSize k
    | .control => 2 ^ 16 < pageSize k
    | _ => true

/-- The dword a walk reads at a physical address, at its home (17 R317); at an address in no region, a free value
(log entry 18). -/
def State.walkRead (s : State) (pa : Nat) : Word :=
  match region pa with
  | .main | .window => s.peekDword pa
  | _ => Config.absentDword pa

/-- What a core's read of a table entry meets in the storage that holds it (17 R325, 18 R345, R347). -/
def State.walkFails (s : State) (core a : Nat) : Option Tr :=
  match s.brokenLink core [a] with
  | some l => some (.failed 0x11 l)
  | none => if (span a 8).any s.unreadable then some (.failed 0x10 0) else none

/-- A core's walk to a leaf (17 R317): the leaf with its address and level, or the fault. -/
def State.walk (s : State) (core p va : Nat) : (fuel k a : Nat) → Sum (Word × Nat × Nat) Tr
  | 0, _, _ => .inr .access
  | fuel + 1, k, a =>
    match s.walkFails core a with
    | some t => .inr t
    | none =>
      let e := s.walkRead a
      if !pteV e then .inr .absent
      else if s.malformed p k e then .inr .access
      else if pteL e then .inl (e, a, k)
      else s.walk core p va fuel (k + 1) (pteNext e + 8 * vaIndex va (k + 1))

/-- The entries that a walk reads. -/
def State.walkPath (s : State) (core p va : Nat) : (fuel k a : Nat) → List Nat
  | 0, _, _ => []
  | fuel + 1, k, a =>
    if (s.walkFails core a).isSome then []
    else
      let e := s.walkRead a
      a :: if !pteV e || s.malformed p k e || pteL e then [] else s.walkPath core p va fuel (k + 1) (pteNext e + 8 * vaIndex va (k + 1))

/-- The entry of level 0 that a walk begins at. -/
def State.walkRoot (s : State) (p va : Nat) : Nat := fldW (s.part p).ttb 16 40 * 65536 + 8 * vaIndex va 0
/-- The leaf of a virtual address of partition p, as a core walks to it. -/
def State.leaf (s : State) (core p va : Nat) : Sum (Word × Nat × Nat) Tr := s.walk core p va 5 0 (s.walkRoot p va)
/-- The lines that a core's walk rebuilds are reported (17 R325). -/
def State.walked (s : State) (core p va : Nat) : State := s.rebuildFor core (s.walkPath core p va 5 0 (s.walkRoot p va))

/-- What a leaf of a given page size gives an access (17 R317, R318). `thread` says that a thread makes it. -/
def leafGives (w : Word) (size va : Nat) (kind : Kind) (lvl : Level) (thread : Bool) : Tr :=
  let ok := match kind with
    | .fetch => bitW w 4
    | .read => bitW w 2
    | .write => bitW w 3
    | .atomic => bitW w 2 && bitW w 3
  if pteT w then .absent
  else if !ok || (lvl = .u && !bitW w 5) then .access
  else if pteF w then (if thread then .access else .remote (pteMod w) (ptePA w + va % size))
  else if region (ptePA w) = .control && (lvl = .u || !thread) then .access
  else .ok (.phys (ptePA w + va % size))

/-- The translation of a page that a core's buffer holds (17 R320). -/
def State.cached (s : State) (core p va : Nat) : Option Tlb :=
  (s.core core).tlb.find? fun t => !t.shadow && t.part = p && t.base ≤ va && va < t.base + t.size

/-- Whether a migration of a partition is moving the page of a virtual address (17 R271, R328). -/
def State.pageMoves (s : State) (p va : Nat) : Bool :=
  s.cores.any fun c => c.2.slots.any fun x => x.2.op.part = p && match x.2.op.page with
    | some (_, _, k, _) => x.2.op.xa1.toNat ≤ va && va < x.2.op.xa1.toNat + pageSize k
    | none => false

/-- The leaf that a core translates a page by (17 R320, R321): one that `kept` holds; the buffer's entry, or the one that the tables hold
now; or what the walk comes to. A walk that fails leaves the entry. -/
def State.leafFor (s : State) (kept : List Tlb) (core p va : Nat) : Sum Tlb Tr :=
  match kept.find? fun t => t.part = p && t.base ≤ va && va < t.base + t.size with
  | some t => .inl t
  | none =>
    let fresh : Sum Tlb Tr := match s.leaf core p va with
      | .inl (w, _, k) => .inl ⟨p, va / pageSize k * pageSize k, pageSize k, w, false⟩
      | .inr t => .inr t
    match s.cached core p va, fresh with
    | none, f => f
    | some t, .inr (.failed _ _) => .inl t
    | some t, f => [f, .inl t].getD (Config.pick s.tick (2 * t.base + 1) 2) f

/-- The translation of a virtual address by partition p's tables and the buffer of a core, in a step that has made the translations
`kept`; bytes of a ring are refused (16 R297). Before GO the firmware context's addresses are physical (19 R357): one that names nothing
(17 R315) is refused, as a leaf that names nothing is (R319, log entry 81). -/
def State.translateBy (s : State) (kept : List Tlb) (core p : Nat) (lvl : Level) (kind : Kind) (thread : Bool) (va : Nat) : Tr :=
  if s.woad.boot = .config then
    match region va with
    | .nowhere | .tier => .access
    | _ => if s.parts.any (fun q => s.inRing q.1 va) then .access else .ok (.phys va)
  else if 2 ^ 56 ≤ va then .access
  else match (s.part p).bufAt va with
  | some (i, b) =>
    if kind = .fetch || s.inRing p (b.pa + (va - b.vbase)) || s.inRing p (b.pb + (va - b.vbase)) then .access
    else .ok (.buf p i (va - b.vbase))
  | none =>
    if s.pageMoves p va then .moving
    else match s.leafFor kept core p va with
    | .inr t => t
    | .inl t => match leafGives t.pte t.size va kind lvl thread with
      | .ok (.phys pa) => if s.inRing p pa then .access else .ok (.phys pa)
      | r => r

/-- The translation of a virtual address in a step of its own. -/
def State.translate (s : State) (core p : Nat) (lvl : Level) (kind : Kind) (thread : Bool) (va : Nat) : Tr :=
  s.translateBy [] core p lvl kind thread va

/-- The core's buffer keeps the leaf an access has walked to (17 R320), or the shadowed page it has met (R322). -/
def State.fillTlb (s : State) (core p va : Nat) : State :=
  if s.woad.boot = .config then s
  else match (s.part p).bufAt va, s.cached core p va, s.leaf core p va with
  | none, none, .inl (w, _, k) =>
    if pteT w then s.walked core p va
    else (s.walked core p va).setCore core fun c => { c with tlb := ⟨p, va / pageSize k * pageSize k, pageSize k, w, false⟩ :: c.tlb.take 2047 }
  | some (i, _), _, _ =>
    let t : Tlb := ⟨p, va / 65536 * 65536, 65536, word i, true⟩
    s.setCore core fun c => { c with tlb := if t ∈ c.tlb then c.tlb else t :: c.tlb.take 2047 }
  | _, _, _ => s

/-- The same for every page that some accesses meet (17 R321). -/
def State.fillPages (s : State) (core p : Nat) (vas : List Nat) : State :=
  ((vas.map (· / 65536)).eraseDups).foldl (fun t a => t.fillTlb core p (a * 65536)) s
/-- The same for the pages of an access of n bytes. -/
def State.fillAt (s : State) (core p : Nat) (va : Word) (n : Nat) : State := s.fillPages core p [va.toNat, (va + word (n - 1)).toNat]

/-- The location of a translation that succeeds. -/
def Tr.loc? : Tr → Option Loc
  | .ok l => some l
  | _ => none

/-- Whether a translation is one that storage or a link has failed. -/
def Tr.isFailed : Tr → Bool
  | .failed _ _ => true
  | _ => false

/-- The translations of the n bytes at va, each address modulo 2^64; or, with its address, a page in the move, which is waited for; or
the fault: an absent page before a refused one, and that before a walk that has failed (07 R162). -/
def State.locate (s : State) (core p : Nat) (lvl : Level) (kind : Kind) (thread : Bool) (va : Word) (n : Nat) :
    Sum (List Loc) (Tr × Word) :=
  let ts := (List.range n).map fun i => (s.translate core p lvl kind thread (va + word i).toNat, va + word i)
  let first := fun (f : Tr → Bool) => ts.find? fun t => f t.1
  match (first (· = .moving)).or ((first (· = .absent)).or ((first fun t => t.loc?.isNone && !t.isFailed).or (first (·.loc?.isNone)))) with
  | some t => .inr t
  | none => .inl (ts.filterMap (·.1.loc?))

/-! ### Which value a read returns -/

/-- Whether a byte lies in a hidden backing (05 R133). -/
def State.isHidden (s : State) (pa : Nat) : Bool :=
  s.parts.any fun p => p.2.bufs.any fun b =>
    let h := if b.2.vis then b.2.pa else b.2.pb
    h ≤ pa && pa < h + b.2.size

/-- The moment before which no reader obtains a value of a byte, because no die held a read copy of it then (05 R133, R134). -/
def State.cutAt (s : State) (pa : Nat) : Nat :=
  s.cuts.foldl (fun m x => if x.1 ≤ pa && pa < x.1 + x.2.1 then max m x.2.2 else m) (if s.isHidden pa then s.time else 0)

/-- The bounds of a context. -/
def Ctx.bounds (k : Ctx) : Bounds := ⟨k.readFrom, k.readFromCore, k.readFromDie, k.seen⟩

/-- The oldest moment from which a reader of a core, with a clock and bounds, may read a byte (05 R120): after every numbered
write its clock covers, after what it has read or made, and after its fences, over the locations they cover (R126, R127). -/
def State.floorWith (s : State) (core : Nat) (b : Bounds) (clk : Clock) (pa : Nat) : Nat :=
  (tget [] s.hist pa).foldl (fun m v => if 0 < v.num && v.num ≤ clk.at v.die.val then max m v.time else m)
    (max (max (max b.all (s.cutAt pa)) (tget 0 b.seen pa))
      (max (if region pa = .window && windowCore pa = core then b.core else 0)
        (if homeDie pa = dieOf core then b.die else 0)))

/-- The same for the thread of a context. -/
def State.floorOf (s : State) (c : Nat) (clk : Clock) (pa : Nat) : Nat := s.floorWith (coreOf c) (s.ctx c).bounds clk pa

/-- The value, with its write, that a byte held at a moment. -/
def State.verAt (s : State) (pa t : Nat) : Ver :=
  ((tget [] s.hist pa).find? (fun v => v.time ≤ t)).getD ⟨s.peek pa, 0, 0, 0, {}, .none⟩

/-- The versions of a byte from a moment on: the one it held then, and every later one, newest first. -/
def State.versFrom (s : State) (pa floor : Nat) : List Ver :=
  (tget [] s.hist pa).filter (floor < ·.time) ++ [s.verAt pa floor]

/-- A version of a byte as a read may return it that has not seen less than its bound (05 R120): a free choice. -/
def State.readVer (s : State) (pa floor salt : Nat) : Ver :=
  let l := s.versFrom pa floor
  l.getD (Config.pick s.tick (2 * salt) l.length) (s.verAt pa floor)

/-- The newest version of a byte, above v, that one of the moments `ts` made; v where there is none. -/
def State.raised (s : State) (ts : List Nat) (pa : Nat) (v : Ver) : Ver :=
  ((tget [] s.hist pa).find? fun u => v.time < u.time && ts.contains u.time).getD v

/-- Versions of several bytes made whole (05 R123, R124): where one byte comes from a write, every other byte of that write comes
from it or from a later one. Each round may raise some; n rounds suffice for n bytes. -/
def State.whole (s : State) : Nat → List (Nat × Ver) → List (Nat × Ver)
  | 0, l => l
  | n + 1, l => s.whole n (l.map fun x => (x.1, s.raised (l.map (·.2.time)) x.1 x.2))

/-- The versions an access of n bytes at va returns: each byte one that its own bound permits, and, when the access is naturally
aligned, no write in part (05 R114, R120, R123, R124). -/
def State.readAccess (s : State) (floor : Nat → Nat) (va : Nat) (pas : List Nat) (salt : Nat) : List Ver :=
  let l := (pas.zip (List.range pas.length)).map fun x => (x.1, s.readVer x.1 (floor x.1) (salt + x.2))
  (if va % pas.length = 0 then s.whole pas.length l else l).map (·.2)

/-- The same for a read of context c with a clock (05 R120). -/
def State.threadRead (s : State) (c : Nat) (clk : Clock) (va : Nat) (pas : List Nat) (salt : Nat) : List Ver :=
  s.readAccess (s.floorOf c clk) va pas salt

/-- A read that takes no part in causal order (05 R113): values held at a moment or since. -/
def State.rangeRead (s : State) (moment va : Nat) (pas : List Nat) (salt : Nat) : List Ver :=
  s.readAccess (fun pa => max moment (s.cutAt pa)) va pas salt

/-- What a thread has obtained by a read: its clock joins the clocks of the writes read, and it reads nothing older
of those bytes again (05 R118, R120, R121). Of the vectors R118 allows it joins the least: DESIGN CHOICE, log entry 86. -/
def State.observe (s : State) (c : Nat) (pas : List Nat) (vs : List Ver) : State :=
  s.setCtx c fun k => { k with
    clock := vs.foldl (fun x v => x.join v.clock) k.clock
    seen := (pas.zip vs).foldl (fun t (pa, v) => if tget 0 t pa < v.time then tput t pa v.time else t) k.seen }

/-- The frontiers known at a die (05 R119). -/
def State.knownAt (s : State) (d : Nat) : Clock := tget {} s.known d

/-- Whether a read with this clock may be served for these bytes: each home knows the frontiers (05 R120). -/
def State.servable (s : State) (clk : Clock) (pas : List Nat) : Bool :=
  pas.all fun pa => clk.le (s.knownAt (homeDie pa))

/-- The last value in coherence order (05 R120), with its write. -/
def State.last (s : State) (pa : Nat) : Ver :=
  match tget [] s.hist pa with
  | v :: _ => v
  | [] => ⟨s.peek pa, 0, 0, 0, {}, .none⟩

/-! ### Writes -/

/-- A numbered write of context c's die takes the next number and the thread's clock, which it raises (05 R117,
R118). -/
def State.newWrite (s : State) (c : Nat) (parts : List WPart) (growing : Bool) : State :=
  let d := dieOf (coreOf c)
  let n := s.issued.at d + 1
  let clk := (s.ctx c).clock.set d n
  { s.setCtx c fun k => { k with clock := clk, wic := k.wic + 1 } with
    issued := s.issued.set d n
    writes := s.writes ++ [⟨Fin.ofNat 4 d, n, clk, c, parts, growing, (s.ctx c).wic + 1⟩] }

/-- Whether the homes of these bytes may apply a write of a die with a clock (05 R119): every other die's frontier known there
covers the clock. -/
def State.applicableAt (s : State) (die : Nat) (clk : Clock) (pas : List Nat) : Bool :=
  pas.all fun pa => [0, 1, 2, 3].all fun e => e = die || clk.at e ≤ (s.knownAt (homeDie pa)).at e
/-- The same for a write in flight. -/
def State.applicable (s : State) (w : Write) (pas : List Nat) : Bool := s.applicableAt w.die.val w.clock pas

/-- The bytes an integer atomic leaves, at n bytes: the new value from the old one m and the operand v (08 R191). -/
def rmwNat (f : Rmw) (n m v : Nat) : Nat :=
  let b := 8 * n
  match f with
  | .add => (m + v) % 2 ^ b
  | .and => m &&& v
  | .or => m ||| v
  | .xor => m ^^^ v
  | .min => if sint b m ≤ sint b v then m else v
  | .max => if sint b m ≤ sint b v then v else m
  | .minn => Nat.min m v
  | .maxn => Nat.max m v
  | .swap | .cas | .fadd _ _ _ => v

/-- The time of an application: each one is later than all before it. -/
def State.stamp (s : State) : State := { s with time := s.time + 1 }

/-- What a write comes to in the stripes of its bytes (17 R325): a data line that is uncorrectable is rebuilt and rewritten, and
reported; a parity line that is uncorrectable is recomputed; and a stripe of which two lines are unreadable is reported. The reports
are of the home's first core (log entry 91). -/
def State.wroteLines (s : State) (pas : List Nat) : State :=
  (((pas.filter fun pa => region pa = .main).map fun pa => (stripe pa, dataStack pa)).eraseDups).foldl (fun t x =>
    let core := 40 * (x.2 / 2)
    if 1 < t.deadLines x.1 then t.telemetry core 0 Code.eccUncorr { va := word (1792 * x.1) }
    else if (x.2, x.1) ∈ t.badLines && (x.2, channel x.1) ∉ t.deadChannels then
      { t with badLines := t.badLines.filter (· ≠ (x.2, x.1)) }.telemetry core 0 Code.eccUncorr
        { va := word (256 * (7 * x.1 + (x.2 + 7 - parityStack x.1) % 8)) }
    else { t with badLines := t.badLines.filter (· ≠ (parityStack x.1, x.1)) }) s

/-- Bytes applied at their home in one step, as versions of one write (05 R119, R123). -/
def State.applyBytes (s : State) (pas : List Nat) (bs : List Byte) (die : Fin 4) (num : Nat) (clk : Clock) (tag : Tag) :
    State :=
  let s := s.stamp
  ((pas.zip bs).foldl (fun s (pa, b) => s.writeByte pa ⟨b, s.time, die, num, clk, tag⟩) s).wroteLines pas

/-- A thread that has made a write reads nothing older of those bytes (05 R120). -/
def State.made (s : State) (c : Nat) (pas : List Nat) : State :=
  s.setCtx c fun k => { k with seen := pas.foldl (fun t pa => tput t pa s.time) k.seen }

/-- The counted stores of a context that a trap has frozen, or CLAIM has saved, and that have still something to perform
(15 R281, R282): no wait of the handler is for them (log entry 27). -/
def State.heldStores (s : State) (c : Nat) : List Nat :=
  let k := s.ctx c
  (((if k.frozen then k.vq else []) ++ k.claims ++ k.mclaims).filter fun e =>
    e.stores ≠ 0 && (!e.numbered || s.writes.any fun w => w.ctx = c && w.id = e.stores && w.growing)).map (·.stores)

/-- Whether a vector store in flight stands still: its thread is saved, or its word is frozen or claimed; and all it has
performed is applied. It holds no frontier back; what its clock covers waits for it where the two meet
(`State.stoppedAhead`, log entry 27). -/
def State.idleWrite (s : State) (w : Write) : Bool :=
  w.growing && w.parts.isEmpty && (1000 ≤ w.ctx || w.id ∈ s.heldStores w.ctx)

/-- The frontier of die d: the largest n such that every numbered write of d up to n has been applied (05 R119). -/
def State.frontier (s : State) (d : Nat) : Nat :=
  s.writes.foldl (fun m w => if w.die.val = d && !s.idleWrite w then min m (w.num - 1) else m) (s.issued.at d)

/-- Die d recomputes its frontier (05 R119), which never goes back. -/
def State.advanceFrontier (s : State) (d : Nat) : State :=
  { s with known := tput s.known d ((s.knownAt d).set d (max ((s.knownAt d).at d) (s.frontier d))) }

/-- Whether the first n counted stores of a context are acknowledged (02 R33), those of `skip` apart: none of them is in
flight, in a queue, or among the words of a claim area or an image. -/
def State.ackedBut (s : State) (c n : Nat) (skip : List Nat) : Bool :=
  let k := s.ctx c
  let done := fun (e : VEntry) => e.stores = 0 || n < e.stores || e.stores ∈ skip
  (s.writes.all fun w => w.ctx ≠ c || n < w.id || w.id ∈ skip) &&
    (k.vq ++ k.opened ++ k.claims ++ k.mclaims).all done &&
    s.parts.all fun p => p.2.images.all fun i => i.ctx ≠ c || (i.words ++ i.claims ++ i.mclaims).all done
def State.ackedTo (s : State) (c n : Nat) : Bool := s.ackedBut c n []

/-- The counted stores of a context that the images of its saved threads hold (log entry 29). -/
def State.savedStores (s : State) (c : Nat) : Nat :=
  (s.parts.flatMap fun p => (p.2.images.filter (·.ctx = c)).flatMap fun i =>
    (i.words ++ i.claims ++ i.mclaims).filter fun (e : VEntry) => e.stores ≠ 0).length

/-- Whether every earlier counted store of the issuing thread is acknowledged (02 R33), those it holds frozen apart. -/
def State.quiet (s : State) : Bool := s.me.wdc + (s.heldStores s.cur).length + s.savedStores s.cur = s.me.wic

/-- A context that stands for no thread: reads made for it obey no thread's floors. -/
def noCtx : Nat := 640

/-- A write the device makes at once on behalf of a thread or launch, numbered on a die, with a clock (02 R30, R31,
05 R122): applied, acknowledged, and within the die's frontier when nothing earlier is in flight. -/
def State.deviceWrite (s : State) (die : Nat) (pas : List Nat) (bs : List Byte) (clk : Clock) : State :=
  let n := s.issued.at die + 1
  let s := { s with issued := s.issued.set die n }
  (s.applyBytes pas bs (Fin.ofNat 4 die) n (clk.set die n) .none).advanceFrontier die

/-- Whether two accesses have a byte in common (07 R170). -/
def overlaps (a b : List Nat) : Bool := a.any (· ∈ b)

/-- The bytes of a write of context c not yet applied (05 R120: a thread waits for its own writes). -/
def State.pending (s : State) (c : Nat) : List Nat :=
  s.writes.foldl (fun l w => if w.ctx = c then l ++ w.parts.flatMap (fun p => p.locs.map s.visible) else l) []

/-- The trap a failed translation of a thread makes (05 R111, 17 R317), with the access kind (18 R330); 0 is none: the page is in the
move (17 R271). -/
def Tr.code : Tr → Nat
  | .moving => 0
  | .absent => Code.pageAbsent
  | .failed c _ => c
  | _ => Code.pageAccess

/-- The detail of that trap (18 R330): the address with the access kind; of a walk that has failed the address or the link. -/
def Tr.detail (t : Tr) (va : Word) (kind : Kind) (opnd : Nat) : Detail :=
  match t with
  | .failed c d => if c = Code.link then { d0 := word d } else { va := va, d0 := word d }
  | _ => { opnd := opnd, va := va, d0 := word kind.code }

/-- The context blocks on its word (02 R52); the word stands at pc. -/
def State.block (s : State) (stall : Fin 4) (w : Wait) : State := s.setMe fun c => { c with wait := some w, ws := stall }

/-- A page trap of a scalar word of the issuing context, with the lines that its walk has rebuilt reported. Of a page in the move the
word waits (17 R271). -/
def State.pageTrap (s : State) (t : Tr) (va : Word) (kind : Kind) (opnd : Nat) : Out :=
  match t with
  | .moving => .next (s.block 0 .retry)
  | _ => .next ((s.walked (coreOf s.cur) (s.partOf (coreOf s.cur)) va.toNat).trap t.code (t.detail va kind opnd))

end Sys2Proof.Machine
end

