-- ==== Sys2Proof/Machine/Mmio.lean ====
section
/-! DEFINITION. Mmio: the device control region (17 R315): the scheduling block (16 R294 to R297, R301), the
migration block (17 R327), the partition block (19 R353, R354), the fabric block (R352), the power block (R363)
and BRCTL (R357). A store keeps a field that software may not write (00 R5). -/

namespace Sys2Proof.Machine

/-- A dword with only the fields that `mask` names, a write to the others being ignored (00 R5). -/
def keep (v mask : Word) : Word := v &&& mask

/-- A launch that has been made and is not complete (16 R300). -/
def Launch.live (l : Launch) : Bool := !l.done
/-- The launches of queue q of a partition that are not complete, with their ids (16 R300). -/
def Part.inQueue (p : Part) (q : Nat) : List (Nat × Launch) := p.launches.filter fun e => e.2.queue = q && e.2.live
/-- Whether an area of the pre-emption pool holds a saved thread (16 R296). -/
def Part.poolUsed (p : Part) : Bool := p.images.any (·.pool.isSome)

/-- A store to a dword of queue control bytes (16 R295): EN and PRI of eight queues. What a launch of one of them has gained by ageing
(02 R53) it keeps above the new PRI, by which its later tasks are generated. -/
def State.qctlWrite (s : State) (p off : Nat) (v : Word) : State :=
  s.setPart p fun q =>
    let new := (List.range 8).foldl (fun t i => tset 0 t (off / 8 * 8 + i) (BitVec.ofNat 8 (fldW v (8 * i) 8 &&& 0x83))) q.qctl
    let pri := fun (t : Table (BitVec 8)) (l : Launch) => (tget 0 t l.queue).toNat % 4
    { q with
      qctl := new
      launches := q.launches.map fun x => (x.1, if x.2.live then { x.2 with eff := min 3 (pri new x.2 + (x.2.eff - pri q.qctl x.2)) } else x.2) }

/-- A store to PPB or PPC (16 R296). A thread that was to be saved into an area that the pool no longer has goes on (R306). -/
def State.poolWrite (s : State) (p off : Nat) (v : Word) : State :=
  let q := s.part p
  let ppb := if off = 0x40 then keep v 0x0000FFFFFFFFF000 else q.ppb
  let ppc := if off = 0x48 then keep v 0xFF else q.ppc
  if q.poolUsed || (0 < ppc.toNat && !q.inCarve ppb.toNat (ppc.toNat * 81920)) then s
  else
    let lost := fun (r : SaveReq) => match r.pool with | some i => decide (ppc.toNat ≤ i) | none => false
    (s.coresOf p).foldl (fun t c => (ctxsOf c).foldl (fun t x =>
      if (t.ctx x).saving.any lost then t.setCtx x fun k => { k with saving := none } else t) t)
      (s.setPart p fun q => { q with ppb := ppb, ppc := ppc })

/-- The sizes a ring may have (16 R297). -/
def ringSizes : List Nat := [0, 32, 64, 128, 256, 512, 1024, 2048, 4096]

/-- A store to RING0 or RING1 of the partition's i-th core (16 R297). -/
def State.ringWrite (s : State) (p off : Nat) (v : Word) : State :=
  match (s.coresOf p)[(off - 0x100) / 16]? with
  | none => s
  | some core =>
    let q := s.part p
    let r0 := if off % 16 = 0 then keep v 0x0000FFFFFFFFFF80 else tget 0 q.ring0 core
    let r1 := if off % 16 = 8 then keep v 0x1FFF else tget 0 q.ring1 core
    if (s.core core).ring ≠ [] || r1.toNat ∉ ringSizes || (0 < r1.toNat && !q.inCarve r0.toNat (128 * r1.toNat)) then s
    else s.setPart p fun q => { q with ring0 := tset 0 q.ring0 core r0, ring1 := tset 0 q.ring1 core r1 }

/-- A store to QJOBq (16 R301). -/
def State.qjobWrite (s : State) (p off : Nat) (v : Word) : State :=
  let q := (off - 0xC00) / 8
  if (s.part p).inQueue q ≠ [] then s
  else s.setPart p fun r => { r with qjob := tset 0 r.qjob q (BitVec.ofNat 32 v.toNat) }

/-- A store to JCLOSE (16 R301). -/
def State.jcloseWrite (s : State) (p : Nat) (v : Word) : State :=
  s.setPart p fun q => { q with closedJobs := if fldW v 0 32 ∈ q.closedJobs then q.closedJobs else fldW v 0 32 :: q.closedJobs }

/-- Whether a slot's operation is a migration that is WAITING, RUNNING or PARKED. -/
def Slot.migrating (t : Slot) : Bool :=
  (t.op.kind = .migrOut || t.op.kind = .migrIn) && (t.st = .waiting || t.st = .running || t.st = .parked || t.st = .orphaned)
/-- Whether a migration of the partition is in flight (17 R327). -/
def State.migrating (s : State) (p : Nat) : Bool :=
  (s.coresOf p).any fun c => (s.core c).slots.any fun t => t.2.migrating

/-- Whether two ranges have a byte in common. -/
def rangesMeet (a n b m : Nat) : Bool := a < b + m && b < a + n && 0 < n && 0 < m

/-- A store to the migration block (17 R327). -/
def State.migrationBlockWrite (s : State) (p off : Nat) (v : Word) : State :=
  if s.migrating p then s
  else if off = 0 || off = 8 then
    let tb := if off = 0 then keep v 0x0000FFFFFFFF0000 else (s.part p).tierb
    let ts := if off = 8 then keep v 0x1FFFFFFF else (s.part p).tiers
    let n := ts.toNat * 65536
    let out := 0 < n && !(0x200000000000 ≤ tb.toNat && tb.toNat + n ≤ 0x300000000000)
    let meets := s.parts.any fun e => e.1 ≠ p && rangesMeet tb.toNat n (fldW e.2.tierb 16 32 * 65536) (fldW e.2.tiers 0 29 * 65536)
    if out || meets then s else s.setPart p fun q => { q with tierb := tb, tiers := ts }
  else if 0x10 ≤ off ∧ off < 0x50 then
    let i := (off - 0x10) / 16
    if off % 16 = 0 then s.setPart p fun q => { q with fsb := tset 0 q.fsb i (keep v 0x0000FFFFFFFFFFF8) }
    else s.setPart p fun q => { q with fsn := tset 0 q.fsn i v }
  else s

/-- PSTATE.ST of a partition (19 R353): 0 empty, 1 running, 2 parked, 3 stopped. -/
def State.pstate (s : State) (p : Nat) : Nat :=
  let q := s.part p
  if !q.composed || q.qmask = 0 then 0 else if q.stopped then 3 else if q.parked then 2 else 1

/-- A store to CARVEB or CARVES (19 R353). -/
def State.carveWrite (s : State) (p off : Nat) (v : Word) : State :=
  let q := s.part p
  let cb := if off = 0 then keep v 0x0000FFFFC0000000 else q.carveb
  let cs := if off = 8 then keep v 0x3FF else q.carves
  let n := cs.toNat * 2 ^ 30
  let meets := s.parts.any fun e => e.1 ≠ p && rangesMeet cb.toNat n e.2.carveBase e.2.carveSize
  if s.pstate p = 1 || s.pstate p = 2 || 896 < cs.toNat || 0xE000000000 < cb.toNat + n || meets then s
  else s.setPart p fun q => { q with carveb := cb, carves := cs }

/-- TRAIN of a fabric port (19 R352): a failed port is retrained; which module stands at the far end is free (log entry 46). -/
def State.portTrain (s : State) (n : Nat) : State :=
  let l := tget {} s.links (16 + n)
  if l.failed || !l.up then { s with links := tput s.links (16 + n) { l with failed := false, up := true, held := [], waiting := [], early := [], replayAsked := none, asks := 0, peer := Config.pick s.tick (2 * n) 1024 } }
  else s

/-- A store to an island's operating point (19 R363). Bits [7:3] are reserved. -/
def State.oppWrite (s : State) (n : Nat) (v : BitVec 8) : State :=
  let o := v &&& 7
  let i := n % 32
  let d := n / 32
  let quad := 10 * d + (if i < 10 then i else i - 10)
  let idle := (span (4 * quad) 4).all fun c => (s.core c).halted
  if s.woad.boot = .safe || 128 ≤ n || o = 7 || (o = 6 && !(i < 20 && idle)) || (d = 0 && 28 ≤ i && o ≠ 0) then s
  else { s with power := { s.power with opp := tset 0 s.power.opp n o, asked := tset 0 s.power.asked n (if 10 ≤ i ∧ i < 20 ∧ o.toNat < s.power.limit then BitVec.ofNat 8 s.power.limit else o) } }

/-- A slot that the firmware thread leaves (02 R30, log entry 23). -/
def Slot.leave (t : Slot) : Slot :=
  if t.owner ≠ some 0 then t
  else match t.st with
    | .done | .faulted | .cancelled => { t with st := .free, owner := none, detached := false }
    | x => { t with left := x, st := .orphaned, owner := none }

/-- GO (19 R357): the firmware thread ends, and the part enters RUN. -/
def State.brctlGo (s : State) : State :=
  if s.woad.boot ≠ .config then s
  else
    let s := { s with
      woad := { s.woad with boot := .run }
      writes := s.writes.map fun (w : Write) => if w.ctx = 0 then { w with growing := false } else w
      cores := s.cores.map fun (c : Nat × Core) => (c.1, { c.2 with slots := c.2.slots.map fun (e : Nat × Slot) => (e.1, e.2.leave) }) }
    let s := s.setCtx 0 fun k => { ({} : Ctx) with
      wic := k.wic, clock := k.clock
      wdc := k.wdc + ((k.vq ++ k.opened ++ k.claims ++ k.mclaims).filter fun (e : VEntry) => e.stores ≠ 0 && !e.numbered).length }
    s.setCore 0 fun k => { k with halted := s.partOf 0 = 40 }

/-- FAIL (19 R357). -/
def State.brctlFail (s : State) (detail : BitVec 16) : State :=
  if s.woad.boot ≠ .config then s
  else { s with woad := { s.woad with detail := detail } }.enterSafe 5 0 0

/-- A store to a register that has no event of its own (00 R5): HLW, MODN and the routes. -/
def State.registerWrite (s : State) (pa : Nat) (v : Word) : State :=
  let off := pa % 0x10000
  let p := pa / 0x10000 % 0x100
  match pa / 0x1000000 with
  | 0xF00003 => if off = 0x10 ∧ p < 40 then s.setPart p fun q => { q with hlw := keep v 0xF } else s
  | 0xF00004 =>
    if p ≠ 0 then s
    else if off = 0 then { s with gang := BitVec.ofNat 32 (fldW v 10 32), modNum := BitVec.ofNat 10 v.toNat }
    else if 0x100 ≤ off ∧ off < 0x900 then
      { s with routes := (List.range 4).foldl (fun t i =>
          tset 0 t ((off - 0x100) / 8 * 4 + i) (BitVec.ofNat 4 (fldW v (16 * i) 4))) s.routes }
    else s
  | _ => s

/-- A store of a dword to the device control region. -/
def State.mmioWrite (s : State) (pa : Nat) (v : Word) : State :=
  let off := pa % 0x10000
  let p := pa / 0x10000 % 0x100
  match pa / 0x1000000 with
  | 0xF00001 =>
    if 40 ≤ p then s
    else if off < 0x40 then s.qctlWrite p off v
    else if off = 0x40 ∨ off = 0x48 then s.poolWrite p off v
    else if 0x100 ≤ off ∧ off < 0xC00 then s.ringWrite p off v
    else if 0xC00 ≤ off ∧ off < 0xE00 then s.qjobWrite p off v
    else if off = 0xE00 then s.jcloseWrite p v
    else s
  | 0xF00002 => if p < 40 then s.migrationBlockWrite p off v else s
  | 0xF00003 => if 40 ≤ p then s else if off = 0 ∨ off = 8 then s.carveWrite p off v else s.registerWrite pa v
  | 0xF00004 =>
    if p = 0 ∧ 0x10 ≤ off ∧ off < 0x90 ∧ off % 8 = 0 then (if bitW v 17 then s.portTrain ((off - 0x10) / 8) else s)
    else s.registerWrite pa v
  | 0xF00006 =>
    if pa % 0x1000000 ≠ 0 ∨ s.woad.boot ≠ .config then s
    else
      let s := { s with woad := { s.woad with detail := BitVec.ofNat 16 (fldW v 16 16) } }
      if fldW v 0 8 = 1 then s.brctlGo
      else if fldW v 0 8 = 2 then s.brctlFail (BitVec.ofNat 16 (fldW v 16 16))
      else s
  | _ => s

/-- A load of a dword from the device control region; reserved places read 0 (00 R5). -/
def State.mmioRead (s : State) (pa : Nat) : Word :=
  let off := pa % 0x10000
  let p := pa / 0x10000 % 0x100
  let q := s.part p
  match pa / 0x1000000 with
  | 0xF00001 =>
    if 40 ≤ p then 0
    else if off < 0x40 then word (leNat ((span off 8).map fun i => tget 0 q.qctl i))
    else if off = 0x40 then q.ppb
    else if off = 0x48 then q.ppc
    else if 0x100 ≤ off ∧ off < 0xC00 then
      match (s.coresOf p)[(off - 0x100) / 16]? with
      | none => 0
      | some c => if off % 16 = 0 then tget 0 q.ring0 c
        else tget 0 q.ring1 c ||| (if (s.core c).ring ≠ [] then 0x8000000000000000#64 else 0)
    else if 0xC00 ≤ off ∧ off < 0xE00 then word (tget 0 q.qjob ((off - 0xC00) / 8)).toNat
    else 0
  | 0xF00002 =>
    if 40 ≤ p then 0
    else if off = 0 then q.tierb
    else if off = 8 then q.tiers
    else if 0x10 ≤ off ∧ off < 0x50 then
      (if off % 16 = 0 then tget 0 q.fsb ((off - 0x10) / 16) else tget 0 q.fsn ((off - 0x10) / 16))
    else 0
  | 0xF00003 =>
    if 40 ≤ p then 0
    else if off = 0 then q.carveb else if off = 8 then q.carves else if off = 0x10 then q.hlw
    else if off = 0x18 then word (s.pstate p) else 0
  | 0xF00004 =>
    if p ≠ 0 then 0
    else if off = 0 then word (s.gang.toNat * 1024 + s.modNum.toNat)
    else if 0x10 ≤ off ∧ off < 0x90 ∧ off % 8 = 0 then
      let l := tget {} s.links (16 + (off - 0x10) / 8)
      word ((if l.up && !l.failed then 2 ^ 16 else 0) + l.peer % 1024)
    else if 0x100 ≤ off ∧ off < 0x900 then
      word ((List.range 4).foldl (fun n i => n + (tget 0 s.routes ((off - 0x100) / 8 * 4 + i)).toNat * 2 ^ (16 * i)) 0)
    else 0
  | 0xF00006 =>
    if pa % 0x1000000 ≠ 0 ∨ s.woad.boot ≠ .config then 0 else word (s.woad.detail.toNat * 65536)
  | _ => 0

/-- Whether the device control region takes an access: naturally aligned dwords at S or M in the scheduling and
migration blocks and at M elsewhere, single bytes in the power block (16 R294, 19 R352, R353, R357, R363). -/
def mmioAllowed (pa n : Nat) (lvl : Level) : Bool :=
  match pa / 0x1000000 with
  | 0xF00001 | 0xF00002 => n = 8 && pa % 8 = 0 && lvl ≠ .u
  | 0xF00005 => n = 1 && lvl = .m
  | _ => n = 8 && pa % 8 = 0 && lvl = .m

/-- The operating point of an island as its byte shows it (19 R363): the one that firmware wrote, or for islands 10..19 the lower one that
Woad's limit sets; when the limit goes, firmware's stands again (log entry 103). -/
def Power.shown (w : Power) (n : Nat) : Nat :=
  let o := (tget 0 w.opp n).toNat
  if 10 ≤ n % 32 ∧ n % 32 < 20 then max o w.limit else o

/-- A load of n bytes from the device control region. -/
def State.mmioLoad (s : State) (pa : Nat) : Word :=
  if pa / 0x1000000 = 0xF00005 then
    (if pa % 0x1000000 < 128 then word (s.power.shown (pa % 0x1000000)) else 0)
  else s.mmioRead pa

/-- A store to the device control region. -/
def State.mmioStore (s : State) (pa : Nat) (v : Word) : State :=
  if pa / 0x1000000 = 0xF00005 then s.oppWrite (pa % 0x1000000) (BitVec.ofNat 8 v.toNat) else s.mmioWrite pa v

end Sys2Proof.Machine
end

