-- ==== Sys2Proof/Machine/Operands.lean ====
section
/-! DEFINITION. Operands: the operand forms of vector words: geometry (03 R56), length, mask and the element groups
a word processes (R65 to R67), element access (R79), and where an element lies in memory (10 R237, R243). -/

namespace Sys2Proof.Machine

/-- The format of VT (03 R62); the refused codes never stand there (R60). -/
def fmtOf (vt : Word) : Fmt := (Fmt.ofCode (fldW vt 0 5)).getD .f32

/-- The x extent X = 256 ÷ w (03 R56). -/
def xExtent (w : Nat) : Nat := 256 / w
/-- Elements of a brick, 64·X, and of an element group (03 R56). -/
def brickElems (w : Nat) : Nat := 64 * xExtent w
def groupElems (w : Nat) : Nat := 8 * xExtent w

/-- coord(e) (03 R79). -/
def coord (w e : Nat) : Nat × Nat × Nat := (e % xExtent w, e / xExtent w % 8, e / (8 * xExtent w))
/-- The index of a coordinate (03 R56). -/
def elemAt (w x y z : Nat) : Nat := x + xExtent w * (y + 8 * z)

/-- elem(b, e) (03 R79). -/
def elem (b : BitVec 16384) (w e : Nat) : Nat := (b.extractLsb' (w * e) w).toNat
/-- elem(b, e) := v: those bits only (03 R79). -/
def setElem (b : BitVec 16384) (w e v : Nat) : BitVec 16384 :=
  let hole : BitVec 16384 := BitVec.ofNat 16384 ((2 ^ w - 1) * 2 ^ (w * e))
  (b &&& ~~~hole) ||| BitVec.ofNat 16384 (v % 2 ^ w * 2 ^ (w * e))

/-- One group of a brick: the 256 bytes of plane g (03 R56). -/
def groupOf (b : BitVec 16384) (g : Nat) : BitVec 2048 := b.extractLsb' (2048 * g) 2048
def setGroup (b : BitVec 16384) (g : Nat) (v : BitVec 2048) : BitVec 16384 :=
  let hole : BitVec 16384 := BitVec.ofNat 16384 ((2 ^ 2048 - 1) * 2 ^ (2048 * g))
  (b &&& ~~~hole) ||| BitVec.ofNat 16384 (v.toNat * 2 ^ (2048 * g))

/-- One group's bits of a mask, of m elements. -/
def maskGroup (b : BitVec 4096) (m g : Nat) : BitVec 2048 := BitVec.ofNat 2048 (fld b.toNat (m * g) m)
def setMaskBit (b : BitVec 4096) (e : Nat) (v : Bool) : BitVec 4096 :=
  let bit : BitVec 4096 := BitVec.ofNat 4096 (2 ^ e)
  if v then b ||| bit else b &&& ~~~bit

/-- The fields of VL (03 R61). -/
def vlBox (vl : Word) : Bool := bitW vl 63
def vlN (vl : Word) : Nat := fldW vl 0 13
def vlLX (vl : Word) : Nat := fldW vl 0 8
def vlLY (vl : Word) : Nat := fldW vl 8 4
def vlLZ (vl : Word) : Nat := fldW vl 12 4

/-- box() (03 R65). -/
def boxOf (w : Nat) (vl : Word) : Nat × Nat × Nat :=
  if vlBox vl then (vlLX vl, vlLY vl, vlLZ vl) else (xExtent w, 8, 8)

/-- inVL(e) (03 R65). -/
def inVL (w : Nat) (vl : Word) (e : Nat) : Bool :=
  if vlBox vl then
    let (x, y, z) := coord w e
    x < vlLX vl && y < vlLY vl && z < vlLZ vl
  else e < vlN vl

/-- The mask half of active(e) (03 R65). -/
def maskedIn (vm : Word) (mask : BitVec 4096) (e : Nat) : Bool :=
  if bitW vm 3 then mask.getLsbD e != bitW vm 4 else true

/-- active(e) (03 R65), with the mask register VM.MREG names. -/
def active (w : Nat) (vl vm : Word) (mask : BitVec 4096) (e : Nat) : Bool := inVL w vl e && maskedIn vm mask e

/-- The length a vector word runs under is within the format (03 R65). -/
def vlFits (w : Nat) (vl : Word) : Bool :=
  if vlBox vl then vlLX vl ≤ xExtent w else vlN vl ≤ brickElems w

/-- The elements of group g. -/
def groupSpan (w g : Nat) : List Nat := span (g * groupElems w) (groupElems w)

/-- The groups that hold an element inside VL (03 R67, R76). -/
def groupsInVL (w : Nat) (vl : Word) : List Nat := (List.range 8).filter fun g => (groupSpan w g).any (inVL w vl)

/-- The groups a word processes (03 R67): all that hold an element inside VL, or with VM.DT = 1 those that hold an
active one. -/
def groupList (w : Nat) (vl vm : Word) (mask : BitVec 4096) : List Nat :=
  if bitW vm 5 then (List.range 8).filter fun g => (groupSpan w g).any (active w vl vm mask)
  else groupsInVL w vl

/-- A pitch of VS (03 R62): 21 bits, signed. -/
def pitch (vs : Word) (i : Nat) : Int := sint 21 (fldW vs (21 * i) 21)

/-- eaddr(e) (10 R237): the byte address, and for a 4-bit format the nibble. -/
def eaddr (w : Nat) (vl vs xbase xi : Word) (e : Nat) : Word × Option Nat :=
  let (x, y, z) := coord w e
  let off : Int := if vlBox vl then x * pitch vs 0 + y * pitch vs 1 + z * pitch vs 2 else e * pitch vs 0
  if w = 4 then (xbase + xi + BitVec.ofInt 64 (off.fdiv 2), some (off.fmod 2).toNat)
  else (xbase + xi + BitVec.ofInt 64 (off * (w / 8 : Nat)), none)

/-- The address of element e of an indexed word (10 R243). -/
def iaddr (w : Nat) (xbase : Word) (bi : BitVec 16384) (e : Nat) : Word := xbase + word (elem bi w e * (w / 8))

/-- VMT.SPACE and VMT.PWIN (03 R62). -/
def vmtSpace (vmt : Word) : Nat := fldW vmt 0 2
def vmtWin (vmt : Word) : Nat := fldW vmt 2 4

/-- Whether a vector word touches memory, and whether it stores (07 R167, 10 R240). -/
def VOp.isMem : VOp → Bool
  | .ld .. | .st .. | .ldi .. | .sti .. | .stia .. | .lda .. | .gathb .. | .scld .. | .ald .. | .waitv .. => true
  | _ => false
def VOp.isStore : VOp → Bool
  | .st .. | .sti .. | .stia .. => true
  | _ => false
/-- The loose words (05 R116). -/
def VOp.isLoose : VOp → Bool
  | .ld .cross .. | .st .cross .. => true
  | _ => false

/-- The space a vector memory word reaches (05 R110): 0 global, 1 scratchpad, 2 parameter window. -/
def VEntry.space (e : VEntry) : Nat :=
  match e.op with
  | .ld .lane .. | .ld .cross .. | .st .lane .. | .st .cross .. => 1
  | .ald .. | .waitv .. => 0
  | _ => vmtSpace e.ctl.vmt

/-- The format of a queued word. -/
def VEntry.fmt (e : VEntry) : Fmt := fmtOf e.ctl.vt
/-- Its element width. -/
def VEntry.w (e : VEntry) : Nat := e.fmt.width

/-- The address of element i of a queued memory word, with its nibble. -/
def VEntry.addrOf (e : VEntry) (bi : BitVec 16384) (i : Nat) : Word × Option Nat :=
  match e.op with
  | .ldi .. | .sti .. | .stia .. | .gathb .. => (iaddr e.w e.xa bi i, none)
  | .scld .. => (e.xa + word i * e.xb, none)
  | .ald .. => (e.xa, none)
  | .waitv .. => (word (elem bi e.w i), none)
  | _ => eaddr e.w e.ctl.vl e.ctl.vs e.xa e.xi i

/-- Bytes one element of a word touches. -/
def VEntry.bytes (e : VEntry) : Nat :=
  match e.op with
  | .scld .. => 1
  | .ald .. => 72
  | _ => if e.w = 4 then 1 else e.w / 8

/-- The brick that holds the indices or addresses of a word. -/
def VOp.indexReg : VOp → Nat
  | .ldi _ _ i | .sti _ _ i | .stia _ _ i | .gathb _ _ i _ | .waitv _ i _ _ => i.val
  | _ => 0

/-- The window of a launch (16 R298): its virtual base and its bound size, 0 when unbound. -/
def Launch.window (l : Launch) (i : Nat) : Word × Nat :=
  (l.windows.getD (2 * i) 0, fldW (l.windows.getD (2 * i + 1) 0) 0 32)

/-- The launch of the thread on context c. -/
def State.launchOf (s : State) (c : Nat) : Launch :=
  match (s.ctx c).thread with
  | none => {}
  | some t => tget {} (s.part t.part).launches t.lid

/-- The fields of a record that name element i and the operand (18 R330): ALIGN names the element, a page trap both, and
the others neither. -/
def Detail.atElem (d : Detail) (code i : Nat) : Detail :=
  if code = Code.align then { d with elem := i }
  else if code = Code.pageAbsent ∨ code = Code.pageAccess then { d with elem := i, opnd := 1 }
  else d

/-- The locations of n bytes at an address of a space, or the trap with its detail (05 R111 to R113). `lvl` is the
level of the access. -/
def State.locateIn (s : State) (c space win : Nat) (lvl : Level) (kind : Kind) (a : Word) (n : Nat) :
    Sum (List Loc) (Tr × Nat × Detail) :=
  let core := coreOf c
  match space with
  | 0 =>
    match s.locate core (s.partOf core) lvl kind true a n with
    | .inl ls => .inl ls
    | .inr (t, va) => .inr (t, t.code, t.detail va kind 0)
  | 1 =>
    if scratchBytes < a.toNat + n then .inr (.access, Code.pageAccess, { va := a, d0 := word kind.code })
    else .inl ((span a.toNat n).map fun o => .phys (windowAddr core o))
  | _ =>
    let (base, size) := (s.launchOf c).window win
    if size = 0 then .inr (.access, Code.paramUnbound, { d0 := word win, d1 := a })
    else if size < a.toNat + n then .inr (.access, Code.paramBound, { d0 := word win, d1 := a })
    else match s.locate core (s.partOf core) lvl kind true (base + a) n with
      | .inl ls => .inl ls
      | .inr (t, va) => .inr (t, t.code, t.detail va kind 0)

/-- The virtual address of an address of a space (05 R110): in a parameter window it is an offset. -/
def State.spaceVa (s : State) (c space win : Nat) (a : Word) : Word :=
  if space = 2 then ((s.launchOf c).window win).1 + a else a

/-- Whether a memory word's addresses come from a brick (10 R243). -/
def VOp.indexed : VOp → Bool
  | .ldi .. | .sti .. | .stia .. | .gathb .. | .waitv .. => true
  | _ => false

/-- The elements of a word that no length or mask governs (09 R234, 10 R247). -/
def VOp.ungoverned : VOp → Option (List Nat)
  | .scld .. => some (List.range 512)
  | .ald .. => some [0]
  | _ => none

/-- Whether a word has been probed, before a stop or since: its activity and its locations are fixed. -/
def VEntry.probed (e : VEntry) : Bool := (e.started || e.resumed) && !e.late

/-- The groups a queued word has still to process. -/
def State.groupsLeft (s : State) (c : Nat) (e : VEntry) : List Nat :=
  (if e.late then groupsInVL e.w e.ctl.vl
   else groupList e.w e.ctl.vl e.ctl.vm (if e.probed then e.act else (s.ctx c).mask (fldW e.ctl.vm 0 3))).drop e.prog

/-- The bytes of an element of a spilled image (03 R73). -/
def spillLocs (w core off x : Nat) : List Nat := span (windowAddr core (off + w * x / 8)) (max 1 (w / 8))

/-- Whether a pair of link images holds a link that is REMOTE or SPILL (03 R71). -/
def farLinks (xa xb : Word) : Bool := ([xa, xb] : List Word).any fun x => [13, 29, 45, 61].any fun b => fldW x b 3 = 4 || fldW x b 3 = 5

/-- Whether some link of a context leads away from its registers, or will once the NBSETs queued before a word with this icnt are
performed (03 R71, R72). -/
def Ctx.linksFar (k : Ctx) (icnt : Word) : Bool :=
  (k.links.any fun l => farLinks l.2.1 l.2.2) ||
    (k.vq ++ k.opened).any fun e => match e.op with | .nbset .. => e.icnt.toNat < icnt.toNat && farLinks e.xa e.xb | _ => false

/-- Whether an offset word may still read a byte of a spilled image that p holds of (03 R77, 07 R170): before it starts, any byte,
when links may lead there. -/
def State.spillTouches (s : State) (c : Nat) (e : VEntry) (p : Nat → Bool) : Bool :=
  if e.probed then
    (s.groupsLeft c e).any fun g => (groupSpan e.w g).any fun i => match tget .fill e.res i with
      | .spill core off x => (spillLocs e.w core off x).any p
      | _ => false
  else (s.ctx c).linksFar e.icnt

/-- Whether a queued word may still perform an access to a byte that p holds of (07 R170): a memory word, or an offset word that
reads spilled images (03 R77). A started word touches what its probe found; before that, every element inside VL may be active,
and an indexed word may touch any byte. -/
def State.entryTouches (s : State) (c : Nat) (e : VEntry) (p : Nat → Bool) : Bool :=
  if !e.op.isMem then (match e.op with | .off .. => s.spillTouches c e p | _ => false)
  else if e.space = 2 then false
  else if e.probed then
    match e.op.ungoverned with
    | some _ => e.locs.any fun l => l.2.any fun q => p (s.visible q)
    | none => (s.groupsLeft c e).any fun g => (groupSpan e.w g).any fun i => (tget [] e.locs i).any fun q => p (s.visible q)
  else if e.op.indexed then true
  else
    let es := match e.op.ungoverned with
      | some l => l
      | none => (List.range (brickElems e.w)).filter (inVL e.w e.ctl.vl)
    es.any fun i =>
      match s.locateIn c e.space 0 e.level .read (e.addrOf 0 i).1 e.bytes with
      | .inl ls => ls.any fun q => p (s.visible q)
      | .inr _ => false

/-- Whether groups still to land will read one of these bytes (07 R170); what they read of a parameter window overlaps nothing. -/
def State.landingTouches (s : State) (c : Nat) (pas : List Nat) : Bool :=
  (s.ctx c).landing.any fun l => l.entry.space ≠ 2 && (groupSpan l.entry.w l.group).any fun i => (tget [] l.entry.locs i).any fun q => s.visible q ∈ pas

/-- Whether the queued vector words of a context hold back a scalar access to these bytes (07 R170); none while the
vector side is frozen. -/
def State.vectorHolds (s : State) (c : Nat) (pas : List Nat) : Bool :=
  let k := s.ctx c
  s.landingTouches c pas || (!k.frozen && (k.vq ++ k.opened).any fun e => !e.op.isLoose && s.entryTouches c e (· ∈ pas))

/-- Whether a queued word has still to read memory with a clock (05 R121): a load, or an offset word with spilled neighbours. -/
def State.entryLoads (s : State) (c : Nat) (e : VEntry) : Bool :=
  !e.op.isStore && !e.op.isLoose && s.entryTouches c e fun _ => true

/-- Whether an earlier queued word has still to obtain a clock, with which a scalar access of the context is to be served (05
R121, log entry 13). -/
def State.loadsAhead (s : State) (c : Nat) : Bool :=
  let k := s.ctx c
  !k.frozen && (k.vq ++ k.opened).any (s.entryLoads c)

/-- The word of a numbered store that stands still (`State.idleWrite`): among the queued and claimed words of its context, or in
the image of its thread. -/
def State.stoppedEntry (s : State) (w : Write) : Option VEntry :=
  (if w.ctx < 1000 then (s.ctx w.ctx).vq ++ (s.ctx w.ctx).claims ++ (s.ctx w.ctx).mclaims
   else s.parts.flatMap fun p => (p.2.images.filter (1000 + ·.uid = w.ctx)).flatMap fun i => i.words ++ i.claims ++ i.mclaims).find?
    (·.stores = w.id)

/-- Whether a store that stands still, other than the context's own, and that a clock covers, has still to write one of these
bytes: what carries the clock waits for it there, as for its number in the frontier (05 R117, R119, R120, log entry 27). -/
def State.stoppedAhead (s : State) (c : Nat) (die : Option Nat) (clk : Clock) (pas : List Nat) : Bool :=
  s.writes.any fun w => s.idleWrite w && w.ctx ≠ c && some w.die.val ≠ die && w.num ≤ clk.at w.die.val &&
    match s.stoppedEntry w with
    | some e => s.entryTouches w.ctx e (· ∈ pas)
    | none => false

/-! ### Fences (05 R126, R127) -/

/-- The physical bytes a fence of a scope covers for a context (05 R127). -/
def fenceCovers (p : FenceScope) (c pa : Nat) : Bool :=
  match p with
  | .thread => false
  | .core => region pa = .window && windowCore pa = coreOf c
  | .die => homeDie pa = dieOf (coreOf c)
  | .package | .system => true

/-- The queued words before a fence: one issued in a handler leaves frozen and claimed words out (log entry 27). -/
def Ctx.fenceWords (k : Ctx) (f : Fence) : List VEntry :=
  (if f.handler then (if k.frozen then [] else k.vq ++ k.opened) else k.vq ++ k.opened ++ k.claims ++ k.mclaims).filter
    (·.icnt.toNat < f.icnt.toNat)

/-- Whether the thread's earlier numbered writes to covered bytes are acknowledged. -/
def State.fenceStores (s : State) (c : Nat) (f : Fence) : Bool :=
  s.writes.all fun w => w.ctx ≠ c || f.wic < w.id || (f.handler && s.idleWrite w) ||
    (!w.parts.isEmpty && w.parts.all fun q => q.locs.all fun l => !fenceCovers f.scope c (s.visible l))

/-- Whether its earlier loose writes to covered bytes are applied. -/
def State.fenceLoose (s : State) (c : Nat) (f : Fence) : Bool :=
  ((s.ctx c).loose.all fun l => f.icnt.toNat ≤ l.icnt.toNat || l.part.locs.all fun q => !fenceCovers f.scope c (s.visible q)) &&
    ((s.ctx c).fenceWords f).all fun e => !e.op.isLoose || !s.entryTouches c e (fenceCovers f.scope c)

/-- Whether its earlier vector words, of those that `sel` holds of, have performed their accesses to covered bytes. -/
def State.fenceVector (s : State) (c : Nat) (f : Fence) (sel : VEntry → Bool) : Bool :=
  ((s.ctx c).fenceWords f).all fun e => !sel e || !s.entryTouches c e (fenceCovers f.scope c)

/-- Whether a slot's operation writes another module or the capacity tier and is not terminal (05 R127). -/
def Slot.outbound (t : Slot) : Bool :=
  (t.op.kind = .migrOut || t.op.leaves) && (t.st = .waiting || t.st = .running || t.st = .parked || t.st = .orphaned)

/-- Whether every earlier access that a fence of its kind waits for, and that its scope covers, is performed (05 R126, R127). -/
def State.fenceMet (s : State) (c : Nat) (f : Fence) : Bool :=
  (f.scope ≠ .system || (s.core (coreOf c)).slots.all fun e => e.2.op.ctx ≠ c || f.order ≤ e.2.op.order || !e.2.outbound) &&
  match f.kind with
  | .loads => s.fenceVector c f (!·.op.isStore)
  | .stores => s.fenceStores c f && s.fenceVector c f fun e => e.op.isStore && !e.op.isLoose
  | .both | .loose => s.fenceStores c f && s.fenceLoose c f && s.fenceVector c f fun _ => true

/-- The classes of an access, for a fence (05 R126). -/
inductive Access where
  | load | store | loose
deriving DecidableEq, Repr

/-- Whether a fence that is not complete holds back the class of a later access to a byte that it covers. -/
def Fence.bars (f : Fence) (a : Access) : Bool :=
  match f.kind with
  | .loads | .both => true
  | .stores => a = .store
  | .loose => a = .loose || !f.numbered

/-- Whether an earlier access that a fence orders before one of class `a` has still to be performed on these bytes: so the fence
orders what the thread itself sees, whatever its scope (05 R127). -/
def State.fenceMeets (s : State) (c : Nat) (f : Fence) (a : Access) (pas : List Nat) : Bool :=
  let k := s.ctx c
  let hits := fun (l : List Loc) => l.any fun q => s.visible q ∈ pas
  let word := fun (e : VEntry) => match f.kind with
    | .loads => !e.op.isStore
    | .stores => a = .store && e.op.isStore && !e.op.isLoose
    | .both => true
    | .loose => e.op.isLoose || a = .loose
  (f.kind = .both || f.kind = .loose) && (k.loose.any fun l => l.icnt.toNat < f.icnt.toNat && hits l.part.locs) ||
    ((k.fenceWords f).any fun e => word e && s.entryTouches c e (· ∈ pas)) ||
    ((f.kind = .both || f.kind = .loose && a = .loose) &&
      s.writes.any fun w => w.ctx = c && w.id ≤ f.wic && w.parts.any fun p => hits p.locs)

/-- Whether a FENCE holds back an access of a context to these bytes, by a word with this icnt (05 R126, R127). In a handler
only its own fences do (log entry 27). -/
def State.fenceHolds (s : State) (c icnt : Nat) (a : Access) (pas : List Nat) : Bool :=
  let k := s.ctx c
  k.fences.any fun f => f.icnt.toNat ≤ icnt && (f.handler || !k.inTrap) &&
    ((!f.done && f.bars a && pas.any (fenceCovers f.scope c)) || s.fenceMeets c f a pas)

/-- Whether a FENCE that is not dropped comes after an access with this icnt and orders loads (05 R126). -/
def Ctx.fencedAfter (k : Ctx) (icnt : Nat) : Bool := k.fences.any fun f => icnt < f.icnt.toNat && f.kind ≠ .stores

/-- The FENCEs of the issuing context that hold back a word which takes or gives its clock as a whole. -/
def State.fenced (s : State) : Bool := s.me.fences.any fun f => (f.handler || !s.me.inTrap) && f.scope ≠ .thread && !f.done

end Sys2Proof.Machine
end

