-- ==== Sys2Proof/Machine/Access.lean ====
section
/-! DEFINITION. Access: scalar loads, stores and atomics, LDAQ and STRL, LDP and FENCE (08 R189 to R193, 05 R110 to
R127). Each word first checks and translates; then it performs its access, or waits until it can. -/

namespace Sys2Proof.Machine

/-- A step of context c: its meaning runs as for the issuing context. -/
def State.as (st : State) (c : Nat) (f : State → Out) : Out :=
  match f { st with cur := c } with
  | .next t => .next { t with cur := st.cur }
  | .fault r => .fault r
  | .refused r => .refused r

/-- The physical address of the first location. -/
def State.addr0 (st : State) (locs : List Loc) : Nat := st.visible (locs.headD (.phys 0))

/-- Whether the bytes lie in the device control region. -/
def State.isMmio (st : State) (locs : List Loc) : Bool := region (st.addr0 locs) = .control

/-- What an access at a virtual address meets in the storage behind it: an uncorrectable error (17 R325, 18 R345) or a failed link
(R347), as a trap code and its detail; of a scratchpad or B-store byte the record gives the offset. -/
def State.hardError (st : State) (core : Nat) (va : Word) (pas : List Nat) : Option (Nat × Detail) :=
  match st.brokenLink core pas with
  | some l => some (Code.link, { d0 := word l })
  | none => match findIdx st.unreadable pas with
    | some i =>
      let pa := pas.getD i 0
      some (Code.eccUncorr, { va := if region pa = .window then word (windowOff pa) else va + word i })
    | none => none

/-- The same for the issuing context's core. -/
def State.rebuild (st : State) (pas : List Nat) : State := st.rebuildFor (coreOf st.cur) pas

/-- The value of a scalar access: sign- or zero-extended (08 R189). -/
def extend (acc : Acc) (v : Nat) : Word := if acc.zext then word v else sextW v (8 * acc.size)

/-- Whether nothing of the issuing context holds a scalar access of a class to these bytes back: no queued vector word (05 R121,
07 R170), and no FENCE (05 R126). -/
def State.unheld (st : State) (a : Access) (pas : List Nat) : Bool :=
  !st.vectorHolds st.cur pas && !st.loadsAhead st.cur && !st.fenceHolds st.cur st.me.icnt.toNat a pas

/-- Whether a read of a thread may be performed: the homes know the frontiers its clock names (05 R120), no write of
its own to the bytes is still on its way, and nothing of its context holds it back. -/
def State.readReady (st : State) (locs : List Loc) : Bool :=
  let pas := locs.map st.visible
  if region (pas.headD 0) = .control then !st.fenceHolds st.cur st.me.icnt.toNat .load pas else
  st.servable st.me.clock pas && !st.stoppedAhead st.cur none st.me.clock pas && !overlaps pas (st.pending st.cur) && st.unheld .load pas

/-- After an acquire, no later loose read is performed earlier (05 R116, R125). -/
def State.acquired (st : State) (acq : Bool) : State := if acq then st.setMe fun c => { c with looseFrom := st.time } else st

/-- The read is performed (05 R120, R118): the value goes to xd, interlocked (07 R165). A register of the device control region has
its value at once. -/
def State.readDone (st : State) (s : Fin 4) (d : Fin 32) (acc : Acc) (va : Word) (locs : List Loc) (acq : Bool) : Out :=
  let pas := locs.map st.visible
  if st.isMmio locs then .next ((st.acquired acq).interlocked s d (extend acc (st.mmioLoad (st.addr0 locs)).toNat))
  else match st.hardError (coreOf st.cur) va pas with
  | some (code, det) => .next (st.trap code det)
  | none =>
    let vs := st.threadRead st.cur st.me.clock (st.addr0 locs) pas 1024
    .next ((((st.rebuild pas).observe st.cur pas vs).acquired acq).interlocked s d (extend acc (leNat (vs.map (·.val)))))

/-- A read that has been translated: performed at once when it may be, and otherwise waited for. -/
def State.startRead (st : State) (s : Fin 4) (d : Fin 32) (acc : Acc) (va : Word) (locs : List Loc) (acq : Bool) : Out :=
  if st.readReady locs then st.readDone s d acc va locs acq else .next (st.block s (.read d acc va locs acq))

/-- A scalar load of `acc` at an address (08 R189), LDAQ with `align` (R193). -/
def State.load (st : State) (s : Fin 4) (d : Fin 32) (acc : Acc) (a : Word) (acq : Bool) : Out :=
  if acq && a.toNat % acc.size ≠ 0 then .next (st.trap Code.align { va := a })
  else
    let core := coreOf st.cur
    match st.locate core (st.partOf core) st.me.sys.cpl .read true a acc.size with
    | .inr (t, va) => st.pageTrap t va .read 1
    | .inl locs =>
      let st := st.fillAt core (st.partOf core) a acc.size
      if st.isMmio locs && !mmioAllowed (st.addr0 locs) acc.size st.me.sys.cpl then st.pageTrap .access a .read 1
      else st.startRead s d acc a locs acq

/-- The address of a scalar load or store (08 R189): base + sext(disp10)·size. -/
def State.xmAddr (st : State) (a : Fin 32) (i : BitVec 10) (size : Nat) : Word := st.rx a + sextW i.toNat 10 * word size

/-- A word of major 0x0F. -/
def State.ld (st : State) (s : Fin 4) (x a : Fin 32) (i : BitVec 10) (acc : Acc) : Out :=
  st.checked [a.val] fun t => t.load s x acc (t.xmAddr a i acc.size) false

/-- The parts of a scalar store: one when it is naturally aligned, and otherwise one a byte (05 R114, R123). -/
def storeParts (locs : List Loc) (addr : Nat) (v : Word) : List WPart :=
  if addr % locs.length = 0 then [{ locs := locs, bytes := leBytes locs.length v.toNat }]
  else (locs.zip (leBytes locs.length v.toNat)).map fun (l, b) => { locs := [l], bytes := [b] }

/-- Whether nothing holds a store back. -/
def State.storeReady (st : State) (locs : List Loc) : Bool :=
  if st.isMmio locs then !st.fenceHolds st.cur st.me.icnt.toNat .store (locs.map st.visible) else st.unheld .store (locs.map st.visible)

/-- Loose writes of a context take a number on its die (05 R125, R126): they count as numbered from then on. -/
def State.numberLoose (st : State) (c n : Nat) (clk : Clock) (covered : Nat → Bool) : State :=
  { st with hist := st.hist.map fun e =>
      if covered e.1 then (e.1, e.2.map fun v =>
        if v.tag = .loose c then { v with num := n, die := Fin.ofNat 4 (dieOf (coreOf c)), clock := clk, tag := .none } else v)
      else e }

/-- A store to the device control region, a numbered and counted write, acts at once; after a release the loose writes that it waited for
have its number (05 R125). -/
def State.mmioDone (st : State) (s : Fin 4) (locs : List Loc) (v : Word) (rel : Bool) : Out :=
  let t := st.newWrite st.cur [] false
  let t := if rel then t.numberLoose t.cur (t.issued.at (dieOf (coreOf t.cur))) t.me.clock fun _ => true else t
  .next ((t.setMe fun c => c.advance s).mmioStore (st.addr0 locs) (word (v.toNat % 2 ^ (8 * locs.length))))

/-- The store issues: a numbered and counted write (05 R117, 08 R189). -/
def State.storeDone (st : State) (s : Fin 4) (locs : List Loc) (v : Word) : Out :=
  if st.isMmio locs then st.mmioDone s locs v false
  else match st.brokenLink (coreOf st.cur) (locs.map st.visible) with
  | some l => .next (st.trap Code.link { d0 := word l })
  | none => .next ((st.newWrite st.cur (storeParts locs (st.addr0 locs) v) false).setMe fun c => c.advance s)

/-- A scalar store of n bytes at an address (08 R189). -/
def State.store (st : State) (s : Fin 4) (n : Nat) (a v : Word) : Out :=
  let core := coreOf st.cur
  match st.locate core (st.partOf core) st.me.sys.cpl .write true a n with
  | .inr (t, va) => st.pageTrap t va .write 1
  | .inl locs =>
    let st := st.fillAt core (st.partOf core) a n
    if st.isMmio locs && !mmioAllowed (st.addr0 locs) n st.me.sys.cpl then st.pageTrap .access a .write 1
    else if st.storeReady locs then st.storeDone s locs v
    else .next (st.block s (.store n locs v))

/-- A word of major 0x10. -/
def State.st (st : State) (s : Fin 4) (x a : Fin 32) (i : BitVec 10) (n : Nat) : Out :=
  st.checked [x.val, a.val] fun t => t.store s n (t.xmAddr a i n) (t.rx x)

/-! ### Atomics and release stores -/

/-- Whether every earlier access of the thread has been performed, as a release waits for (05 R125): numbered writes
acknowledged, loose writes applied, vector words done with memory, FENCEs complete. Groups that VLDA and GATHB have still to land
are not waited for (log entry 47). -/
def State.performed (st : State) : Bool :=
  st.quiet && st.me.loose = [] && !st.fenced &&
    (st.me.frozen || (st.me.vq ++ st.me.opened).all fun e => !st.entryTouches st.cur e fun _ => true)

/-- A release store is issued (05 R125): one number for itself and for the loose writes it waited for. -/
def State.releaseDone (st : State) (s : Fin 4) (locs : List Loc) (v : Word) : Out :=
  if st.isMmio locs then st.mmioDone s locs v true
  else match st.brokenLink (coreOf st.cur) (locs.map st.visible) with
  | some l => .next (st.trap Code.link { d0 := word l })
  | none =>
    let t := st.newWrite st.cur (storeParts locs (st.addr0 locs) v) false
    let t := t.numberLoose t.cur (t.issued.at (dieOf (coreOf t.cur))) t.me.clock fun _ => true
    .next (t.setMe fun c => c.advance s)

/-- STRL (08 R193). -/
def State.strl (st : State) (s : Fin 4) (a b : Fin 32) (n : Nat) : Out :=
  st.checked [a.val, b.val] fun t =>
    let addr := t.rx a
    let v := t.rx b
    let core := coreOf t.cur
    if addr.toNat % n ≠ 0 then .next (t.trap Code.align { va := addr })
    else match t.locate core (t.partOf core) t.me.sys.cpl .write true addr n with
    | .inr (e, va) => t.pageTrap e va .write 1
    | .inl locs =>
      let t := t.fillAt core (t.partOf core) addr n
      if t.isMmio locs && !mmioAllowed (t.addr0 locs) n t.me.sys.cpl then t.pageTrap .access addr .write 1
      else if t.performed then t.releaseDone s locs v
      else .next (t.block s (.release n locs v))

/-- Whether an atomic whose comparison fails would read these bytes only (05 R122). -/
def State.amoFails (st : State) (f : Rmw) (size : Nat) (pas : List Nat) (old : Word) : Bool :=
  f = .cas && leNat (pas.map fun pa => (st.last pa).val) ≠ old.toNat % 2 ^ (8 * size)

/-- Whether an atomic may be performed at its home (05 R120, R122): the frontiers its clock names are known there,
and its own write, with the clock of what it reads, may be applied (R119); with .RL, every earlier access has been performed. -/
def State.amoReady (st : State) (f : Rmw) (size : Nat) (locs : List Loc) (old : Word) (rel : Bool) : Bool :=
  let pas := locs.map st.visible
  let clk := pas.foldl (fun k pa => k.join (st.last pa).clock) st.me.clock
  let die := dieOf (coreOf st.cur)
  st.readReady locs && st.unheld .store pas && (!rel || st.performed) &&
    (st.amoFails f size pas old || (st.applicableAt die clk pas && !st.stoppedAhead st.cur (some die) clk pas))

/-- The atomic (08 R191): one read of the last value and one write, indivisibly; xd receives the old value. -/
def State.amoDone (st : State) (s : Fin 4) (d : Fin 32) (f : Rmw) (size : Nat) (va : Word) (locs : List Loc) (v old : Word)
    (acq rel : Bool) : Out :=
  let pas := locs.map st.visible
  match st.hardError (coreOf st.cur) va pas with
  | some (code, det) => .next (st.trap code det)
  | none =>
    let vs := pas.map st.last
    let m := leNat (vs.map (·.val))
    let t := ((st.rebuild pas).observe st.cur pas vs).acquired acq
    if st.amoFails f size pas old then .next (t.interlocked s d (sextW m (8 * size)))
    else
      let t := t.newWrite t.cur [] false
      let die := dieOf (coreOf t.cur)
      let n := t.issued.at die
      let t := if rel then t.numberLoose t.cur n t.me.clock fun _ => true else t
      let t := t.applyBytes pas (leBytes size (rmwNat f size m (v.toNat % 2 ^ (8 * size)))) (Fin.ofNat 4 die) n t.me.clock .none
      let t := t.made t.cur pas
      let t := if f = .cas then
          { t.setMe fun c => { c with wdc := c.wdc + 1 } with writes := t.writes.dropLast }.advanceFrontier die
        else t
      .next (t.interlocked s d (sextW m (8 * size)))

/-- A word of major 0x11 (08 R191): `w` selects .D, `q` is .AQ, `r` is .RL. -/
def State.amo (st : State) (s : Fin 4) (d a b : Fin 32) (w q r : Bool) (f : Rmw) : Out :=
  st.checked ([a.val, b.val] ++ (if f = .cas then [d.val] else [])) fun t =>
    let addr := t.rx a
    let v := t.rx b
    let old := t.rx d
    let n := if w then 8 else 4
    let core := coreOf t.cur
    if addr.toNat % n ≠ 0 then .next (t.trap Code.align { va := addr })
    else match t.locate core (t.partOf core) t.me.sys.cpl .atomic true addr n with
    | .inr (e, va) => t.pageTrap e va .atomic 1
    | .inl locs =>
      let t := t.fillAt core (t.partOf core) addr n
      if t.isMmio locs then t.pageTrap .access addr .atomic 1
      else if t.amoReady f n locs old r then t.amoDone s d f n addr locs v old q r
      else .next (t.block s (.amo d f n addr locs v old q r))

/-! ### FENCE -/

/-- The earlier loose writes of a context that a fence covers take one number on its die (05 R125, R126), if there are any. -/
def State.fenceNumber (st : State) (c : Nat) (f : Fence) : State :=
  if st.hist.any fun e => fenceCovers f.scope c e.1 && e.2.any fun v => v.tag = .loose c then
    let die := dieOf (coreOf c)
    let n := st.issued.at die + 1
    let clk := (st.ctx c).clock.set die n
    let t := { st.numberLoose c n clk (fenceCovers f.scope c) with issued := st.issued.set die n }
    (t.setCtx c fun k => { k with clock := clk }).advanceFrontier die
  else st

/-- The queued words after a fence read nothing loose from before a moment. -/
def Ctx.looseSince (k : Ctx) (icnt : Word) (t : Nat) : Ctx :=
  let up := fun (e : VEntry) => if icnt.toNat ≤ e.icnt.toNat then { e with since := max e.since t } else e
  { k with looseFrom := t, vq := k.vq.map up, opened := k.opened.map up }

/-- What a fence leaves when it is complete (05 R116, R126, R127): after kind both, later reads of covered bytes return nothing
older than what is applied now; after kinds both and loose, no later loose read does. -/
def State.fenceEffect (st : State) (c : Nat) (f : Fence) : State :=
  st.setCtx c fun k =>
    let k := if f.kind = .both || f.kind = .loose then k.looseSince f.icnt st.time else k
    if f.kind ≠ .both then k
    else match f.scope with
      | .thread => k
      | .core => { k with readFromCore := st.time }
      | .die => { k with readFromDie := st.time }
      | _ => { k with readFrom := st.time }

/-- What the thread sees of its own earlier accesses, of which the numbered and the loose ones are known apart (05 R116, R120), is
one order for it from a FENCE on (R127). -/
def Ctx.seeBoth (k : Ctx) : Ctx :=
  let up := fun (t l : Table Nat) => l.foldl (fun t x => if tget 0 t x.1 < x.2 then tput t x.1 x.2 else t) t
  { k with seen := up k.seen k.looseSeen, looseSeen := up k.looseSeen k.seen }

/-- A fence goes as far as it can: kind loose numbers first what it finds applied; what its scope covers makes it complete; and
it is dropped when every earlier access is performed. -/
def State.fenceTry (st : State) (c : Nat) (f : Fence) : List Fence × State :=
  let (f, st) := if f.kind = .loose && !f.numbered && st.fenceLoose c f then ({ f with numbered := true }, st.fenceNumber c f) else (f, st)
  let (f, st) := if !f.done && st.fenceMet c f && (f.kind ≠ .loose || f.numbered) then ({ f with done := true }, st.fenceEffect c f)
    else (f, st)
  (if f.done && st.fenceMet c { f with scope := .package } then [] else [f], st)

/-- The fences of a context go on. -/
def State.settleFences (st : State) (c : Nat) : State :=
  match (st.ctx c).fences with
  | [] => st
  | l =>
    let r := l.foldl (fun (a : List Fence × State) f => let q := a.2.fenceTry c f; (a.1 ++ q.1, q.2)) ([], st)
    r.2.setCtx c fun k => { k with fences := r.1 }

/-- FENCE (08 R193, 05 R126, R127): it holds nothing back but the later accesses that its kind and scope name. -/
def execFence (s : Fin 4) (k : FenceKind) (p : FenceScope) (st : State) : Out :=
  let f : Fence := { kind := k, scope := p, icnt := st.me.icnt, wic := st.me.wic, order := st.nextOrder, handler := st.me.frozen }
  let t := st.setMe fun c => (if k = .stores then c else c.seeBoth)
  .next (((t.setMe fun c => { c with fences := c.fences ++ [f] }).settleFences st.cur).setMe fun c => c.advance s)

/-! ### LDP -/

/-- A read of a parameter window (08 R190, 05 R113): it waits for nothing and carries no clock; each byte is one the
bound range held when the launch was made or since. -/
def State.ldp (st : State) (s : Fin 4) (d : Fin 32) (w : Fin 8) (a : Fin 32) (acc : Acc) : Out :=
  st.checked [a.val] fun t =>
    match t.locateIn t.cur 2 w.val t.me.sys.cpl .read (t.rx a) acc.size with
    | .inr (.moving, _, _) => .next (t.block 0 .retry)
    | .inr (_, code, det) => .next (t.trap code (det.atElem code 0))
    | .inl locs =>
      let t := t.fillAt (coreOf t.cur) (t.partOf (coreOf t.cur)) (((t.launchOf t.cur).window w.val).1 + t.rx a) acc.size
      let pas := locs.map t.visible
      if t.isMmio locs then
        (if mmioAllowed (t.addr0 locs) acc.size t.me.sys.cpl then
          .next (t.interlocked s d (extend acc (t.mmioLoad (t.addr0 locs)).toNat))
        else t.pageTrap .access (((t.launchOf t.cur).window w.val).1 + t.rx a) .read 1)
      else match t.hardError (coreOf t.cur) (((t.launchOf t.cur).window w.val).1 + t.rx a) pas with
      | some (code, det) => .next (t.trap code det)
      | none =>
        let vs := t.rangeRead (t.launchOf t.cur).moment (t.addr0 locs) pas 1024
        .next ((t.rebuild pas).interlocked s d (extend acc (leNat (vs.map (·.val)))))

/-- LD.B (08 R189). -/
def execLdB (s : Fin 4) (x a : Fin 32) (i : BitVec 10) (st : State) : Out := st.ld s x a i ⟨1, false⟩

/-- LD.H (08 R189). -/
def execLdH (s : Fin 4) (x a : Fin 32) (i : BitVec 10) (st : State) : Out := st.ld s x a i ⟨2, false⟩

/-- LD.W (08 R189). -/
def execLdW (s : Fin 4) (x a : Fin 32) (i : BitVec 10) (st : State) : Out := st.ld s x a i ⟨4, false⟩

/-- LD.D (08 R189). -/
def execLdD (s : Fin 4) (x a : Fin 32) (i : BitVec 10) (st : State) : Out := st.ld s x a i ⟨8, false⟩

/-- LDN.B (08 R189). -/
def execLdnB (s : Fin 4) (x a : Fin 32) (i : BitVec 10) (st : State) : Out := st.ld s x a i ⟨1, true⟩

/-- LDN.H (08 R189). -/
def execLdnH (s : Fin 4) (x a : Fin 32) (i : BitVec 10) (st : State) : Out := st.ld s x a i ⟨2, true⟩

/-- LDN.W (08 R189). -/
def execLdnW (s : Fin 4) (x a : Fin 32) (i : BitVec 10) (st : State) : Out := st.ld s x a i ⟨4, true⟩

/-- ST.B (08 R189). -/
def execStB (s : Fin 4) (x a : Fin 32) (i : BitVec 10) (st : State) : Out := st.st s x a i 1

/-- ST.H (08 R189). -/
def execStH (s : Fin 4) (x a : Fin 32) (i : BitVec 10) (st : State) : Out := st.st s x a i 2

/-- ST.W (08 R189). -/
def execStW (s : Fin 4) (x a : Fin 32) (i : BitVec 10) (st : State) : Out := st.st s x a i 4

/-- ST.D (08 R189). -/
def execStD (s : Fin 4) (x a : Fin 32) (i : BitVec 10) (st : State) : Out := st.st s x a i 8

/-- AMOADD (08 R191). -/
def execAmoadd (s : Fin 4) (d a b : Fin 32) (w q r : Bool) (st : State) : Out := st.amo s d a b w q r .add

/-- AMOAND (08 R191). -/
def execAmoand (s : Fin 4) (d a b : Fin 32) (w q r : Bool) (st : State) : Out := st.amo s d a b w q r .and

/-- AMOOR (08 R191). -/
def execAmoor (s : Fin 4) (d a b : Fin 32) (w q r : Bool) (st : State) : Out := st.amo s d a b w q r .or

/-- AMOXOR (08 R191). -/
def execAmoxor (s : Fin 4) (d a b : Fin 32) (w q r : Bool) (st : State) : Out := st.amo s d a b w q r .xor

/-- AMOMIN (08 R191). -/
def execAmomin (s : Fin 4) (d a b : Fin 32) (w q r : Bool) (st : State) : Out := st.amo s d a b w q r .min

/-- AMOMAX (08 R191). -/
def execAmomax (s : Fin 4) (d a b : Fin 32) (w q r : Bool) (st : State) : Out := st.amo s d a b w q r .max

/-- AMOMINN (08 R191). -/
def execAmominn (s : Fin 4) (d a b : Fin 32) (w q r : Bool) (st : State) : Out := st.amo s d a b w q r .minn

/-- AMOMAXN (08 R191). -/
def execAmomaxn (s : Fin 4) (d a b : Fin 32) (w q r : Bool) (st : State) : Out := st.amo s d a b w q r .maxn

/-- AMOSWAP (08 R191). -/
def execAmoswap (s : Fin 4) (d a b : Fin 32) (w q r : Bool) (st : State) : Out := st.amo s d a b w q r .swap

/-- AMOCAS (08 R191). -/
def execAmocas (s : Fin 4) (d a b : Fin 32) (w q r : Bool) (st : State) : Out := st.amo s d a b w q r .cas

/-- LDAQ.B (08 R193, 05 R125). -/
def execLdaqB (s : Fin 4) (d a : Fin 32) (st : State) : Out :=
  st.checked [a.val] fun t => t.load s d ⟨1, false⟩ (t.rx a) true

/-- LDAQ.H (08 R193, 05 R125). -/
def execLdaqH (s : Fin 4) (d a : Fin 32) (st : State) : Out :=
  st.checked [a.val] fun t => t.load s d ⟨2, false⟩ (t.rx a) true

/-- LDAQ.W (08 R193, 05 R125). -/
def execLdaqW (s : Fin 4) (d a : Fin 32) (st : State) : Out :=
  st.checked [a.val] fun t => t.load s d ⟨4, false⟩ (t.rx a) true

/-- LDAQ.D (08 R193, 05 R125). -/
def execLdaqD (s : Fin 4) (d a : Fin 32) (st : State) : Out :=
  st.checked [a.val] fun t => t.load s d ⟨8, false⟩ (t.rx a) true

/-- STRL.B (08 R193, 05 R125). -/
def execStrlB (s : Fin 4) (a b : Fin 32) (st : State) : Out := st.strl s a b 1

/-- STRL.H (08 R193, 05 R125). -/
def execStrlH (s : Fin 4) (a b : Fin 32) (st : State) : Out := st.strl s a b 2

/-- STRL.W (08 R193, 05 R125). -/
def execStrlW (s : Fin 4) (a b : Fin 32) (st : State) : Out := st.strl s a b 4

/-- STRL.D (08 R193, 05 R125). -/
def execStrlD (s : Fin 4) (a b : Fin 32) (st : State) : Out := st.strl s a b 8

/-- LDP.B (08 R190). -/
def execLdpB (s : Fin 4) (d : Fin 32) (w : Fin 8) (a : Fin 32) (st : State) : Out := st.ldp s d w a ⟨1, false⟩

/-- LDP.H (08 R190). -/
def execLdpH (s : Fin 4) (d : Fin 32) (w : Fin 8) (a : Fin 32) (st : State) : Out := st.ldp s d w a ⟨2, false⟩

/-- LDP.W (08 R190). -/
def execLdpW (s : Fin 4) (d : Fin 32) (w : Fin 8) (a : Fin 32) (st : State) : Out := st.ldp s d w a ⟨4, false⟩

/-- LDP.D (08 R190). -/
def execLdpD (s : Fin 4) (d : Fin 32) (w : Fin 8) (a : Fin 32) (st : State) : Out := st.ldp s d w a ⟨8, false⟩

/-- LDPN.B (08 R190). -/
def execLdpnB (s : Fin 4) (d : Fin 32) (w : Fin 8) (a : Fin 32) (st : State) : Out := st.ldp s d w a ⟨1, true⟩

/-- LDPN.H (08 R190). -/
def execLdpnH (s : Fin 4) (d : Fin 32) (w : Fin 8) (a : Fin 32) (st : State) : Out := st.ldp s d w a ⟨2, true⟩

/-- LDPN.W (08 R190). -/
def execLdpnW (s : Fin 4) (d : Fin 32) (w : Fin 8) (a : Fin 32) (st : State) : Out := st.ldp s d w a ⟨4, true⟩

end Sys2Proof.Machine
end

