-- ==== Sys2Proof/Machine/Alu.lean ====
section
/-! DEFINITION. Alu: the scalar integer words, majors 0x01 to 0x09 (08 R180 to R183, latencies of 07 R165). -/

namespace Sys2Proof.Machine

/-- Signed and unsigned readings of a dword (08 R182). -/
def s64 (v : Word) : Int := sint 64 v.toNat
def u64 (v : Word) : Nat := v.toNat

/-- A dword from an exact integer, modulo 2^64 (04 R81). -/
def ofInt64 (i : Int) : Word := BitVec.ofInt 64 i

/-- The quotient truncated toward zero, all ones for a divisor of 0; −2^63 ÷ −1 wraps to −2^63 (04 R82). -/
def divS (a b : Word) : Word := if b = 0 then ofInt64 (-1) else ofInt64 ((s64 a).tdiv (s64 b))
def divU (a b : Word) : Word := if b = 0 then ofInt64 (-1) else word (u64 a / u64 b)
/-- The remainder, with the sign of the dividend; the dividend for a divisor of 0 (04 R82). -/
def remS (a b : Word) : Word := if b = 0 then a else ofInt64 ((s64 a).tmod (s64 b))
def remU (a b : Word) : Word := if b = 0 then a else word (u64 a % u64 b)

/-- CLZ, FFS and POPC of an n-bit number (04 R83). -/
def clzNat (n v : Nat) : Nat := n - bitLen v
def ffsNat (n v : Nat) : Nat := ((List.range n).find? fun i => v.testBit i).getD n
def popcNat (n v : Nat) : Nat := ((List.range n).filter fun i => v.testBit i).length

/-- A register-register word of major 0x01 with latency L and an exact function of its operands. -/
def State.alu (st : State) (s : Fin 4) (d a b : Fin 32) (lat : Nat) (f : Word → Word → Word) : Out :=
  st.scalar s d lat [a.val, b.val] fun t => f (t.rx a) (t.rx b)

/-- A register-immediate word of majors 0x02 to 0x07: latency 1. -/
def State.alui (st : State) (s : Fin 4) (d a : Fin 32) (f : Word → Word) : Out :=
  st.scalar s d 1 [a.val] fun t => f (t.rx a)

/-- A divide or remainder: interlocked, raising IDZ in lane 0 for a divisor of 0 (04 R82, 08 R181). -/
def State.divide (st : State) (s : Fin 4) (d a b : Fin 32) (f : Word → Word → Word) : Out :=
  st.checked [a.val, b.val] fun t =>
    let x := t.rx a
    let y := t.rx b
    .next ((t.setMe fun c => c.raise 0 (flagIf (y = 0) IDZ)).interlocked s d (f x y))

/-- Bits [127:64] of an exact product (08 R182). -/
def hi64 (p : Int) : Word := ofInt64 (p / 2 ^ 64)

/-- ADD (08 R182): the sum. -/
def execAdd (s : Fin 4) (d a b : Fin 32) (st : State) : Out := st.alu s d a b 1 fun x y => x + y

/-- SUB (08 R182): the difference. -/
def execSub (s : Fin 4) (d a b : Fin 32) (st : State) : Out := st.alu s d a b 1 fun x y => x - y

/-- ADD.W (08 R182): the low word of the sum, sign-extended. -/
def execAddW (s : Fin 4) (d a b : Fin 32) (st : State) : Out := st.alu s d a b 1 fun x y => sextW (x + y).toNat 32

/-- SUB.W (08 R182): the low word of the difference, sign-extended. -/
def execSubW (s : Fin 4) (d a b : Fin 32) (st : State) : Out := st.alu s d a b 1 fun x y => sextW (x - y).toNat 32

/-- MUL (08 R182): the low half of the product. -/
def execMul (s : Fin 4) (d a b : Fin 32) (st : State) : Out := st.alu s d a b 3 fun x y => x * y

/-- MULH (08 R182): the high half of the signed product. -/
def execMulh (s : Fin 4) (d a b : Fin 32) (st : State) : Out := st.alu s d a b 3 fun x y => hi64 (s64 x * s64 y)

/-- MULHN (08 R182): the high half of the unsigned product. -/
def execMulhn (s : Fin 4) (d a b : Fin 32) (st : State) : Out := st.alu s d a b 3 fun x y => word (u64 x * u64 y / 2 ^ 64)

/-- AND (08 R182): a & b. -/
def execAnd (s : Fin 4) (d a b : Fin 32) (st : State) : Out := st.alu s d a b 1 fun x y => x &&& y

/-- OR (08 R182): a | b. -/
def execOr (s : Fin 4) (d a b : Fin 32) (st : State) : Out := st.alu s d a b 1 fun x y => x ||| y

/-- XOR (08 R182): a ^ b. -/
def execXor (s : Fin 4) (d a b : Fin 32) (st : State) : Out := st.alu s d a b 1 fun x y => x ^^^ y

/-- ANDN (08 R182): a & ~b. -/
def execAndn (s : Fin 4) (d a b : Fin 32) (st : State) : Out := st.alu s d a b 1 fun x y => x &&& ~~~y

/-- SLL (08 R182): a shifted left by b[5:0]. -/
def execSll (s : Fin 4) (d a b : Fin 32) (st : State) : Out := st.alu s d a b 1 fun x y => x <<< fldW y 0 6

/-- SRL (08 R182): a shifted right by b[5:0], zeros in. -/
def execSrl (s : Fin 4) (d a b : Fin 32) (st : State) : Out := st.alu s d a b 1 fun x y => x >>> fldW y 0 6

/-- SRA (08 R182): a shifted right by b[5:0], sign bits in. -/
def execSra (s : Fin 4) (d a b : Fin 32) (st : State) : Out := st.alu s d a b 1 fun x y => x.sshiftRight (fldW y 0 6)

/-- SLT (08 R182): 1 if s(a) < s(b). -/
def execSlt (s : Fin 4) (d a b : Fin 32) (st : State) : Out := st.alu s d a b 1 fun x y => if s64 x < s64 y then 1 else 0

/-- SLTN (08 R182): 1 if u(a) < u(b). -/
def execSltn (s : Fin 4) (d a b : Fin 32) (st : State) : Out := st.alu s d a b 1 fun x y => if u64 x < u64 y then 1 else 0

/-- MIN (08 R182): the lesser, signed. -/
def execMin (s : Fin 4) (d a b : Fin 32) (st : State) : Out := st.alu s d a b 1 fun x y => if s64 x ≤ s64 y then x else y

/-- MAX (08 R182): the greater, signed. -/
def execMax (s : Fin 4) (d a b : Fin 32) (st : State) : Out := st.alu s d a b 1 fun x y => if s64 x ≤ s64 y then y else x

/-- MINN (08 R182): the lesser, unsigned. -/
def execMinn (s : Fin 4) (d a b : Fin 32) (st : State) : Out := st.alu s d a b 1 fun x y => if u64 x ≤ u64 y then x else y

/-- MAXN (08 R182): the greater, unsigned. -/
def execMaxn (s : Fin 4) (d a b : Fin 32) (st : State) : Out := st.alu s d a b 1 fun x y => if u64 x ≤ u64 y then y else x

/-- DIV (08 R182, 04 R82). -/
def execDiv (s : Fin 4) (d a b : Fin 32) (st : State) : Out := st.divide s d a b divS

/-- DIVN (08 R182, 04 R82). -/
def execDivn (s : Fin 4) (d a b : Fin 32) (st : State) : Out := st.divide s d a b divU

/-- REM (08 R182, 04 R82). -/
def execRem (s : Fin 4) (d a b : Fin 32) (st : State) : Out := st.divide s d a b remS

/-- REMN (08 R182, 04 R82). -/
def execRemn (s : Fin 4) (d a b : Fin 32) (st : State) : Out := st.divide s d a b remU

/-- CLZ (08 R182, 04 R83). -/
def execClz (s : Fin 4) (d a : Fin 32) (st : State) : Out :=
  st.scalar s d 1 [a.val] fun t => word (clzNat 64 (t.rx a).toNat)

/-- FFS (08 R182, 04 R83). -/
def execFfs (s : Fin 4) (d a : Fin 32) (st : State) : Out :=
  st.scalar s d 1 [a.val] fun t => word (ffsNat 64 (t.rx a).toNat)

/-- POPC (08 R182, 04 R83). -/
def execPopc (s : Fin 4) (d a : Fin 32) (st : State) : Out :=
  st.scalar s d 1 [a.val] fun t => word (popcNat 64 (t.rx a).toNat)

/-- ADDI (08 R183), i := sext(imm13, 13). -/
def execAddi (s : Fin 4) (d a : Fin 32) (i : BitVec 13) (st : State) : Out := st.alui s d a fun x => x + sextW i.toNat 13

/-- ANDI (08 R183), i := sext(imm13, 13). -/
def execAndi (s : Fin 4) (d a : Fin 32) (i : BitVec 13) (st : State) : Out := st.alui s d a fun x => x &&& sextW i.toNat 13

/-- ORI (08 R183), i := sext(imm13, 13). -/
def execOri (s : Fin 4) (d a : Fin 32) (i : BitVec 13) (st : State) : Out := st.alui s d a fun x => x ||| sextW i.toNat 13

/-- XORI (08 R183), i := sext(imm13, 13). -/
def execXori (s : Fin 4) (d a : Fin 32) (i : BitVec 13) (st : State) : Out := st.alui s d a fun x => x ^^^ sextW i.toNat 13

/-- SLLI (08 R183). -/
def execSlli (s : Fin 4) (d a : Fin 32) (h : Fin 64) (st : State) : Out := st.alui s d a fun x => x <<< h.val

/-- SRLI (08 R183). -/
def execSrli (s : Fin 4) (d a : Fin 32) (h : Fin 64) (st : State) : Out := st.alui s d a fun x => x >>> h.val

/-- SRAI (08 R183). -/
def execSrai (s : Fin 4) (d a : Fin 32) (h : Fin 64) (st : State) : Out := st.alui s d a fun x => x.sshiftRight h.val

/-- SLTI (08 R183): signed comparison with sext(imm12, 12). -/
def execSlti (s : Fin 4) (d a : Fin 32) (i : BitVec 12) (st : State) : Out :=
  st.alui s d a fun x => if s64 x < s64 (sextW i.toNat 12) then 1 else 0

/-- SLTNI (08 R183): unsigned comparison with the sign-extended immediate. -/
def execSltni (s : Fin 4) (d a : Fin 32) (i : BitVec 12) (st : State) : Out :=
  st.alui s d a fun x => if u64 x < u64 (sextW i.toNat 12) then 1 else 0

/-- LUI (08 R183): sext(imm18, 18) << 13. -/
def execLui (s : Fin 4) (d : Fin 32) (i : BitVec 18) (st : State) : Out :=
  st.scalar s d 1 [] fun _ => sextW i.toNat 18 <<< 13

/-- AUIPC (08 R183): pc + (sext(imm18, 18) << 13). -/
def execAuipc (s : Fin 4) (d : Fin 32) (i : BitVec 18) (st : State) : Out :=
  st.scalar s d 1 [] fun t => t.me.pc + (sextW i.toNat 18 <<< 13)

/-- A branch (08 R187, 07 R160, R164): taken, it goes to pc + 4·sext(disp10, 10). -/
def State.branch (st : State) (s : Fin 4) (a b : Fin 32) (i : BitVec 10) (p : Word → Word → Bool) : Out :=
  st.checked [a.val, b.val] fun t =>
    let taken := p (t.rx a) (t.rx b)
    .next (t.setMe fun c => if taken then c.jump s (c.pc + 4 * sextW i.toNat 10) else c.advance s)

/-- BEQ (08 R187). -/
def execBeq (s : Fin 4) (a b : Fin 32) (i : BitVec 10) (st : State) : Out :=
  st.branch s a b i fun x y => decide (x = y)

/-- BNE (08 R187). -/
def execBne (s : Fin 4) (a b : Fin 32) (i : BitVec 10) (st : State) : Out :=
  st.branch s a b i fun x y => decide (x ≠ y)

/-- BLT (08 R187). -/
def execBlt (s : Fin 4) (a b : Fin 32) (i : BitVec 10) (st : State) : Out :=
  st.branch s a b i fun x y => decide (s64 x < s64 y)

/-- BGE (08 R187). -/
def execBge (s : Fin 4) (a b : Fin 32) (i : BitVec 10) (st : State) : Out :=
  st.branch s a b i fun x y => decide (s64 y ≤ s64 x)

/-- BLTN (08 R187). -/
def execBltn (s : Fin 4) (a b : Fin 32) (i : BitVec 10) (st : State) : Out :=
  st.branch s a b i fun x y => decide (u64 x < u64 y)

/-- BGEN (08 R187). -/
def execBgen (s : Fin 4) (a b : Fin 32) (i : BitVec 10) (st : State) : Out :=
  st.branch s a b i fun x y => decide (u64 y ≤ u64 x)

/-- J (08 R187): to pc + 4·sext(disp23, 23). -/
def execJ (s : Fin 4) (i : BitVec 23) (st : State) : Out :=
  .next (st.setMe fun c => c.jump s (c.pc + 4 * sextW i.toNat 23))

/-- JAL (08 R187): pc + 4 to x1, then as J. -/
def execJal (s : Fin 4) (i : BitVec 23) (st : State) : Out :=
  .next (st.setMe fun c => (c.result 1 (c.pc + 4) 1).jump s (c.pc + 4 * sextW i.toNat 23))

/-- JALR (08 R188): to xa + sext(imm13, 13), with pc + 4 in xd; a target that is not a word's traps ALIGN. -/
def execJalr (s : Fin 4) (d a : Fin 32) (i : BitVec 13) (st : State) : Out :=
  st.checked [a.val] fun t =>
    let target := t.rx a + sextW i.toNat 13
    if fldW target 0 2 ≠ 0 then .next (t.trap Code.align { va := target })
    else .next (t.setMe fun c => (c.result d.val (c.pc + 4) 1).jump s target)

end Sys2Proof.Machine
end

