-- ==== Sys2Proof/Machine/Elem.lean ====
section
/-! DEFINITION. Elem: what a vector word computes for an element (09 R212 to R220), the trees of the reductions and
scans (04 R98, R99), and the algebras (04 R104 to R109). -/

namespace Sys2Proof.Machine

/-- Whether a code holds bit i. -/
def bitN (c i : Nat) : Bool := c.testBit i

/-- Number of 1 bits among the first n. -/
def popBits (c : Nat) : Nat → Nat
  | 0 => 0
  | n + 1 => popBits c n + (if bitN c n then 1 else 0)
/-- Index of the lowest 1 bit below n, or n (04 R83). -/
def ffsBits (c n : Nat) : Nat := (List.range n).findIdx (bitN c)
/-- Number of 0 bits above the highest 1 bit of n bits (04 R83). -/
def clzBits (c n : Nat) : Nat := n - bitLen (c % 2 ^ n)

/-- result(e) of major 0x18 (09 R212): from codes a and b of an integer format. -/
def intElem (f : VInt) (t : Fmt) (a b : Nat) : Nat × Flags :=
  let w := t.width
  let x := t.intOf a
  let y := t.intOf b
  let keep := fun (i : Int) => (wrapInt w i, noFlags)
  match f with
  | .add => keep (x + y)
  | .sub => keep (x - y)
  | .mul => keep (x * y)
  | .mulh => keep ((x * y) / ((2 ^ w : Nat) : Int))
  | .min => (if x ≤ y then a else b, 0)
  | .max => (if x ≤ y then b else a, 0)
  | .and => (a &&& b, 0)
  | .or => (a ||| b, 0)
  | .xor => (a ^^^ b, 0)
  | .andn => (a &&& (2 ^ w - 1 - b % 2 ^ w), 0)
  | .sll => (a * 2 ^ (b % w) % 2 ^ w, 0)
  | .srl => (a / 2 ^ (b % w), 0)
  | .sra => keep (sint w a / ((2 ^ (b % w) : Nat) : Int))
  | .adds => t.clamp (x + y)
  | .subs => t.clamp (x - y)
  | .avg => keep ((x + y + 1) / 2)
  | .abs => keep (if x < 0 then -x else x)
  | .clz => (clzBits a w, 0)
  | .ffs => (ffsBits a w, 0)
  | .popc => (popBits a w, 0)

/-- 2^v as an exact result (09 R213, R214). Beyond what any format reaches, a magnitude stands for the rest. -/
def exp2Val (v : Val) : Res :=
  match v with
  | .nan s => ⟨.nan false, flagIf s NV⟩
  | .inf true => ⟨.zero false, 0⟩
  | .inf false => ⟨.inf false, 0⟩
  | .fin x =>
    if x.m = 0 then ⟨.ofInt 1, 0⟩
    else if 12 < x.e + ((bitLen x.m : Nat) : Int) then
      (if x.neg then ⟨.fin ⟨false, 1, -5000, true⟩, 0⟩ else ⟨.fin ⟨false, 1, 5000, false⟩, 0⟩)
    else ⟨.fin (x.exp2 1250), 0⟩

/-- log2 v as an exact result (09 R213, R214). -/
def log2Val (v : Val) : Res :=
  match v with
  | .nan s => ⟨.nan false, flagIf s NV⟩
  | .inf true => .invalid
  | .inf false => ⟨.inf false, 0⟩
  | .fin x =>
    if x.m = 0 then ⟨.inf true, DZ⟩
    else if x.neg then .invalid
    else ⟨.fin (x.log2 192 448), 0⟩

/-- VFABS (09 R215). -/
def fabsElem (t : Fmt) (inf : Bool) (a : Nat) : Nat × Flags :=
  if t.isIeee then
    let v := t.decode inf a
    if v.isNan then (t.nanCode, sigFlag [v]) else (a % 2 ^ (t.width - 1), 0)
  else if t.isUnsignedFloat || a = t.nanCode then (a, 0)
  else (a % 2 ^ (t.width - 1), 0)

/-- VFNEG (09 R215). -/
def fnegElem (t : Fmt) (r : Rnd) (a : Nat) : Nat × Flags :=
  let v := t.decode r.inf a
  if t.isIeee then (if v.isNan then (t.nanCode, sigFlag [v]) else (a ^^^ 2 ^ (t.width - 1), 0))
  else if a = 0 || a = t.nanCode then (a, 0)
  else if t.isUnsignedFloat then t.round r v.neg
  else (a ^^^ 2 ^ (t.width - 1), 0)

/-- The class number of VFCLASS (09 R215). -/
def fclassElem (t : Fmt) (inf : Bool) (a : Nat) : Nat := Nat.log2 (classMask t (t.decode inf a))

/-- result(e) of major 0x19 (09 R213 to R215): d, a and b are codes of a float format. -/
def fpElem (f : VFp) (t : Fmt) (r : Rnd) (d a b : Nat) : Nat × Flags :=
  let x := t.decode r.inf a
  let y := t.decode r.inf b
  let z := t.decode r.inf d
  match f with
  | .add => t.finish r (x.add y r.rdn)
  | .sub => t.finish r (x.add y.neg r.rdn)
  | .mul => t.finish r (x.mul y)
  | .mac => t.finish r (Val.fma z x y r.rdn)
  | .nmac => t.finish r (Val.fma z.neg x y r.rdn)
  | .min => minMaxCode t false x y a b
  | .max => minMaxCode t true x y a b
  | .abs => fabsElem t r.inf a
  | .neg => fnegElem t r a
  | .div => t.finish r (x.div y)
  | .sqrt => t.finish r x.sqrt
  | .recip => t.finish r ((Val.ofInt 1).div x)
  | .exp2 => t.finish r (exp2Val x)
  | .log2 => t.finish r (log2Val x)
  | .fclass => (fclassElem t r.inf a, 0)

/-- The arithmetic half of an offset word (09 R217): n is the neighbour element. -/
def offElem (float : Bool) (f : VOff) (t : Fmt) (r : Rnd) (d n b : Nat) : Nat × Flags :=
  match f, float with
  | .mov, _ => (n, 0)
  | .add, true => fpElem .add t r d n b
  | .sub, true => fpElem .sub t r d n b
  | .mac, true => fpElem .mac t r d n b
  | .add, false => intElem .add t n b
  | .sub, false => intElem .sub t n b
  | .mac, false => (wrapInt t.width (t.intOf d + t.intOf n * t.intOf b), 0)

/-- VCMP (09 R219). -/
def cmpInt (o : Cond) (t : Fmt) (a b : Nat) : Bool :=
  let x := t.intOf a
  let y := t.intOf b
  match o with
  | .eq => x = y | .ne => x ≠ y | .lt => x < y | .le => x ≤ y | .gt => y < x | .ge => y ≤ x | .un => false

/-- VFCMP with the flag it raises (09 R219). -/
def cmpFp (o : Cond) (t : Fmt) (inf : Bool) (a b : Nat) : Bool × Flags :=
  let x := t.decode inf a
  let y := t.decode inf b
  let un := x.isNan || y.isNan
  let sig := sigFlag [x, y]
  match o with
  | .eq => (Val.eq x y, sig)
  | .ne => (!Val.eq x y, sig)
  | .un => (un, sig)
  | .lt => (!un && Val.lt x y, flagIf un NV)
  | .le => (!un && !Val.lt y x, flagIf un NV)
  | .gt => (!un && Val.lt y x, flagIf un NV)
  | .ge => (!un && !Val.lt x y, flagIf un NV)

/-- The number n as an element of a numeric format (09 R225). -/
def iotaElem (t : Fmt) (r : Rnd) (n : Nat) : Nat × Flags :=
  if t.isInt then (n % 2 ^ t.width, 0) else t.round r (.ofInt n)

/-- SCAC's element (04 R103): v is the scale byte. With 0xFF it raises nothing, a signalling NaN among its sources
or not: DESIGN CHOICE, log entry 98. -/
def scacElem (r : Rnd) (d a v : Nat) : Nat × Flags :=
  if v = 0xFF then (Fmt.f32.nanCode, 0)
  else
    let s : Val := .fin ⟨false, 1, (v : Int) - 127, false⟩
    Fmt.f32.finish r (Val.fma (Fmt.f32.decode r.inf d) (Fmt.f32.decode r.inf a) s r.rdn)

/-! ### Reductions and scans -/

/-- A partial result, with the highest position it covers; `none` is absent (04 R98). -/
abbrev Node := Option Nat × Nat

/-- How two codes combine at an element index: the code and its flags. -/
abbrev Combine := Nat → Nat → Nat → Nat × Flags

/-- combine(p, q) of 04 R98 at an index, with the flags raised and their elements. -/
def combineAt (f : Combine) (idx : Nat) (p q : Option Nat) : Option Nat × List (Nat × Flags) :=
  match p, q with
  | none, q => (q, [])
  | p, none => (p, [])
  | some a, some b => let (c, fl) := f idx a b; (some c, if fl = 0 then [] else [(idx, fl)])

/-- One level of a group's tree: neighbours combine at the index min(b, last). -/
def treeLevel (f : Combine) (base last : Nat) : List Node → List Node × List (Nat × Flags)
  | (p, _) :: (q, b) :: t =>
    let (r, fl) := combineAt f (base + min b last) p q
    let (l, fs) := treeLevel f base last t
    ((r, b) :: l, fl ++ fs)
  | l => (l, [])

/-- The tree over at most 2^n nodes. -/
def treeLevels (f : Combine) (base last : Nat) : Nat → List Node → Option Nat × List (Nat × Flags)
  | 0, l => ((l.head?.bind (·.1)), [])
  | n + 1, l =>
    let (l', fs) := treeLevel f base last l
    let (r, gs) := treeLevels f base last n l'
    (r, fs ++ gs)

/-- groupTree(g, last) of 04 R98: v gives the code of an active position. -/
def groupTree (f : Combine) (m g last : Nat) (v : Nat → Option Nat) : Option Nat × List (Nat × Flags) :=
  treeLevels f (g * m) last 9 ((List.range m).map fun j => (if j ≤ last then v (g * m + j) else none, j))

/-- The running accumulator after groups 0 .. n − 1 (04 R98). -/
def reduceBelow (f : Combine) (m : Nat) (v : Nat → Option Nat) : Nat → Option Nat × List (Nat × Flags)
  | 0 => (none, [])
  | g + 1 =>
    let (a, fs) := reduceBelow f m v g
    let (t, gs) := groupTree f m g (m - 1) v
    let (r, hs) := combineAt f (g * m + m - 1) a t
    (r, fs ++ gs ++ hs)

/-- The combination of a reduction in a format (09 R229). -/
def redCombine (f : VRed) (t : Fmt) (r : Nat → Rnd) : Combine := fun idx a b =>
  match f with
  | .sum => if t.isInt then (wrapInt t.width (t.intOf a + t.intOf b), 0) else fpElem .add t (r idx) 0 a b
  | .max => if t.isInt then intElem .max t a b else fpElem .max t (r idx) 0 a b
  | .min => if t.isInt then intElem .min t a b else fpElem .min t (r idx) 0 a b
  | .and => (a &&& b, 0)
  | .or => (a ||| b, 0)
  | .xor => (a ^^^ b, 0)

/-- What a reduction of no element gives (09 R229). -/
def redNone (f : VRed) (t : Fmt) (inf : Bool) : Nat :=
  let w := t.width
  match f with
  | .sum | .or | .xor => 0
  | .and => 2 ^ w - 1
  | .max =>
    if t.isInt then wrapInt w t.minInt
    else if t.isUnsignedFloat then 0
    else if t.hasInf inf then t.infCode true
    else t.maxCode inf + 2 ^ (w - 1)
  | .min =>
    if t.isInt then wrapInt w t.maxInt
    else if t.isUnsignedFloat then 0xFE
    else if t.hasInf inf then t.infCode false
    else t.maxCode inf

/-! ### Algebras -/

/-- The bytes of a table image (04 R105), as one number: byte k at bit 8·k. -/
def tableOf (dim conj nsig : Nat) (rows : List (List Nat)) : BitVec 576 :=
  let ent := fun (i j : Nat) => (rows.getD i []).getD j 0
  BitVec.ofNat 576 (dim + conj * 2 ^ 8 + nsig * 2 ^ 16 +
    (List.range 8).foldl (fun s i => (List.range 8).foldl (fun s j => s + ent i j * 2 ^ (8 * (8 + 8 * i + j))) s) 0)

/-- A4, Cl(3,0) (04 R106). -/
def tableA4 : BitVec 576 := tableOf 8 0x7E 0x8E
  [[0x00, 0x01, 0x02, 0x03, 0x04, 0x05, 0x06, 0x07],
   [0x01, 0x00, 0x04, 0x0E, 0x02, 0x07, 0x0B, 0x05],
   [0x02, 0x0C, 0x00, 0x05, 0x09, 0x03, 0x07, 0x06],
   [0x03, 0x06, 0x0D, 0x00, 0x07, 0x0A, 0x01, 0x04],
   [0x04, 0x0A, 0x01, 0x07, 0x08, 0x0E, 0x05, 0x0B],
   [0x05, 0x07, 0x0B, 0x02, 0x06, 0x08, 0x0C, 0x09],
   [0x06, 0x03, 0x07, 0x09, 0x0D, 0x04, 0x08, 0x0A],
   [0x07, 0x05, 0x06, 0x04, 0x0B, 0x09, 0x0A, 0x08]]

/-- The reset contents of A0 to A7 (04 R106). -/
def resetTable (j : Nat) : BitVec 576 :=
  match j with
  | 0 => tableOf 1 0 0 [[0x00]]
  | 1 => tableOf 2 0x02 0x00 [[0x00, 0x01], [0x01, 0x08]]
  | 2 => tableOf 2 0x02 0x02 [[0x00, 0x01], [0x01, 0x00]]
  | 3 => tableOf 4 0x0E 0x00 [[0x00, 0x01, 0x02, 0x03], [0x01, 0x08, 0x03, 0x0A], [0x02, 0x0B, 0x08, 0x01], [0x03, 0x02, 0x09, 0x08]]
  | 4 => tableA4
  | _ => 0

/-- Table Aj of a context (04 R104). -/
def Ctx.table (c : Ctx) (j : Nat) : BitVec 576 := if j = 0 then resetTable 0 else tget (resetTable j) c.tabs j

/-- Fields of a table (04 R105). -/
def algDim (t : BitVec 576) : Nat := fld t.toNat 0 8
def algConj (t : BitVec 576) (c : Nat) : Bool := t.getLsbD (8 + c)
def algNsig (t : BitVec 576) (c : Nat) : Bool := t.getLsbD (16 + c)
/-- Entry (i, j): its sign code and its basis index. -/
def algEntry (t : BitVec 576) (i j : Nat) : Nat × Nat :=
  let b := fld t.toNat (8 * (8 + 8 * i + j)) 8
  (b / 8 % 4, b % 8)

/-- Whether ALD refuses an image (04 R105). -/
def badTable (t : BitVec 576) : Bool :=
  let n := algDim t
  let byte := fun (k : Nat) => fld t.toNat (8 * k) 8
  !(n = 1 || n = 2 || n = 4 || n = 8) || byte 1 / 2 ^ n ≠ 0 || byte 2 / 2 ^ n ≠ 0 || fld t.toNat 24 40 ≠ 0 ||
    (List.range 8).any fun i => (List.range 8).any fun j =>
      let b := byte (8 + 8 * i + j)
      b / 8 % 4 = 3 || 32 ≤ b || n ≤ b % 8 || (b ≠ 0 && (n ≤ i || n ≤ j))

/-- NV for infinities of both signs among the terms of a sum, which has no order: a NaN among them does not hide it (04 R96). -/
def infClash (l : List Val) : Flags := flagIf (l.contains (.inf true) && l.contains (.inf false)) NV

/-- An exact sum of products, with the flags of its terms. -/
def sumProducts (rdn : Bool) (l : List (Val × Val)) : Res :=
  let s := l.foldl (fun (s : Res) x =>
    let q := Val.fma s.v x.1 x.2 rdn
    ⟨q.v, s.f ||| q.f⟩) ⟨.zero false, 0⟩
  ⟨s.v, s.f ||| infClash (l.map fun x => (Val.fma (.zero false) x.1 x.2 rdn).v)⟩

/-- The terms of component r of prod(a, b) (04 R108). -/
def algTerms (t : BitVec 576) (r : Nat) (a b : Nat → Val) : List (Val × Val) :=
  let n := algDim t
  (List.range n).flatMap fun i => (List.range n).filterMap fun j =>
    let e := algEntry t i j
    if e.2 ≠ r || 2 ≤ e.1 then none else some (if e.1 = 1 then (a i).neg else a i, b j)

/-- Component r of prod(a, b) (04 R108), exactly, with the flags of its terms. -/
def algProd (t : BitVec 576) (rdn : Bool) (r : Nat) (a b : Nat → Val) : Res := sumProducts rdn (algTerms t r a b)

/-- The norm of an algebra element (04 R109). -/
def algNorm (t : BitVec 576) (rdn : Bool) (a : Nat → Val) : Res :=
  sumProducts rdn ((List.range (algDim t)).map fun c => (if algNsig t c then (a c).neg else a c, a c))

end Sys2Proof.Machine
end

