-- ==== Sys2Proof/Machine/EngOp.lean ====
section
/-! DEFINITION. EngOp: what a child operation is: the fields of what it captured (03 R63, 10 R249, R265), its steps (R250), and the
bytes it reads and writes, by operand offset (R252 to R267). -/

namespace Sys2Proof.Machine

/-! ### Captured fields -/

/-- The fields of CSH and CST (03 R63); the pitches are signed. -/
def EngOp.rb (o : EngOp) : Nat := fldW o.csh 0 32
def EngOp.nrows (o : EngOp) : Nat := fldW o.csh 32 32
def EngOp.spch (o : EngOp) : Word := sextW (fldW o.cst 0 32) 32
def EngOp.dpch (o : EngOp) : Word := sextW (fldW o.cst 32 32) 32

/-- The fields of MSH and MFT (03 R63). -/
def mshM (v : Word) : Nat := fldW v 0 8
def mshN (v : Word) : Nat := fldW v 8 8
def mshK (v : Word) : Nat := fldW v 16 16
def mshKm (v : Word) : Nat := fldW v 32 3
def mshSp (v : Word) : Bool := bitW v 35
def mftA (v : Word) : Fmt := (Fmt.ofCode (fldW v 0 5)).getD .f32
def mftB (v : Word) : Fmt := (Fmt.ofCode (fldW v 5 5)).getD .f32
def mftC (v : Word) : Fmt := (Fmt.ofCode (fldW v 10 5)).getD .f32
def mftAlg (v : Word) : Nat := fldW v 15 3
def mftOrd (v : Word) : Bool := bitW v 18
def mftAcc (v : Word) : Bool := bitW v 19

/-- Whether an operation is a collective (10 R266). -/
def OpKind.isColl : OpKind → Bool
  | .cred _ | .cgat | .cbc | .cbar => true
  | _ => false

/-- The fields of a team descriptor (10 R265). -/
def EngOp.teamKind (o : EngOp) : Nat := fldW (o.team.getD 0 0) 0 2
def EngOp.teamBase (o : EngOp) : Nat := fldW (o.team.getD 0 0) 16 10
def EngOp.teamCount (o : EngOp) : Nat := fldW (o.team.getD 0 0) 26 11
def EngOp.teamAll (o : EngOp) : Bool := bitW (o.team.getD 0 0) 37
def EngOp.teamRoot (o : EngOp) : Nat := fldW (o.team.getD 0 0) 38 10
def EngOp.teamSelf (o : EngOp) : Nat := fldW (o.team.getD 0 0) 48 10
def EngOp.teamTag (o : EngOp) : Word := o.team.getD 1 0
def EngOp.teamMember (o : EngOp) (m : Nat) : Nat := fldW (o.team.getD (2 + m / 4) 0) (16 * (m % 4)) 16

/-- The active elements of a captured brick or pair of bricks, in ascending order (10 R256, R269). -/
def EngOp.actives (o : EngOp) : List Nat :=
  let w := (fmtOf o.ctl.vt).width
  (List.range (brickElems w)).filter (active w o.ctl.vl o.ctl.vm o.mask)

/-- Where a copy-family operation writes (10 R252, R255, R256). -/
def EngOp.dst (o : EngOp) : Word := match o.kind with | .copym | .grows => o.xa1 | _ => o.xb

/-- The row numbers GROWS gathers, by rank (10 R256). -/
def EngOp.growRows (o : EngOp) : List Nat := let w := (fmtOf o.ctl.vt).width; o.actives.map fun e => elem o.brickB w e

/-- Whether a matrix command is sparse, and its offsets (10 R255, R260). -/
def EngOp.sparse (o : EngOp) : Bool := match o.kind with | .mmas => true | .copym => bitW o.xb 35 | _ => false
def EngOp.aoff (o : EngOp) : Nat := match o.kind with | .copym => fldW o.xb 0 22 | _ => fldW o.xa 0 22
def EngOp.boff (o : EngOp) : Nat := match o.kind with | .copym => fldW o.xb 22 13 | _ => fldW o.xb 0 13
/-- The dimension of the captured algebra. -/
def EngOp.dim (o : EngOp) : Nat := algDim o.table

/-- Bytes in one row of C that MRD writes (10 R264), and where row i begins. -/
def EngOp.mrdRow (o : EngOp) : Nat := mshN o.msh * o.dim * ((mftC o.mft).width / 8)
def EngOp.mrdAt (o : EngOp) (i : Nat) : Nat := fldW o.xa 0 22 + i * o.mrdRow

/-- The first row of MRD that reaches beyond the scratchpad. -/
def EngOp.mrdBad (o : EngOp) : Option Nat := (List.range (mshM o.msh)).find? fun i => scratchBytes < o.mrdAt (i + 1)

/-! ### Steps -/

/-- The steps of the copy part (10 R252), of the matrix part (R250: blocks of 128 k positions), of a data collective (R250: 4 KiB),
and the pages of a migration (R270). -/
def EngOp.copySteps (o : EngOp) : Nat := (o.nrows * o.rb + 511) / 512
def EngOp.kSteps (o : EngOp) : Nat := (mshK o.msh + 127) / 128
def EngOp.collSteps (o : EngOp) : Nat := (o.rb + 4095) / 4096
def EngOp.pages (o : EngOp) : Nat := fldW o.xb 0 8 + 1

/-- Steps of an operation that are complete or abandoned at its ends: how many it has (10 R250). -/
def EngOp.steps (o : EngOp) : Nat :=
  match o.kind with
  | .copy | .copyf => o.copySteps
  | .copym => o.copySteps + o.kSteps
  | .grows => o.growRows.length
  | .publish | .mclr | .cbar => 1
  | .mma | .mmas => o.kSteps
  | .mrd => mshM o.msh
  | .train => ((o.dests.map (·.2)).eraseDups).length
  | .cred _ | .cgat | .cbc => o.collSteps
  | .migrOut | .migrIn => o.pages

/-! ### Operand offsets -/

/-- Bytes in a row, within which the destination has no gap, and the rows (10 R252, R256, R264, R267). A collective whose team has
not been read counts the greatest destination it may have. -/
def EngOp.rowLen (o : EngOp) : Nat :=
  match o.kind with
  | .mrd => o.mrdRow
  | .copy | .copyf | .copym | .grows | .cred _ | .cgat | .cbc => o.rb
  | _ => 0
def EngOp.nRows (o : EngOp) : Nat :=
  match o.kind with
  | .copy | .copyf | .copym => o.nrows
  | .grows => o.growRows.length
  | .mrd => mshM o.msh
  | .cgat => if o.team = [] then 1024 else if o.teamAll || o.teamSelf = o.teamRoot then o.teamCount else 0
  | .cred _ => if o.team = [] || o.teamAll || o.teamSelf = o.teamRoot then 1 else 0
  | .cbc => 1
  | _ => 0

/-- The address of the byte of an operand offset in the destination (10 R252, R256, R264, R267), of an operation with a pitch or
without; and in the source. -/
def EngOp.dstAt (o : EngOp) (off : Nat) : Word :=
  match o.kind with
  | .mrd => word (o.mrdAt 0 + off)
  | .cred _ | .cgat | .cbc => o.xb + word off
  | _ => o.dst + word (off / o.rb) * o.dpch + word (off % o.rb)
def EngOp.srcAt (o : EngOp) (off : Nat) : Word :=
  match o.kind with
  | .cred _ | .cgat | .cbc => o.xa + word off
  | .grows => o.xa + word (o.growRows.getD (off / o.rb) 0) * o.spch + word (off % o.rb)
  | _ => o.xa + word (off / o.rb) * o.spch + word (off % o.rb)

/-- The operand offsets that step n writes, and the step of one. -/
def EngOp.stepOffsets (o : EngOp) (n : Nat) : List Nat :=
  match o.kind with
  | .grows | .mrd => span ((n - 1) * o.rowLen) o.rowLen
  | .cred _ | .cgat | .cbc =>
    (List.range o.nRows).flatMap fun m => span (m * o.rb + 4096 * (n - 1)) (min 4096 (o.rb - 4096 * (n - 1)))
  | _ => span (512 * (n - 1)) (min 512 (o.nrows * o.rb - 512 * (n - 1)))
def EngOp.stepOf (o : EngOp) (off : Nat) : Nat :=
  match o.kind with
  | .grows | .mrd => off / o.rowLen + 1
  | .cred _ | .cgat | .cbc => off % o.rb / 4096 + 1
  | _ => off / 512 + 1

/-- The operand offsets that are written to an address. -/
def EngOp.writers (o : EngOp) (a : Word) : List Nat :=
  (List.range o.nRows).filterMap fun r =>
    let d := (a - o.dstAt (r * o.rowLen)).toNat
    if d < o.rowLen then some (r * o.rowLen + d) else none

/-! ### Destinations -/

/-- The ranges of virtual addresses that an operation writes, as address and length; a train's are its elements that name this
module, as far as is known. -/
def EngOp.ranges (o : EngOp) : List (Nat × Nat) :=
  match o.kind with
  | .train => (o.actives.filter fun e => fld o.brickA.toNat (64 * e + 56) 8 = 0xFF || o.dests.any fun x => x.1 = e && x.2 < 4).map
      fun e => (fld o.brickA.toNat (64 * e) 56, (fmtOf o.ctl.vt).width / 8)
  | .grows | .mrd => []
  | _ => ((List.range o.nRows).map fun r => ((o.dstAt (r * o.rowLen)).toNat, o.rowLen)) ++
      (if o.kind = .copyf then [(o.xa1.toNat, 8)] else [])

/-- n dwords of memory as they stand, by the translations of an operation; none where they cannot be read. -/
def State.opPeek (st : State) (core : Nat) (o : EngOp) (a : Word) (n : Nat) : List Word :=
  let pas := (List.range (8 * n)).filterMap fun i => match st.translate core o.part o.level .read false (a + word i).toNat with
    | .ok l => if region (st.visible l) = .control || st.unreadable (st.visible l) then none else some (st.visible l)
    | _ => none
  if pas.length ≠ 8 * n then [] else
    (List.range n).map fun i => word (leNat (((pas.drop (8 * i)).take 8).map fun pa => (st.last pa).val))

/-- The first two dwords of a team descriptor as they stand; none where they cannot be read. -/
def State.teamHead (st : State) (core : Nat) (o : EngOp) : List Word := st.opPeek core o o.ctm 2

/-- Whether element e of a TRAIN that has not started may name this module (10 R269), by its descriptor as it stands. -/
def State.mayBeHere (st : State) (core : Nat) (o : EngOp) (e : Nat) : Bool :=
  let i := fld o.brickA.toNat (64 * e + 56) 8
  i = 0xFF || match st.teamHead core o with
    | [] => true
    | h =>
      let m := fldW (h.getD 0 0) 16 10 + i
      match st.opPeek core o (o.ctm + word (16 + m / 4 * 8)) 1 with
      | [] => true
      | d => fldW (d.getD 0 0) (16 * (m % 4)) 16 = st.modNum.toNat

/-- The ranges that an operation of a core writes (05 R134): before a TRAIN starts, all its elements that may name this module. -/
def State.opRanges (st : State) (core : Nat) (o : EngOp) : List (Nat × Nat) :=
  if o.kind = .train && o.dests = [] then
    (o.actives.filter (st.mayBeHere core o)).map fun e => (fld o.brickA.toNat (64 * e) 56, (fmtOf o.ctl.vt).width / 8)
  else o.ranges

/-- The buffers an operation writes (05 R133 to R135). -/
def State.opBufs (st : State) (core : Nat) (o : EngOp) : List Nat :=
  let l := st.opRanges core o
  ((st.part o.part).bufs.filter fun b => l.any fun r => rangesMeet r.1 r.2 b.2.vbase b.2.size).map (·.1)

/-- An address in each page of 64 KiB that a range meets. -/
def pagesOf (a n : Nat) : List Nat := if n = 0 then [] else (span (a / 65536) ((a + n - 1) / 65536 - a / 65536 + 1)).map fun k => max a (65536 * k)

/-- Whether an operation writes another module, by the translations as they stand (05 R127). -/
def State.opLeaves (st : State) (core : Nat) (o : EngOp) : Bool :=
  (o.kind = .train && o.actives.any fun e => fld o.brickA.toNat (64 * e + 56) 8 ≠ 0xFF) ||
  o.ranges.any fun r => (pagesOf r.1 r.2).any fun a =>
    match st.translate core o.part o.level .write false a with | .remote _ _ => true | _ => false

/-- The hidden backings an operation has written are void when it ends FAULTED or CANCELLED (05 R135, R47). One that
ends before its first write to a shadowed buffer voids nothing: DEDUCED, log entry 105. -/
def State.voidBuf (st : State) (o : EngOp) : State :=
  if o.wrote = [] then st
  else st.setPart o.part fun q => { q with
    bufs := o.wrote.foldl (fun t b => tput t b { (tget ⟨0, 0, 0, 0, false, false⟩ t b) with void := true }) q.bufs }

/-- Whether an operation writes a buffer that a PUBLISH exchanges. -/
def State.writesBuf (st : State) (core : Nat) (o : EngOp) (b : Nat) : Bool := o.kind ≠ .publish && (st.opBufs core o).contains b

end Sys2Proof.Machine
end

