-- ==== Sys2Proof/Machine/Tasks.lean ====
section
/-! DEFINITION. Tasks: records, queues and rings (02 R27 to R35, 16 R308), launches and their counters (02 R36,
R37, 16 R298 to R303), starting and ending a thread (02 R29, R30), cancelling. -/

namespace Sys2Proof.Machine

/-! ### Records and queues -/

/-- Entries of a core's ring (16 R297). -/
def State.ringSize (st : State) (core : Nat) : Nat := fldW (tget 0 (st.part (st.partOf core)).ring1 core) 0 13

/-- Whether the launch of a record for a core is cancelled: its records are discarded unrun (02 R37). -/
def State.discards (st : State) (core : Nat) (e : QEntry) : Bool :=
  (tget ({} : Launch) (st.part (st.partOf core)).launches e.r.lid).cancelled

/-- A record at the tail of a core's FIFO order (16 R308); none when its queue and its ring are both full. A place that the queue
has, while the head of the ring waits for its stamp (02 R33), is a place of the order. A record of a cancelled launch is discarded as it
comes to stand there (R37). -/
def State.pushTo (st : State) (core : Nat) (e : QEntry) : Option State :=
  let k := st.core core
  let put := fun (f : Core → Core) => some (if st.discards core e then st else st.setCore core f)
  if k.ring = [] && k.queue.length < 32 then put fun k => { k with queue := k.queue ++ [e] }
  else if k.ring.length < st.ringSize core || (k.queue.length < 32 && k.queue.length + k.ring.length < 32 + st.ringSize core) then put fun k => { k with ring := k.ring ++ [e] }
  else none

/-- A continuation pushed by a join: to the queue or ring, else to the join buffer of 4 (02 R35). One that finds room goes past
those that wait in the buffer, of which the manual gives no order (DESIGN CHOICE, log entry 78). -/
def State.joinPush (st : State) (core : Nat) (e : QEntry) : Option State :=
  match st.pushTo core e with
  | some t => some t
  | none => if (st.core core).joinBuf.length < 4 then some (st.setCore core fun k => { k with joinBuf := k.joinBuf ++ [e] }) else none

/-- Dword 3 of a pushed record (02 R28): LID of the issuing thread, GEN clear, PRI the higher of both. -/
def pushedDword (d3 : Word) (lid pri : Nat) : Word := word (max (fldW d3 34 2) pri * 2 ^ 34 + lid)

/-- The launch id, partition and priority of the issuing thread. -/
def State.myLid (st : State) : Nat := match st.me.thread with | some t => t.lid | none => 0
def State.myJob (st : State) : Nat := match st.me.thread with | some t => t.job | none => 0
def State.myPri (st : State) : Nat := match st.me.thread with | some t => t.r.pri | none => 0

/-- A record as the issuing thread pushes it, stamped (02 R28, R33, R34). -/
def State.stamped (st : State) (r : Rec8) : QEntry :=
  let d3 := pushedDword r.d3 st.myLid st.myPri
  ⟨{ r with d3 := d3 }, st.cur, st.me.wic, st.me.clock, none, max (fldW r.d3 34 2) st.myPri⟩

/-- Whether QPUSH refuses a record (02 R28): a reserved bit of dword 3, or a misaligned CODE. -/
def badRecord (r : Rec8) : Bool := fldW r.d0 0 2 ≠ 0 || fldW r.d3 36 28 ≠ 0 || bitW r.d3 33

/-- x8..x15 as a record, as the issuing context reads them. -/
def State.staged (st : State) : Rec8 := ⟨st.rx 8, st.rx 9, st.rx 10, st.rx 11, st.rx 12, st.rx 13, st.rx 14, st.rx 15⟩

/-- Whether a record's pop stamp is met (02 R33). -/
def State.stampMet (st : State) (e : QEntry) : Bool := st.ackedTo e.prod e.wic

/-- The whole FIFO order of a core (16 R308). -/
def Core.fifo (k : Core) : List QEntry := k.queue ++ k.ring
/-- The FIFO order written back: the queue keeps its first 32 places only as refill fills them. -/
def Core.setFifo (k : Core) (l : List QEntry) : Core :=
  { k with queue := l.take k.queue.length, ring := l.drop k.queue.length }
/-- The FIFO order without its entry i. -/
def Core.dropFifo (k : Core) (i : Nat) : Core :=
  if i < k.queue.length then { k with queue := dropAt k.queue i } else { k with ring := dropAt k.ring (i - k.queue.length) }

/-- Whether a record of a core is held for QPOP (20 R365). -/
def State.held (st : State) (core : Nat) (e : QEntry) : Bool :=
  !e.r.gen && (ctxsOf core).any fun c => (st.ctx c).holds && match (st.ctx c).thread with
    | some t => t.lid = e.r.lid
    | none => false
/-- Holds of threads of the core that are saved or parked stay in force (20 R365): their contexts keep `holds` with
the image; `heldSaved` finds them. -/
def State.heldSaved (st : State) (core : Nat) (e : QEntry) : Bool :=
  !e.r.gen && (st.part (st.partOf core)).images.any fun i => coreOf i.ctx = core && i.lid = e.r.lid && i.holds

/-- The first record of a core that a context may take, with its place (16 R304, 20 R365): neither held nor lent. -/
def State.takeable (st : State) (core : Nat) : Option (Nat × QEntry) :=
  let l := (st.core core).fifo
  match findIdx (fun e => e.lent.isNone && !st.held core e && !st.heldSaved core e) l with
  | some i => (l[i]?).map fun e => (i, e)
  | none => none

/-! ### Launches -/

/-- Launch lid of partition p. -/
def State.launch (st : State) (p lid : Nat) : Launch := tget {} (st.part p).launches lid
def State.setLaunch (st : State) (p lid : Nat) (f : Launch → Launch) : State :=
  st.setPart p fun q => { q with launches := tput q.launches lid (f (tget {} q.launches lid)) }
/-- Whether a launch exists and is not complete. -/
def State.alive (st : State) (p lid : Nat) : Bool := thas (st.part p).launches lid && (st.launch p lid).live

/-- Fields of a launch descriptor (16 R298). -/
def Launch.graph (l : Launch) : Nat := fldW l.desc.d3 32 32
def Launch.phase (l : Launch) : Nat := fldW l.desc.d6 0 32
def Launch.cword (l : Launch) : Word := l.desc.d4
/-- Blocks of the grid. -/
def Launch.blocks (l : Launch) : Nat := l.gx * l.gy * l.gz

/-- Whether a slot's state is terminal (02 R40). -/
def SlotState.terminal : SlotState → Bool
  | .done | .faulted | .cancelled => true
  | _ => false

/-- The counter of a launch (02 R36): its tasks that have not ended, and its detached, orphaned and adopted operations (R46) that
are not terminal. It counts what holds storage. -/
def State.launchCount (st : State) (p lid : Nat) : Nat :=
  let cores := st.coresOf p
  let isMine := fun (e : QEntry) => e.r.lid = lid
  let perCore := cores.map fun c =>
    let k := st.core c
    (k.fifo.filter isMine).length + (k.joinBuf.filter isMine).length +
      ((ctxsOf c).filter fun x => match (st.ctx x).thread with | some t => t.lid = lid && t.part = p | none => false).length +
      (k.slots.filter fun e => e.2.op.lid = lid && e.2.op.part = p && (e.2.detached || e.2.adopted || e.2.st = .orphaned) && e.2.st ≠ .free && !e.2.st.terminal).length
  perCore.foldl (· + ·) 0 + (cores.filter fun c => match (st.core c).steal with | some (.accepted _ _ _ e) => isMine e | _ => false).length + ((st.part p).images.filter (·.lid = lid)).length +
    (st.travel.filter fun t => isMine t.e && !t.gone && st.partOf t.core = p).length

/-- Whether a launch belongs to a graph or phase of a job (16 R301). -/
def Launch.inGraph (l : Launch) (job g : Nat) : Bool := l.job = job && l.graph = g && g ≠ 0
def Launch.inPhase (l : Launch) (job ph : Nat) : Bool := l.job = job && l.phase = ph && ph ≠ 0

/-- Launches that are not complete and meet a condition. -/
def State.liveLaunches (st : State) (p : Nat) (f : Launch → Bool) : List Nat :=
  ((st.part p).launches.filter fun e => e.2.live && f e.2).map (·.1)

/-- The counters of the levels (02 R36): graph, phase (its graphs, and its launches in no graph), job. -/
def State.graphCount (st : State) (p job g : Nat) : Nat := (st.liveLaunches p fun l => l.inGraph job g).length
def State.phaseCount (st : State) (p job ph : Nat) : Nat :=
  ((st.part p).graphs.filter fun g => g.job = job && g.phase = ph).length +
    (st.liveLaunches p fun l => l.inPhase job ph && l.graph = 0).length
def State.jobCount (st : State) (p job : Nat) : Nat :=
  ((st.part p).phases.filter fun g => g.job = job).length + (st.liveLaunches p fun l => l.job = job && l.phase = 0).length

/-! ### Threads -/

/-- A word of a task record's setup (02 R29): x8..x15 the record, x3 FRAME, everything else zero. -/
def startRegs (r : Rec8) : Table Word :=
  let t : Table Word := tset 0 [] 3 r.d1
  (List.range 8).foldl (fun t i => tset 0 t (8 + i) (r.dw i)) t

/-- Context c takes a record (02 R29, R34): the thread starts at U with the record's clock, which it takes as an acquire load does (05
R125). What an earlier thread has read binds it only through that clock. -/
def State.startThread (st : State) (c : Nat) (e : QEntry) : State :=
  let p := st.partOf (coreOf c)
  let lid := e.r.lid
  let l := st.launch p lid
  let same := (st.ctx c).prev = some (p, lid)
  { st with nextOrder := st.nextOrder + 1 }.setCtx c fun k =>
    let base : Ctx := if same then
        { ({} : Ctx) with b := k.b, m := k.m, k := k.k, landed := k.landed, links := k.links, ctrl := k.ctrl, tabs := k.tabs }
      else { ({} : Ctx) with ctrl := { ({} : Ctrl) with opri := word e.r.pri } }
    { base with
      x := startRegs e.r
      pc := e.r.d0
      wic := k.wic, wdc := k.wdc
      clock := k.clock.join e.clock
      sys := { k.sys with cpl := .u, ppl := .u, mppl := .u, ecause := k.sys.ecause &&& ~~~0xC000#64, mcause := k.sys.mcause &&& ~~~0xC000#64 }
      thread := some ⟨e.r, p, lid, l.job, st.nextOrder⟩
      looseFrom := st.time, loose := k.loose }

/-- The context is left with no thread (15 R284). `prev` is the launch whose thread ended there by END. -/
def Ctx.freed (k : Ctx) (prev : Option (Nat × Nat)) : Ctx :=
  { k.break with
    fences := []
    -- queued stores discarded unperformed count as drained (log entry 22)
    wdc := k.wdc + ((k.vq ++ k.opened ++ k.claims ++ k.mclaims).filter fun e => e.stores ≠ 0 && !e.numbered).length
    thread := none, prev := prev, wait := none, waited := 0, vq := [], opened := [], landing := [], reads := [], holds := false
    saving := none, claims := [], mclaims := [], yielded := false, flags := []
    sys := { k.sys with cpl := .u, ppl := .u, mppl := .u, ecause := k.sys.ecause &&& ~~~0xC000#64, mcause := k.sys.mcause &&& ~~~0xC000#64 } }

/-- The slots that hold an operation of a context's thread (02 R40), with their cores: a thread may have adopted an
operation of another core (02 R46, 08 R204). -/
def State.ownSlots (st : State) (c : Nat) : List (Nat × Nat × Slot) :=
  st.cores.flatMap fun k => (k.2.slots.filter fun e => e.2.owner = some c && !e.2.saved && e.2.st ≠ .free).map fun e => (k.1, e.1, e.2)

/-- A slot of a core. -/
def State.slot (st : State) (core i : Nat) : Slot := tget {} (st.core core).slots i
def State.setSlot (st : State) (core i : Nat) (f : Slot → Slot) : State :=
  st.setCore core fun k => { k with slots := tput k.slots i (f (tget {} k.slots i)) }
/-- A slot released (02 R42). -/
def Slot.release (t : Slot) : Slot := { t with st := .free, owner := none, detached := false, adopted := false, saved := false }

/-- The member of a team that this unit is: its core, its die, or its module (10 R265). -/
def State.unitOf (st : State) (core kind : Nat) : Nat :=
  match kind with | 0 => core | 1 => dieOf core | _ => st.modNum.toNat

/-- The number that stands for a unit as a member of teams of a kind. -/
def State.memberKey (st : State) (core kind : Nat) : Nat := st.unitOf core kind + 1024 * kind

/-- Whether an operation of a slot is a collective that the member of `o` has issued before it, that has not started, and whose
descriptor, as it stands, bears the TAG of o (10 R265). -/
def State.goesBefore (st : State) (o : EngOp) (mine c : Nat) (x : Slot) : Bool :=
  let e := x.op
  x.st ≠ .free && !x.st.terminal && e.kind.isColl && e.part = o.part && e.team = [] && e.placed.isNone && e.order < o.order &&
    match st.teamHead c e with
    | [] => false
    | h => h.getD 1 0 = o.teamTag && st.memberKey c (fldW (h.getD 0 0) 0 2) = mine

/-- A collective takes its place among those of its TAG that its member has issued (10 R265): the one it was given, or else the next
after those issued before it that have not started, which are given theirs now (log entry 38). -/
def State.joinTeam (st : State) (core slot : Nat) : State :=
  let o := (st.slot core slot).op
  let mine := st.memberKey core o.teamKind
  let js := (st.part o.part).joins
  let next := match js.find? fun j => j.1 = o.teamTag && j.2.1 = mine with | some j => j.2.2 | none => 0
  let given := match o.placed with | some (tag, m, n) => if tag = o.teamTag && m = mine then some n else none | none => none
  match given with
  | some n => st.setSlot core slot fun t => { t with op := { t.op with seq := n } }
  | none =>
    let before := st.cores.flatMap fun c => (c.2.slots.filter fun x => st.goesBefore o mine c.1 x.2).map fun x => x.2.op.order
    let place := fun (n : Nat) => next + (before.filter (· < n)).length
    let st := { st.setPart o.part fun q => { q with
        joins := (o.teamTag, mine, place o.order + 1) :: q.joins.filter fun j => !(j.1 = o.teamTag && j.2.1 = mine) } with
      cores := st.cores.map fun (c : Nat × Core) => (c.1, { c.2 with slots := c.2.slots.map fun (x : Nat × Slot) =>
        (x.1, if st.goesBefore o mine c.1 x.2 then { x.2 with op := { x.2.op with placed := some (o.teamTag, mine, place x.2.op.order) } } else x.2) }) }
    st.setSlot core slot fun t => { t with op := { t.op with seq := place o.order } }

/-- A collective that ends before it has started takes its place among its member's as well, so that the others hear of it (10 R265,
R266; DEDUCED, log entry 90). -/
def State.joinLate (st : State) (core slot : Nat) : State :=
  let o := (st.slot core slot).op
  if !o.kind.isColl || o.team ≠ [] then st
  else match st.teamHead core o with
    | [] => st
    | h => (st.setSlot core slot fun t => { t with op := { t.op with team := h } }).joinTeam core slot

/-- Whether two collectives belong together: of one team by TAG, at the same place in issue order (10 R265). -/
def EngOp.matches (a b : EngOp) : Bool :=
  a.kind.isColl && b.kind.isColl && a.part = b.part && a.team ≠ [] && b.team ≠ [] && a.teamTag = b.teamTag && a.seq = b.seq

/-- A slot that hears of the end of operation t, whose token is `tok` and whose record is r: its successor (02 R45), or another member of
its collective (10 R266). -/
def Slot.hears (x : Slot) (tok : Word) (t : Slot) (ending : SlotState) (r : Rec8) (clk : Clock) : Slot :=
  let x := if x.op.pred = some tok && x.op.predOut.isNone then
    { x with op := { x.op with predOut := some (ending, fldW r.d0 0 8, clk), predD0 := r.d3 } } else x
  if ending ≠ .done && x.op.matches t.op && x.op.failedBy.isNone then { x with op := { x.op with failedBy := some t.op.teamSelf } } else x

/-- The token of a slot (02 R38). -/
def token (core slot gen : Nat) : Word := word (slot + core * 2 ^ 6 + gen * 2 ^ 14)

/-- An operation ends (02 R41, 05 R129): it has finished every write; its die gives it one number, and its slot takes
the clock of its issue joined with that number. Its successors, and the other members of a collective, learn of it. -/
def State.endOp (st : State) (core i : Nat) (ending : SlotState) (r : Option Rec8) : State :=
  let st := if ending = .done then st else st.joinLate core i
  let t := st.slot core i
  let die := dieOf core
  let n := st.issued.at die + 1
  let clk := t.op.clock.join (t.clock.set die n)
  let st := { st with
    issued := st.issued.set die n
    hist := st.hist.map fun (e : Nat × List Ver) => (e.1, e.2.map fun (v : Ver) =>
      if v.tag = Tag.op core i t.gen then { v with num := n, die := Fin.ofNat 4 die, clock := clk } else v)
    cores := st.cores.map fun (e : Nat × Core) => (e.1, { e.2 with
      slots := e.2.slots.map fun (x : Nat × Slot) => (x.1, x.2.hears (token core i t.gen) t ending (r.getD {}) clk) }) }
  (st.setSlot core i fun t => { t with st := ending, clock := clk, frec := r.getD t.frec }).advanceFrontier die

/-- The kind of an operation in its record (18 R332). -/
def OpKind.code : OpKind → Nat
  | .copy => 1 | .copyf => 2 | .copym => 3 | .grows => 4 | .publish => 5 | .mma => 6 | .mmas => 7 | .mclr => 8
  | .mrd => 9 | .train => 10 | .cred _ => 11 | .cgat => 12 | .cbc => 13 | .cbar => 14 | .migrOut => 15 | .migrIn => 16
/-- The unit that performs an operation (18 R333). -/
def OpKind.unit : OpKind → Nat
  | .copy | .copyf | .copym | .grows | .publish => 1
  | .mma | .mmas | .mclr | .mrd => 3
  | .train | .cred _ | .cgat | .cbc | .cbar => 4
  | .migrOut | .migrIn => 5

/-- A reservation or a popped frame of a page in the move is given back (17 R328). The frame stacks stand in memory at
FSB; i is the stack of a leaf's level. -/
def frameStack (level : Nat) : Nat := 4 - level
def Part.stackTop (q : Part) (i : Nat) : Nat := fldW (tget 0 q.fsn i) 0 32
def Part.stackCap (q : Part) (i : Nat) : Nat := fldW (tget 0 q.fsn i) 32 32
def Part.stackAt (q : Part) (i k : Nat) : Nat := fldW (tget 0 q.fsb i) 3 45 * 8 + 8 * k
def Part.setTop (q : Part) (i n : Nat) : Part := { q with fsn := tset 0 q.fsn i (word (q.stackCap i * 2 ^ 32 + n)) }

/-- A frame pushed onto its stack: entry TOP, and then TOP, as one update (17 R328). -/
def State.pushFrame (st : State) (p i frame : Nat) : State :=
  let a := (st.part p).stackAt i ((st.part p).stackTop i)
  (st.deviceWrite (homeDie a) (span a 8) (leBytes 8 frame) {}).setPart p fun q => q.setTop i (q.stackTop i + 1)

/-- The page an operation has reserved, given back. -/
def State.dropPage (st : State) (o : EngOp) : State :=
  match o.page with
  | none => st
  | some (_, _, level, frame) =>
    let i := frameStack level
    if o.kind = .migrOut then st.setPart o.part fun q => { q with
      reserved := tset 0 q.reserved i (tget 0 q.reserved i - 1), tierHeld := q.tierHeld.filter fun h => o.place ≠ some h }
    else st.pushFrame o.part i frame

/-- An operation is cancelled (02 R41, R47): code 0x00 for TCAN, 0x27 for a level. -/
def State.cancelOp (st : State) (core i code : Nat) : State :=
  let t := st.slot core i
  if t.st = .free || t.st.terminal then st
  else
    let unit := if t.op.kind = .copym && t.op.started then 3 else t.op.kind.unit
    let (r, st) := st.record t.op.ctx unit code { kind := t.op.kind.code, step := t.prog, d0 := if code = 0 then 0 else token core i t.gen } t.op.iaddr
    let st := ((st.voidBuf t.op).dropPage t.op).endOp core i .cancelled (some r)
    -- a slot whose thread has ended by a cancel is released at once (02 R30)
    if t.owner.isNone && !t.detached && !t.saved && t.st ≠ .orphaned then st.setSlot core i Slot.release else st

/-- A launch's stores come to include those that a clock covers (02 R50, 13 R274). -/
def State.addStores (st : State) (p lid : Nat) (clk : Clock) : State :=
  st.setLaunch p lid fun l => { l with stores := l.stores.join clk }

/-- A thread that a cancel has ended (02 R30, R37, 15 R284): no step of END is made; its operations are cancelled and
their slots released. -/
def State.killThread (st : State) (c : Nat) : State :=
  let mine := st.ownSlots c
  let st := mine.foldl (fun t e => t.cancelOp e.1 e.2.1 0x27) st
  let clk := mine.foldl (fun k e => k.join (st.slot e.1 e.2.1).clock) (st.ctx c).clock
  let st := mine.foldl (fun t e => t.setSlot e.1 e.2.1 fun x =>
    if x.detached && x.st ≠ .cancelled then { x with owner := none } else x.release) st
  let st := match (st.ctx c).thread with
    | some t => st.addStores t.part t.lid clk
    | none => st
  { st.setCtx c fun k => k.freed none with
    writes := st.writes.map fun w => if w.ctx = c then { w with growing := false } else w }

/-- A saved image of partition p is discarded (02 R37, 18 R341): SPENT is 1 in its thread-state block, its slots are released, the
stores it had begun are complete as they stand, those it had not begun count as drained (log entry 22), and its launch's stores
come to include the thread's. -/
def State.dropImage (st : State) (p : Nat) (i : Image) : State :=
  let st := st.addStores p i.lid (i.held.foldl (fun k e => k.join (st.slot e.1 e.2).clock) i.clock)
  let st := st.applyBytes [i.pa + 0x11E42] [st.peek (i.pa + 0x11E42) ||| 2] 0 0 {} .none
  let st := i.held.foldl (fun t e =>
    if (t.slot e.1 e.2).saved then t.setSlot e.1 e.2 fun x =>
      if x.detached && x.st ≠ .cancelled then { x with owner := none, saved := false } else x.release else t) st
  let n := ((i.words ++ i.claims ++ i.mclaims).filter fun e => e.stores ≠ 0 && !e.numbered).length
  { st.setCtx i.ctx fun k => { k with wdc := k.wdc + n } with
    writes := st.writes.map fun w => if w.ctx = 1000 + i.uid then { w with growing := false, ctx := i.ctx } else w }

/-- Launch lid of partition p is cancelled (02 R37). -/
def State.cancelLaunch (st : State) (p lid : Nat) : State :=
  let st := st.setLaunch p lid fun l => { l with cancelled := true }
  let mine := fun (e : QEntry) => !(e.r.lid = lid)
  -- records are discarded unrun
  let st := (st.coresOf p).foldl (fun t c => t.setCore c fun k =>
    { k with queue := k.queue.filter mine, ring := k.ring.filter mine, joinBuf := k.joinBuf.filter mine
             steal := match k.steal with
               | some (.copy _ _ e) | some (.acked _ _ _ e) | some (.accepted _ _ _ e) => if mine e then k.steal else none
               | x => x }) st
  let st := { st with travel := st.travel.map fun (t : Travel) => if !mine t.e && st.partOf t.core = p then { t with gone := true } else t }
  -- operations, attached, detached, orphaned or parked
  let st := (st.coresOf p).foldl (fun t c => ((t.core c).slots.filter fun e => e.2.op.lid = lid && e.2.op.part = p).foldl
    (fun t e => t.cancelOp c e.1 0x27) t) st
  -- saved images: SPENT = 1 in the thread-state block (18 R341), slots released
  let st := ((st.part p).images.filter (·.lid = lid)).foldl (fun t i =>
    t.dropImage p i) st
  st.setPart p fun q => { q with images := q.images.filter fun i => i.lid ≠ lid }

/-- The launches inside a level (02 R37). -/
inductive LevelName where
  | launch (lid : Nat) | graph (job g : Nat) | phase (job ph : Nat) | job (job : Nat)
deriving DecidableEq, Repr

/-- Whether a launch of the partition, with its id, is inside a level. -/
def LevelName.has (n : LevelName) (lid : Nat) (l : Launch) : Bool :=
  match n with
  | .launch i => lid = i
  | .graph j g => l.inGraph j g
  | .phase j ph => l.inPhase j ph
  | .job j => l.job = j

/-- The launches of a level that are not complete. -/
def State.levelLaunches (st : State) (p : Nat) (n : LevelName) : List Nat :=
  ((st.part p).launches.filter fun e => e.2.live && n.has e.1 e.2).map (·.1)

/-- A level is cancelled (02 R37): generation stops, records, operations and images go at once; running threads stop
by CANCEL_REACHES_THREAD, and the copies of a gang launch by its initiator (16 R314). -/
def State.cancelLevel (st : State) (p : Nat) (n : LevelName) : State :=
  (st.levelLaunches p n).foldl (fun t lid =>
    let t := t.cancelLaunch p lid
    match (t.launch p lid).gang with
    | some g =>
      if g.initiator then
        (g.members.filter (· ≠ t.modNum.toNat)).foldl (fun (t : State) m => t.emit (t.portOf m) (.gangCancel p lid m)) t
      else t
    | none => t) st

end Sys2Proof.Machine
end

