-- ==== Sys2Proof/Machine/Sync.lean ====
section
/-! DEFINITION. Sync: END and the join (02 R30, R31, R35), STALL, SLIP, YIELD, SVC and BRK (08 R194, R195). -/

namespace Sys2Proof.Machine

/-- A word of format XR (07 R159), as a trap records it (18 R330). -/
def xrWord (op : Nat) (s : Fin 4) (d a b fn : Nat) : Word :=
  word (s.val * 2 ^ 29 + op * 2 ^ 23 + d * 2 ^ 18 + a * 2 ^ 13 + b * 2 ^ 8 + fn)

/-! ### Joins -/

/-- A continuation as a join pushes it (02 R28, R35): reserved bits and CODE [1:0] cleared, stamped, with the clock of
the joiner, which covers the counter's. -/
def State.continuation (st : State) (r : Rec8) : QEntry :=
  st.stamped { r with d0 := r.d0 &&& ~~~3#64 }

/-- Whether a join buffer has room, or the queue or ring has (02 R35). -/
def State.joinRoom (st : State) (core : Nat) : Bool :=
  (st.core core).joinBuf.length < 4 || (st.pushTo core ⟨{}, 0, 0, {}, none, 0⟩).isSome

/-- join(a) of 02 R35 over the 80 bytes of a join block: one atomic operation at the counter's home, a release; the
record is read in the same step. -/
def State.joinAt (st : State) (pas : List Nat) : Nat × State :=
  let cnt := pas.take 8
  let vs := cnt.map st.last
  let old := leNat (vs.map (·.val))
  let st := st.observe st.cur cnt vs
  if old = 0 then (2, st)
  else
    let rec8 := (pas.drop 8).take 64
    let die := dieOf (coreOf st.cur)
    let st := st.numberLoose st.cur (st.issued.at die + 1) (st.me.clock.set die (st.issued.at die + 1)) fun _ => true
    let st := st.deviceWrite die cnt (leBytes 8 (old - 1)) st.me.clock
    let st := st.setMe fun c => { c with clock := c.clock.set die (st.issued.at die) }
    let st := st.made st.cur cnt
    if old ≠ 1 then (0, st)
    else
      let bs := rec8.map fun pa => (st.last pa).val
      let r := Rec8.ofList ((List.range 8).map fun i => word (leNat ((bs.drop (8 * i)).take 8)))
      (1, (st.joinPush (coreOf st.cur) (st.continuation r)).getD st)

/-- An atomic OR into an aligned dword (02 R30, R31): flags only ever rise. -/
def State.atomicOr (st : State) (pas : List Nat) (v : Nat) : State :=
  let vs := pas.map st.last
  let st := st.observe st.cur pas vs
  st.deviceWrite (dieOf (coreOf st.cur)) pas (leBytes 8 (leNat (vs.map (·.val)) ||| v)) st.me.clock

/-! ### END -/

/-- The attached operations of a thread (02 R30). -/
def State.attached (st : State) (c : Nat) : List (Nat × Nat × Slot) := (st.ownSlots c).filter fun e => !e.2.2.detached

/-- The waits of END (02 R30), and those of its join: loose writes for its release (05 R125), and room (02 R35). -/
def State.endReady (st : State) : Bool :=
  let k := st.me
  let join := match k.thread with | some t => t.r.d2 ≠ 0 | none => false
  k.vq = [] && k.opened = [] && k.landing = [] && st.quiet && (st.attached st.cur).all (·.2.2.st.terminal) &&
    (!join || (k.loose = [] && st.joinRoom (coreOf st.cur)))

/-- The locations of n bytes that must permit reads and writes at a level, or the trap. -/
def State.probeRW (st : State) (lvl : Level) (a : Word) (n : Nat) : Sum (List Nat) (Tr × Word) :=
  match st.locate (coreOf st.cur) (st.partOf (coreOf st.cur)) lvl .atomic true a n with
  | .inl locs => if st.isMmio locs then .inr (.access, a) else .inl (locs.map st.visible)
  | .inr t => .inr t

/-- A word of the issuing context goes on when the storage of these bytes can be reached and read (18 R345, R347); lines rebuilt
are rewritten (17 R325), and the core keeps the translations (R320). -/
def State.reaching (st : State) (va : Word) (pas : List Nat) (f : State → Out) : Out :=
  match st.hardError (coreOf st.cur) va pas with
  | some (code, d) => .next (st.trap code d)
  | none => f ((st.rebuild pas).fillAt (coreOf st.cur) (st.partOf (coreOf st.cur)) va pas.length)

/-- The slots of the ending thread (02 R30): detached operations are orphaned or stay with the launch; attached slots
are released. The flag says that some attached fault was never read; the clock covers what was released. -/
def State.endSlots (st : State) (c : Nat) : Bool × Clock × State :=
  let mine := st.ownSlots c
  let cf := mine.any fun e => !e.2.2.detached && e.2.2.st = .faulted
  let clk := mine.foldl (fun k e => if e.2.2.detached then k else k.join e.2.2.clock) {}
  (cf, clk, mine.foldl (fun t e => t.setSlot e.1 e.2.1 fun x =>
    if x.detached then (if x.st.terminal then { x with owner := none } else { x with left := x.st, st := .orphaned, owner := none })
    else x.release) st)

/-- Whether an atomic of a JOIN or an END may be performed at the home of these bytes: the frontiers that its clock names, joined with
the clocks of what it reads and of what the word has read before it, are known there (05 R119, R120). -/
def State.atomicAfter (st : State) (before pas : List Nat) : Bool :=
  let clk := (before ++ pas).foldl (fun k pa => k.join (st.last pa).clock) st.me.clock
  st.servable clk pas && !st.stoppedAhead st.cur none clk pas
/-- The same for the first atomic of a word. -/
def State.atomicServable (st : State) (pas : List Nat) : Bool := st.atomicAfter [] pas

/-- The effect of END for a thread whose probes succeed (02 R30). -/
def State.endThread (st : State) (t : Thread) (cw : List Nat) (jb : Option (List Nat)) : State :=
  let c := st.cur
  let (cf, clk, st) := st.endSlots c
  let flags := st.me.allFlags.toNat + (if cf then 128 else 0)
  let st := st.atomicOr cw flags
  let st := match jb with
    | none => st
    | some pas => ((st.atomicOr (pas.drop 72) flags).joinAt pas).2
  let st := st.addStores t.part t.lid (st.me.clock.join clk)
  st.setMe fun k => k.freed (some (t.part, t.lid))

/-- END, once its waits hold (02 R30): the probes, and then every step. The firmware thread, which has no launch, only
ends (log entry 23); and a thread whose launch is cancelled makes no step of END (R37). -/
def State.endDone (st : State) : Out :=
  match st.me.thread with
  | none => .next ((st.endSlots st.cur).2.2.setMe fun k => { k.freed none with ended := true })
  | some t =>
    let l := st.launchOf st.cur
    if l.cancelled then .next (st.killThread st.cur)
    else match st.probeRW l.level l.cword 8 with
    | .inr (e, va) => st.pageTrap e va .atomic 0
    | .inl cw =>
      let waits := Host.Outcome.next (st.block st.me.ws .endTask)
      if t.r.d2 = 0 then st.reaching l.cword cw fun st => if st.atomicServable cw then .next (st.endThread t cw none) else waits
      else if t.r.d2.toNat % 8 ≠ 0 then .next (st.trap Code.align { va := t.r.d2 })
      else match st.probeRW st.me.sys.cpl t.r.d2 80 with
        | .inr (e, va) => st.pageTrap e va .atomic 0
        | .inl pas => st.reaching l.cword cw fun st => st.reaching t.r.d2 pas fun st =>
          if st.atomicServable cw && st.atomicAfter cw pas then .next (st.endThread t cw (some pas)) else waits

/-- END (08 R193, 02 R30). -/
def execEndTask (s : Fin 4) (st : State) : Out :=
  if st.endReady then st.endDone else .next (st.block s .endTask)

/-! ### STALL, SLIP, YIELD, SVC, BRK -/

/-- What STALL waits for (08 R194): the queues empty and every result written, landings included. -/
def State.stallReady (st : State) : Bool := st.me.vq = [] && st.me.opened = [] && st.me.landing = []

/-- STALL (08 R194). -/
def execStall (s : Fin 4) (st : State) : Out :=
  if st.stallReady then .next (st.setMe fun c => c.advance s) else .next (st.block s .stall)

/-- SLIP (08 R194): the last queued word is marked, so that no later one starts before it and all before it have. -/
def execSlip (s : Fin 4) (st : State) : Out :=
  .next (st.setMe fun c => { c.advance s with vq := mapAt (fun e => { e with slip := true }) c.vq (c.vq.length - 1) })

/-- YIELD (08 R194): the next turn passes to the other ready contexts of the core. -/
def execYieldTurn (s : Fin 4) (st : State) : Out := .next (st.setMe fun c => { c.advance s with yielded := true })

/-- SVC (08 R195): traps SVC; the return address is pc + 4, and the word counts in ICNT (DEDUCED, log entry 52). -/
def execSvc (_s : Fin 4) (i : BitVec 10) (st : State) : Out :=
  .next ((st.trapWord st.cur Code.svc { d0 := i.setWidth 64 } st.me.pc (st.me.pc + 4) false).setMe fun c =>
    { c with icnt := c.icnt + 1 })

/-- BRK (08 R195): traps BRK; the return address is pc, and the word does not count in ICNT (DEDUCED, log entry 52). -/
def execBrk (_s : Fin 4) (i : BitVec 10) (st : State) : Out :=
  .next (st.trap Code.brk { d0 := i.setWidth 64 })

end Sys2Proof.Machine
end

