-- ==== Sys2Proof/Machine/Queues.lean ====
section
/-! DEFINITION. Queues: the words of major 0x13: QPUSH, QPOP, QTRY, JOIN, EARLY, PWAIT, LNCH, HCAN and HCNT
(08 R196 to R202, 02 R32 to R37, R49, R50). -/

namespace Sys2Proof.Machine

/-! ### Pushes and pops -/

/-- The registers a push reads (08 R197). -/
def recordRegs : List Nat := [8, 9, 10, 11, 12, 13, 14, 15]

/-- A push onto a core's queue (02 R32, 08 R197, 20 R364): at once on the issuing core; to another core the record
travels, and the status returns when it has arrived (log entry 24). `k` is the operand index of the record. -/
def State.push (st : State) (s : Fin 4) (d : Fin 32) (core k : Nat) : Out :=
  let r := st.staged
  if badRecord r then .next (st.illop k)
  else if st.fenced then .next (st.block s .retry)
  else if core = coreOf st.cur then
    match st.pushTo core (st.stamped r) with
    | some t => .next (t.interlocked s d 0)
    | none => .next (st.interlocked s d 1)
  else .next (State.block { st with
    nextOrder := st.nextOrder + 1
    travel := st.travel ++ [{ ctx := st.cur, dst := d, core := core, e := st.stamped r, id := st.nextOrder }] } s (.push d st.nextOrder))

/-- QPUSH (08 R197). -/
def execQpush (s : Fin 4) (d : Fin 32) (st : State) : Out :=
  st.checked recordRegs fun t => t.push s d (coreOf t.cur) 1

/-- QPUSH.C (08 R197): xa names the core; one outside the partition is refused (02 R32, 01 R20), and one that is halted or
about to be takes nothing (15 R290). -/
def execQpushC (s : Fin 4) (d a : Fin 32) (st : State) : Out :=
  st.checked (a.val :: recordRegs) fun t =>
    let core := (t.rx a).toNat
    if 160 ≤ core || core ∉ t.coresOf t.myPart then .next (t.illop 1)
    else if badRecord t.staged then .next (t.illop 2)
    else if (t.core core).halting || (t.core core).halted then .next (t.interlocked s d 1)
    else t.push s d core 2

/-- The record that QPOP and QTRY would take (08 R198): the first of the core's FIFO order that is pushed, of the
issuing thread's launch, and not lent. -/
def State.popAt (st : State) : Option (Nat × QEntry) :=
  let l := (st.core (coreOf st.cur)).fifo
  match findIdx (fun e => !e.r.gen && e.r.lid = st.myLid && e.lent.isNone) l with
  | some i => (l[i]?).map fun e => (i, e)
  | none => none

/-- The thread holds the records of its launch on its core (20 R365). -/
def State.hold (st : State) : State := st.setMe fun c => { c with holds := true }

/-- The record is taken: x8..x15, and the clock as by an acquire load (08 R198, 02 R34, 05 R125); the results are interlocked. -/
def State.popTake (st : State) (i : Nat) (e : QEntry) : State :=
  let st := st.setCore (coreOf st.cur) fun k => k.dropFifo i
  st.setMe fun c =>
    let c := { c with clock := c.clock.join e.clock, looseFrom := st.time }
    (List.range 8).foldl (fun c j => c.result (8 + j) (e.r.dw j) 1) c

/-- Whether QPOP can complete: its record exists and its stamp is met. -/
def State.popReady (st : State) : Bool := match st.popAt with | some (_, e) => st.stampMet e | none => false

/-- QPOP, when its record can be taken. -/
def State.popDone (st : State) (s : Fin 4) : Out :=
  match st.popAt with
  | some (i, e) => .next ((st.popTake i e).setMe fun c => c.advance s)
  | none => .next (st.block s .pop)

/-- QPOP (08 R198). -/
def execQpop (s : Fin 4) (st : State) : Out :=
  let t := st.hold
  if t.popReady then t.popDone s else .next (t.block s .pop)

/-- Whether QTRY can complete: nothing to pop, or its record's stamp is met. -/
def State.tryReady (st : State) : Bool := match st.popAt with | some (_, e) => st.stampMet e | none => true

/-- QTRY, when it can complete. -/
def State.tryDone (st : State) (s : Fin 4) (d : Fin 32) : Out :=
  match st.popAt with
  | some (i, e) => .next ((st.popTake i e).interlocked s d 0)
  | none => .next (st.interlocked s d 1)

/-- QTRY (08 R198). -/
def execQtry (s : Fin 4) (d : Fin 32) (st : State) : Out :=
  let t := st.hold
  if t.tryReady then t.tryDone s d else .next (t.block s (.tryPop d))

/-! ### JOIN, EARLY, PWAIT -/

/-- The order of what translations come to (07 R162): a page in a move, which is waited for, an absent page, a refused one, and a walk that
has failed. -/
def Tr.rank : Tr → Nat
  | .moving => 0 | .absent => 1 | .failed _ _ => 3 | _ => 2

/-- The locations that JOIN reaches (02 R35, 08 R199): the counter, to read and write, and the record, to read, whatever the counter holds
(DESIGN CHOICE, log entry 101); or the trap (`Tr.rank`). -/
def State.probeJoin (st : State) (a : Word) : Sum (List Nat) (Tr × Word × Kind) :=
  let at_ := fun (kind : Kind) (a : Word) (n : Nat) =>
    match st.locate (coreOf st.cur) (st.partOf (coreOf st.cur)) st.me.sys.cpl kind true a n with
    | .inl locs => if st.isMmio locs then Sum.inr (Tr.access, a, kind) else .inl (locs.map st.visible)
    | .inr (t, va) => .inr (t, va, kind)
  match at_ .atomic a 8, at_ .read (a + 8) 64 with
  | .inl c, .inl r => .inl (c ++ r)
  | .inr x, .inr y => .inr (if y.1.rank < x.1.rank then y else x)
  | .inr x, _ | _, .inr x => .inr x

/-- Whether JOIN may be made (02 R35, 08 R199): it is a release, and it waits for room. -/
def State.joinReady (st : State) : Bool := st.performed && st.joinRoom (coreOf st.cur)

/-- JOIN, when it may be made: a fault comes before the counter is touched. -/
def State.joinDone (st : State) (s : Fin 4) (d : Fin 32) (a : Word) : Out :=
  match st.probeJoin a with
  | .inr (e, va, kind) => st.pageTrap e va kind 1
  | .inl pas => st.reaching a pas fun st =>
    if st.atomicServable pas then
      let r := st.joinAt pas
      .next (r.2.interlocked s d (word r.1))
    else .next (st.block s (.join d a))

/-- JOIN (08 R199). -/
def execJoin (s : Fin 4) (d a : Fin 32) (st : State) : Out :=
  st.checked [a.val] fun t =>
    let v := t.rx a
    if v.toNat % 8 ≠ 0 then .next (t.trap Code.align { va := v })
    else match t.probeJoin v with
      | .inr (e, va, kind) => t.pageTrap e va kind 1
      | .inl _ => if t.joinReady then t.joinDone s d v else .next (t.block s (.join d v))

/-- EARLY (08 R200, 02 R49). -/
def execEarly (s : Fin 4) (st : State) : Out :=
  let st := match st.me.thread with
    | some t => st.setLaunch t.part t.lid fun l => { l with early := true }
    | none => st
  .next (st.setMe fun c => c.advance s)

/-- Whether PWAIT can complete (02 R50): the predecessor is complete, or there is none. -/
def State.pwaitReady (st : State) : Bool := (st.launchOf st.cur).pred.isNone

/-- PWAIT completes (08 R200, 13 R274): the STAT, and the clock of the predecessor's stores; 0 where there was none. -/
def State.pwaitDone (st : State) (s : Fin 4) (d : Fin 32) : Out :=
  let l := st.launchOf st.cur
  if l.predStat = 0 then .next (st.interlocked s d 0)
  else .next (((st.setMe fun c => { c with clock := c.clock.join l.predClock }).acquired true).interlocked s d (word l.predStat))

/-- PWAIT (08 R200). -/
def execPwait (s : Fin 4) (d : Fin 32) (st : State) : Out :=
  if st.pwaitReady then st.pwaitDone s d else .next (st.block s (.pwait d))

/-! ### Making a launch -/

/-- Whether a descriptor breaks a limit of R299 that needs no other memory. -/
def badDescriptor (d : Rec8) : Bool :=
  let gx := fldW d.d2 0 32
  let gy := fldW d.d2 32 32
  let gz := fldW d.d3 0 32
  let zero := gx = 0 && gy = 0 && gz = 0
  let gang := bitW d.d6 33
  fldW d.d6 35 29 ≠ 0 || fldW d.d0 0 2 ≠ 0 || fldW d.d4 0 3 ≠ 0 || fldW d.d5 0 4 ≠ 0 ||
    (!gang && !zero && d.d7 ≠ 0) || (gang && zero) || (!zero && (gx = 0 || gy = 0 || gz = 0)) || 2 ^ 32 ≤ gx * gy * gz

/-- Whether a window table breaks R298: a reserved bit. -/
def badWindows (w : List Word) : Bool := (List.range 8).any fun i => fldW (w.getD (2 * i + 1) 0) 32 32 ≠ 0

/-- Whether a recorded grid breaks R299. -/
def badGrid (gx gy gz : Nat) : Bool := gx = 0 || gy = 0 || gz = 0 || 2 ^ 32 ≤ gx * gy * gz

/-- Reads of memory by a word of the issuing thread (16 R299): what they give, with the state that has read; a fault; an error of
the storage; or a read that may not be served yet. -/
inductive Got (α : Type) where
  | vals (l : α) (st : State)
  | fault (t : Tr) (va : Word)
  | hard (code : Nat) (d : Detail)
  | later

/-- n dwords read, in order. -/
def State.fetchDwords (st : State) (a : Word) (n : Nat) : Got (List Word) :=
  match st.locate (coreOf st.cur) (st.partOf (coreOf st.cur)) st.me.sys.cpl .read true a (8 * n) with
  | .inr (t, va) => .fault t va
  | .inl locs =>
    let pas := locs.map st.visible
    if st.isMmio locs then .fault .access a
    else if !st.readReady locs then .later
    else match st.hardError (coreOf st.cur) a pas with
    | some (code, d) => .hard code d
    | none =>
      let r := (List.range n).foldl (fun (acc : List Word × State) i =>
        let p8 := (pas.drop (8 * i)).take 8
        let vs := acc.2.threadRead st.cur acc.2.me.clock (a.toNat + 8 * i) p8 (2048 + 16 * i)
        (acc.1 ++ [word (leNat (vs.map (·.val)))], acc.2.observe st.cur p8 vs)) ([], (st.rebuild pas).fillAt (coreOf st.cur) st.myPart a (8 * n))
      .vals r.1 r.2

/-- The members a gang descriptor lists (16 R312), from its dword 0 on. -/
def gangMembers (count : Nat) (l : List Word) : List Nat :=
  (List.range count).map fun m => fldW (l.getD (m / 4) 0) (16 * (m % 4)) 16

/-- Whether a gang's list is refused (16 R312). -/
def State.badGang (st : State) (ms : List Nat) : Bool :=
  ms.any (fun m => !st.gangMember m) || !ms.Nodup || st.modNum.toNat ∉ ms

/-- Whether queue q accepts another launch (16 R295, R300, R301, 19 R355). -/
def State.accepts (st : State) (p q : Nat) : Bool :=
  let r := st.part p
  !r.stopped && bitW ((tget 0 r.qctl q).setWidth 64) 7 && (r.inQueue q).length < 16 && (tget 0 r.qjob q).toNat ∉ r.closedJobs

/-- The next launch id of a partition (16 R300): 0, all ones, and the id of a launch not complete are skipped. -/
def State.nextLid (st : State) (p : Nat) : Nat → Nat → Nat
  | 0, n => n
  | k + 1, n =>
    let n := n % 2 ^ 32
    if n = 0 || n = 2 ^ 32 - 1 || st.alive p n then st.nextLid p k (n + 1) else n

/-- A graph or phase of a job with one more launch (16 R301): made by its first launch, and closed by its last; one that is complete is
replaced by a new one. -/
def joinGroup (gs : List Group) (job id phase : Nat) (last complete : Bool) : List Group :=
  if id = 0 then gs
  else if gs.any (fun g => g.job = job && g.id = id) then
    gs.map fun g => if g.job = job && g.id = id then (if complete then ⟨job, id, phase, last⟩ else { g with last := g.last || last }) else g
  else gs ++ [⟨job, id, phase, last⟩]

/-- Whether a group of a partition is closed. -/
def groupClosed (gs : List Group) (job id : Nat) : Bool := gs.any fun g => g.job = job && g.id = id && g.last
/-- Whether a graph is complete (16 R301). -/
def State.graphOver (st : State) (p job g : Nat) : Bool := groupClosed (st.part p).graphs job g && st.graphCount p job g = 0
/-- Whether a phase is complete (02 R36, 16 R301): its counter is 0, and every store of it is visible package-wide. -/
def State.phaseOver (st : State) (p job ph : Nat) : Bool :=
  groupClosed (st.part p).phases job ph && st.phaseCount p job ph = 0 &&
    (st.part p).launches.all fun e => !e.2.inPhase job ph || [0, 1, 2, 3].all fun d => e.2.stores.le (st.knownAt d)

/-- A launch enters queue q of partition p (16 R299 to R301): the launch with its id, its predecessor (02 R50) and
its groups. -/
def State.makeLaunch (st : State) (p q : Nat) (l : Launch) : Nat × State :=
  let r := st.part p
  let lid := st.nextLid p 1030 r.nextId
  let job := (tget 0 r.qjob q).toNat
  let pri := (tget 0 r.qctl q).toNat % 4
  let pred := if thas r.lastInQueue q then some (tget 0 r.lastInQueue q) else none
  -- a predecessor that is complete is known by its STAT and its stores
  let ended := if pred.isNone then tget (0, {}) r.lastEnds q else (0, {})
  let l := { l with queue := q, job := job, eff := pri, pred := pred, predStat := ended.1, predClock := ended.2 }
  (lid, st.setPart p fun r => { r with
    nextId := lid + 1
    launches := tput r.launches lid l
    lastInQueue := tput r.lastInQueue q lid
    graphs := joinGroup r.graphs job l.graph l.phase (bitW l.desc.d6 32) (st.graphOver p job l.graph)
    phases := joinGroup r.phases job l.phase 0 (bitW l.desc.d6 34) (st.phaseOver p job l.phase) })

/-- LNCH, once its descriptor, windows, grid and gang are read and valid (08 R201, 16 R299, R313). -/
def State.launchMade (st : State) (s : Fin 4) (d : Fin 32) (q : Nat) (desc : Rec8) (win : List Word) (g : Nat × Nat × Nat)
    (ms : List Nat) : Out :=
  let p := st.myPart
  if !st.accepts p q then .next (st.interlocked s d (BitVec.allOnes 64))
  else
    let gang : Option Gang := if bitW desc.d6 33 then
        some { members := ms, acked := [st.modNum.toNat], initiator := true, home := st.modNum.toNat } else none
    let l : Launch := { desc := desc, windows := win, level := st.me.sys.cpl, gx := g.1, gy := g.2.1, gz := g.2.2
                        clock := st.me.clock, moment := st.time, gang := gang }
    let (lid, st) := st.makeLaunch p q l
    let body := desc.list ++ (if win = [] then List.replicate 16 0 else win) ++ [word st.me.sys.cpl.code]
    let st := (ms.filter (· ≠ st.modNum.toNat)).foldl (fun (t : State) m => t.emit (t.portOf m) (.gangLaunch p q m body)) st
    .next (st.interlocked s d (word lid))

/-- The grid and the members that a valid descriptor gives, which for a recorded grid or a gang stand in memory (16 R299, R312);
none where they are refused. Of an entry of a kernel table the dwords at 8 and 16 are read, which hold the grid, and the entry may have
any alignment (DESIGN CHOICE, log entry 102). -/
def State.readShape (st : State) (desc : Rec8) : Got (Option ((Nat × Nat × Nat) × List Nat)) :=
  let own := (fldW desc.d2 0 32, fldW desc.d2 32 32, fldW desc.d3 0 32)
  if bitW desc.d6 33 then
    match st.fetchDwords desc.d7 1 with
    | .fault e va => .fault e va
    | .hard code d => .hard code d
    | .later => .later
    | .vals h st =>
      let n := fldW (h.getD 0 0) 0 11
      if n < 2 || 1024 < n then .vals none st
      else match st.fetchDwords (desc.d7 + 8) ((n + 3) / 4) with
      | .fault e va => .fault e va
      | .hard code d => .hard code d
      | .later => .later
      | .vals m st => .vals (if st.badGang (gangMembers n m) then none else some (own, gangMembers n m)) st
  else if desc.d2 ≠ 0 then .vals (some (own, [])) st
  else match st.fetchDwords (desc.d7 + 8) 2 with
    | .fault e va => .fault e va
    | .hard code d => .hard code d
    | .later => .later
    | .vals k st =>
      let g := (fldW (k.getD 0 0) 0 32, fldW (k.getD 0 0) 32 32, fldW (k.getD 1 0) 0 32)
      .vals (if badGrid g.1 g.2.1 g.2.2 then none else some (g, [])) st

/-- LNCH after the checks that need no memory (08 R201): the reads of 16 R299; of what they find, an illegal operand comes before an
absent page, and that before a refused one (07 R162). -/
def State.lnch (st : State) (s : Fin 4) (d : Fin 32) (a b : Word) : Out :=
  let again : Out := .next (st.block s (.launch d a b))
  if !st.quiet || st.fenced then again
  else match st.fetchDwords a 8 with
  | .fault e va => st.pageTrap e va .read 1
  | .hard code det => .next (st.trap code det)
  | .later => again
  | .vals l st =>
    let desc := Rec8.ofList l
    if badDescriptor desc || (bitW desc.d6 33 && desc.d7.toNat % 8 ≠ 0) then .next (st.illop 1)
    else
      let w := if desc.d5 = 0 then Got.vals [] st else st.fetchDwords desc.d5 16
      let shape := (match w with | .vals _ t => t | _ => st).readShape desc
      let bad := (match w with | .vals l _ => badWindows l | _ => false) || (match shape with | .vals none _ => true | _ => false)
      let pages := (match w with | .fault e va => [(e, va, Kind.read)] | _ => []) ++
        (match shape with | .fault e va => [(e, va, Kind.read)] | _ => []) ++
        (match st.probeRW st.me.sys.cpl desc.d4 8 with | .inr (e, va) => [(e, va, Kind.atomic)] | .inl _ => [])
      if bad then .next (st.illop 1)
      else match [0, 1, 2, 3].flatMap fun r => pages.filter fun x => x.1.rank = r with
      | (e, va, kind) :: _ => st.pageTrap e va kind 1
      | [] =>
        let fills := fun (st : State) => st.fillAt (coreOf st.cur) st.myPart desc.d4 8
        match w, shape with
        | .vals win _, .vals (some (g, ms)) st => (fills st).launchMade s d b.toNat desc win g ms
        | .hard code det, _ | _, .hard code det => .next (st.trap code det)
        | _, _ => again

/-- LNCH (08 R201): a queue not open at U, a queue above 63, and a misaligned descriptor come first (07 R162). -/
def execLnch (s : Fin 4) (d a b : Fin 32) (st : State) : Out :=
  let q := (st.rx b).toNat
  if q < 64 && st.me.sys.cpl = .u && !(st.part st.myPart).lqopen.getLsbD q then
    .next (st.trap Code.priv { d0 := xrWord 0x13 s d.val a.val b.val 7 })
  else st.checked [a.val, b.val] fun t =>
    if 64 ≤ q then .next (t.illop 2)
    else if (t.rx a).toNat % 64 ≠ 0 then .next (t.trap Code.align { va := t.rx a })
    else t.lnch s d (t.rx a) (t.rx b)

/-! ### HCAN and HCNT -/

/-- The four levels (08 R202). -/
inductive LevelKind where
  | launch | graph | phase | job
deriving DecidableEq, Repr

/-- The level an operand names (08 R202, 16 R301): all ones names the level that holds the issuing thread; at S and M
bits [63:32] name the job of a graph or phase, at U it is the thread's own. -/
def State.levelOf (st : State) (k : LevelKind) (v : Word) : LevelName :=
  let own := decide (v = BitVec.allOnes 64)
  let l := st.launchOf st.cur
  let job := if own || st.me.sys.cpl = .u then st.myJob else fldW v 32 32
  match k with
  | .launch => .launch (if own then st.myLid else v.toNat)
  | .graph => .graph job (if own then l.graph else fldW v 0 32)
  | .phase => .phase job (if own then l.phase else fldW v 0 32)
  | .job => .job (if own then st.myJob else fldW v 0 32)

/-- Whether a level exists and is not complete (02 R36, 16 R301). -/
def State.levelExists (st : State) (p : Nat) (n : LevelName) : Bool :=
  let q := st.part p
  match n with
  | .launch i => st.alive p i
  | .graph j g => g ≠ 0 && !st.graphOver p j g && q.graphs.any fun x => x.job = j && x.id = g
  | .phase j h => h ≠ 0 && !st.phaseOver p j h && q.phases.any fun x => x.job = j && x.id = h
  | .job j => j = 0 || q.qjob.any (fun e => e.2.toNat = j) || st.jobCount p j ≠ 0

/-- Whether HCAN and HCNT are refused at U (02 R37, 08 R202): HCAN of a phase or a job, and either of another job's
level. -/
def State.levelPriv (st : State) (p : Nat) (n : LevelName) (cancel : Bool) : Bool :=
  st.me.sys.cpl = .u && match n with
    | .launch i => st.alive p i && (st.launch p i).job ≠ st.myJob
    | .graph _ _ => false
    | .phase _ _ => cancel
    | .job j => cancel || (j ≠ st.myJob && st.levelExists p n)

/-- Whether a level holds the issuing thread. -/
def State.levelHolds (st : State) (n : LevelName) : Bool :=
  st.me.thread.isSome && n.has st.myLid (st.launchOf st.cur)

/-- HCAN (08 R202): a level that holds the issuing thread ends it at once. PRIV comes before STALL_SHORT (07 R162). -/
def State.hcan (st : State) (s : Fin 4) (d a : Fin 32) (k : LevelKind) (fn : Nat) : Out :=
  let p := st.myPart
  let n := st.levelOf k (st.rx a)
  if st.levelPriv p n true then .next (st.trap Code.priv { d0 := xrWord 0x13 s d.val a.val 0 fn })
  else st.checked [a.val] fun t =>
    if !t.levelExists p n then .next (t.interlocked s d 1)
    else if t.levelHolds n then .next ((t.cancelLevel p n).killThread t.cur)
    else .next ((t.cancelLevel p n).interlocked s d 0)

/-- The counter of a level (02 R36). -/
def State.levelCount (st : State) (p : Nat) : LevelName → Nat
  | .launch i => if st.alive p i then st.launchCount p i else 0
  | .graph j g => if g = 0 then 0 else st.graphCount p j g
  | .phase j h => if h = 0 then 0 else st.phaseCount p j h
  | .job j => st.jobCount p j

/-- HCNT (08 R202). -/
def State.hcnt (st : State) (s : Fin 4) (d a : Fin 32) (k : LevelKind) (fn : Nat) : Out :=
  let p := st.myPart
  let n := st.levelOf k (st.rx a)
  if st.levelPriv p n false then .next (st.trap Code.priv { d0 := xrWord 0x13 s d.val a.val 0 fn })
  else st.checked [a.val] fun t =>
    .next (t.interlocked s d (word (t.levelCount p n)))

/-- HCAN.L (08 R202). -/
def execHcanL (s : Fin 4) (d a : Fin 32) (st : State) : Out := st.hcan s d a .launch 0x08
/-- HCAN.G (08 R202). -/
def execHcanG (s : Fin 4) (d a : Fin 32) (st : State) : Out := st.hcan s d a .graph 0x09
/-- HCAN.P (08 R202). -/
def execHcanP (s : Fin 4) (d a : Fin 32) (st : State) : Out := st.hcan s d a .phase 0x0A
/-- HCAN.J (08 R202). -/
def execHcanJ (s : Fin 4) (d a : Fin 32) (st : State) : Out := st.hcan s d a .job 0x0B
/-- HCNT.L (08 R202). -/
def execHcntL (s : Fin 4) (d a : Fin 32) (st : State) : Out := st.hcnt s d a .launch 0x0C
/-- HCNT.G (08 R202). -/
def execHcntG (s : Fin 4) (d a : Fin 32) (st : State) : Out := st.hcnt s d a .graph 0x0D
/-- HCNT.P (08 R202). -/
def execHcntP (s : Fin 4) (d a : Fin 32) (st : State) : Out := st.hcnt s d a .phase 0x0E
/-- HCNT.J (08 R202). -/
def execHcntJ (s : Fin 4) (d a : Fin 32) (st : State) : Out := st.hcnt s d a .job 0x0F

end Sys2Proof.Machine
end

