-- ==== Sys2Proof/Machine/Tokens.lean ====
section
/-! DEFINITION. Tokens: the words of major 0x14: waits on child operations, TCAN, TDET, TADOPT, TSTAT, and the chunk
map (08 R203 to R208, 02 R38 to R47, 05 R129, R132). -/

namespace Sys2Proof.Machine

/-- The fields of a token (02 R38). -/
def tokenSlot (v : Word) : Nat := fldW v 0 6
def tokenCore (v : Word) : Nat := fldW v 6 8
def tokenGen (v : Word) : Nat := fldW v 14 24

/-- Whether a token operand is refused (02 R38, 01 R20). -/
def State.badToken (st : State) (v : Word) : Bool :=
  fldW v 38 26 ≠ 0 || 160 ≤ tokenCore v || !(st.coresOf st.myPart).contains (tokenCore v)

/-- Whether a token is stale (02 R39). -/
def State.stale (st : State) (core slot gen : Nat) : Bool :=
  let t := st.slot core slot
  t.gen ≠ gen || t.st = .free

/-- Whether a slot is owned by the issuing thread (08 R204). -/
def State.ownsSlot (st : State) (t : Slot) : Bool := t.owner = some st.cur && !t.saved && t.st ≠ .free && t.st ≠ .orphaned

/-- What a thread obtains of an operation by observing its end (05 R129): an acquire. -/
def State.acquireSlot (st : State) (core slot : Nat) : State :=
  let k := (st.slot core slot).clock
  (st.setMe fun c => { c with clock := c.clock.join k }).acquired true

/-- A wait that reports slots: an acquire of each, and the release of those that are DONE (02 R42). -/
def State.reported (st : State) (l : List (Nat × Nat)) : State :=
  l.foldl (fun t e =>
    let t := t.acquireSlot e.1 e.2
    if (t.slot e.1 e.2).st = .done then t.setSlot e.1 e.2 Slot.release else t) st

/-- The code of a terminal state for TWAIT (08 R203). -/
def SlotState.waitCode : SlotState → Nat
  | .done => 0 | .faulted => 1 | _ => 2

/-- Whether TWAIT on a token can complete, or must be refused. -/
def State.tokenReady (st : State) (core slot gen : Nat) : Bool :=
  let t := st.slot core slot
  st.stale core slot gen || !st.ownsSlot t || t.st.terminal

/-- TWAIT on a token that can complete (08 R204). -/
def State.tokenDone (st : State) (s : Fin 4) (d : Fin 32) (core slot gen : Nat) : Out :=
  let t := st.slot core slot
  if st.stale core slot gen then .next (st.trap Code.tokenStale { d0 := token core slot gen })
  else if !st.ownsSlot t then .next (st.illop 1)
  else .next ((st.reported [(core, slot)]).interlocked s d (word t.st.waitCode))

/-- TWAIT (08 R204). -/
def execTwait (s : Fin 4) (d a b : Fin 32) (st : State) : Out :=
  st.checked [a.val, b.val] fun t =>
    let v := t.rx a
    if t.badToken v then .next (t.illop 1)
    else if t.tokenReady (tokenCore v) (tokenSlot v) (tokenGen v) then t.tokenDone s d (tokenCore v) (tokenSlot v) (tokenGen v)
    else .next (t.block s (.token d (tokenCore v) (tokenSlot v) (tokenGen v) (t.rx b)))

/-- The slots of the issuing core that a mask names and the thread owns (08 R205). -/
def State.masked (st : State) (m : Word) : List (Nat × Slot) :=
  (st.core (coreOf st.cur)).slots.filter fun e => m.getLsbD e.1 && e.1 < 64 && st.ownsSlot e.2

/-- The slots of a mask that are terminal, in ascending order. -/
def State.maskedEnded (st : State) (m : Word) : List Nat := ((st.masked m).filter (·.2.st.terminal)).map (·.1)

/-- Whether TWAIT.ANY and TFFR can complete. -/
def State.anyReady (st : State) (m : Word) : Bool := st.masked m = [] || st.maskedEnded m ≠ []

/-- TWAIT.ANY (08 R205). -/
def State.anyDone (st : State) (s : Fin 4) (d : Fin 32) (m : Word) : Out :=
  match st.maskedEnded m with
  | [] => .next (st.interlocked s d 65)
  | i :: _ => .next ((st.reported [(coreOf st.cur, i)]).interlocked s d (word i))

/-- TWAIT.ANY (08 R205). -/
def execTwaitAny (s : Fin 4) (d a b : Fin 32) (st : State) : Out :=
  st.checked [a.val, b.val] fun t =>
    if t.anyReady (t.rx a) then t.anyDone s d (t.rx a) else .next (t.block s (.any d (t.rx a) (t.rx b)))

/-- TFFR (08 R205): the search begins after the pointer, and sets it. -/
def State.ffrDone (st : State) (s : Fin 4) (d : Fin 32) (m : Word) : Out :=
  let l := st.maskedEnded m
  match (l.filter (st.me.sptr < ·)) ++ l with
  | [] => .next (st.interlocked s d 65)
  | i :: _ => .next (((st.reported [(coreOf st.cur, i)]).setMe fun c => { c with sptr := i }).interlocked s d (word i))

/-- TFFR (08 R205). -/
def execTffr (s : Fin 4) (d a b : Fin 32) (st : State) : Out :=
  st.checked [a.val, b.val] fun t =>
    if t.anyReady (t.rx a) then t.ffrDone s d (t.rx a) else .next (t.block s (.ffr d (t.rx a) (t.rx b)))

/-- Whether TWAIT.ALL can complete. -/
def State.allReady (st : State) (m : Word) : Bool := (st.masked m).all (·.2.st.terminal)

/-- TWAIT.ALL (08 R205). -/
def State.allDone (st : State) (s : Fin 4) (d : Fin 32) (m : Word) : Out :=
  let bad := (st.masked m).any (·.2.st ≠ .done)
  .next ((st.reported ((st.masked m).map fun e => (coreOf st.cur, e.1))).interlocked s d (if bad then 1 else 0))

/-- TWAIT.ALL (08 R205). -/
def execTwaitAll (s : Fin 4) (d a b : Fin 32) (st : State) : Out :=
  st.checked [a.val, b.val] fun t =>
    if t.allReady (t.rx a) then t.allDone s d (t.rx a) else .next (t.block s (.all d (t.rx a) (t.rx b)))

/-- A word that takes a token and answers at once. -/
def State.tokenWord (st : State) (a : Fin 32) (f : State → Nat → Nat → Nat → Out) : Out :=
  st.checked [a.val] fun t =>
    let v := t.rx a
    if t.badToken v then .next (t.illop 1) else f t (tokenCore v) (tokenSlot v) (tokenGen v)

/-- Whether an operation is of the issuing thread's job (16 R301). -/
def State.sameJob (st : State) (t : Slot) : Bool := t.op.job = st.myJob && t.op.part = st.myPart

/-- TCAN (08 R207, 02 R46). -/
def execTcan (s : Fin 4) (d a : Fin 32) (st : State) : Out :=
  st.tokenWord a fun t core slot gen =>
    let k := t.slot core slot
    if t.stale core slot gen || !t.sameJob k || k.st.terminal || k.st = .parked then .next (t.interlocked s d 1)
    else .next ((t.cancelOp core slot 0).interlocked s d 0)

/-- TDET (08 R207, 02 R46). -/
def execTdet (s : Fin 4) (d a : Fin 32) (st : State) : Out :=
  st.tokenWord a fun t core slot gen =>
    let k := t.slot core slot
    if t.stale core slot gen || !t.ownsSlot k || k.detached || k.st.terminal then .next (t.interlocked s d 1)
    else .next ((t.setSlot core slot fun k => { k with detached := true }).interlocked s d 0)

/-- An operation moves to the issuing thread, whose launch counts it from now on (02 R41, R46); a saved thread no longer holds it. -/
def State.adopt (st : State) (core slot : Nat) : State :=
  let lid := st.myLid
  let st : State := { st with parts := st.parts.map fun (p : Nat × Part) => (p.1, { p.2 with
      images := p.2.images.map fun (i : Image) => { i with held := i.held.filter (· ≠ (core, slot)) } }) }
  st.setSlot core slot fun (k : Slot) =>
    { k with owner := some st.cur, detached := false, adopted := !k.st.terminal, saved := false, st := if k.st = .orphaned then k.left else k.st
             op := { k.op with lid := lid } }

/-- TADOPT (08 R207, 02 R46, 12 R273). -/
def execTadopt (s : Fin 4) (d a : Fin 32) (st : State) : Out :=
  st.tokenWord a fun t core slot gen =>
    let k := t.slot core slot
    if t.stale core slot gen || !t.sameJob k || !(k.detached || k.st = .orphaned) || k.st = .parked then .next (t.interlocked s d 1)
    else if k.st.terminal then .next (((t.acquireSlot core slot).adopt core slot).interlocked s d 0)
    else .next ((t.adopt core slot).interlocked s d 0)

/-- The state code of TSTAT (08 R206). -/
def SlotState.code : SlotState → Nat
  | .waiting => 0 | .running => 1 | .done => 2 | .faulted => 3 | .cancelled => 4 | .parked => 5 | .orphaned => 6 | .free => 7

/-- The summary of a slot (08 R206). -/
def Slot.summary (t : Slot) : Word :=
  word (t.prog % 2 ^ 32 * 2 ^ 32 + fldW t.frec.d2 32 16 * 2 ^ 16 + fldW t.frec.d0 0 8 * 2 ^ 8 + fldW t.frec.d0 16 4 * 2 ^ 4 + t.st.code)

/-- TSTAT (08 R206): a record goes to x24..x31; the owner's reading of a terminal slot is an acquire and a release. -/
def execTstat (s : Fin 4) (d a : Fin 32) (st : State) : Out :=
  st.tokenWord a fun t core slot gen =>
    let k := t.slot core slot
    if t.stale core slot gen || !t.sameJob k then .next (t.interlocked s d 7)
    else
      let t := if k.st = .faulted || k.st = .cancelled then
          t.setMe fun c => (List.range 8).foldl (fun c j => c.result (24 + j) (k.frec.dw j) 1) c else t
      let t := if t.ownsSlot k && k.st.terminal then (t.acquireSlot core slot).setSlot core slot Slot.release else t
      .next (t.interlocked s d k.summary)

/-! ### The chunk map -/

/-- A thread that finds a chunk set acquires what the operation that set the bit wrote there (05 R132): it reads nothing older of
those bytes, obtains the clocks they carry, and performs no later loose read earlier (R125). -/
def State.acquireChunk (st : State) (i : Nat) : State :=
  let core := coreOf st.cur
  let by_ := tget Tag.none (st.core core).setters i
  let vs := (span (windowAddr core (512 * i)) 512).filterMap fun pa =>
    ((tget [] st.hist pa).find? fun (v : Ver) => by_ ≠ .none && v.tag = by_).map fun v => (pa, v)
  let up := fun (t : Table Nat) => vs.foldl (fun t x => if tget 0 t x.1 < x.2.time then tput t x.1 x.2.time else t) t
  (st.setMe fun c => { c with
    clock := vs.foldl (fun k x => k.join x.2.clock) c.clock, seen := up c.seen, looseSeen := up c.looseSeen }).acquired true

/-- Whether a chunk of the issuing core is set. -/
def State.chunkSet (st : State) (i : Nat) : Bool := (st.core (coreOf st.cur)).chunks.getLsbD i

/-- Whether every chunk of a range is set. -/
def State.chunksReady (st : State) (first count : Nat) : Bool := (span first count).all st.chunkSet

/-- WCH, when every chunk is set (08 R208). -/
def State.chunksDone (st : State) (s : Fin 4) (d : Fin 32) (first count : Nat) : Out :=
  .next (((span first count).foldl State.acquireChunk st).interlocked s d 0)

/-- WCH (08 R208). -/
def execWch (s : Fin 4) (d a b : Fin 32) (st : State) : Out :=
  st.checked [a.val, b.val] fun t =>
    let v := t.rx a
    let first := fldW v 0 13
    let count := fldW v 16 13
    if fldW v 13 3 ≠ 0 || fldW v 29 35 ≠ 0 || count = 0 || 6144 < first + count then .next (t.illop 1)
    else if t.chunksReady first count then t.chunksDone s d first count
    else .next (t.block s (.chunks d first count (t.rx b)))

/-- TCH (08 R208). -/
def execTch (s : Fin 4) (d a : Fin 32) (st : State) : Out :=
  st.checked [a.val] fun t =>
    let v := (t.rx a).toNat
    if 6143 < v then .next (t.illop 1)
    else if t.chunkSet v then .next ((t.acquireChunk v).interlocked s d 1)
    else .next (t.interlocked s d 0)

end Sys2Proof.Machine
end

