-- ==== Sys2Proof/Machine/Control.lean ====
section
/-! DEFINITION. Control: the words of major 0x15, CRR, CRW and CRWI (08 R209, 03 R58 to R64). -/

namespace Sys2Proof.Machine

/-- Whether a number is that of an RW user control register (03 R58). -/
def ctlRW (r : Nat) : Bool := r ≤ 0x0A || (0x10 ≤ r && r ≤ 0x14)
/-- Whether a number is that of an RO one. -/
def ctlRO (r : Nat) : Bool := 0x18 ≤ r && r ≤ 0x1B

/-- TCB (02 R40, 03 R64). -/
def State.tcb (st : State) (core : Nat) : Word :=
  word ((st.core core).slots.foldl (fun n e => if e.1 < 64 && e.2.st.terminal then n + 2 ^ e.1 else n) 0)

/-- An RO register of a context as it stands (03 R59). -/
def State.ctlLive (st : State) (c r : Nat) : Word :=
  match r with
  | 0x18 => st.tcb (coreOf c)
  | 0x19 => word (st.ctx c).wic
  | 0x1A => word (st.ctx c).wdc
  | _ => word c

/-- A value with its reserved fields cleared (03 R61 to R63). -/
def ctlKeep (r : Nat) (v : Word) : Word :=
  match r with
  | 0x00 => if bitW v 63 then v &&& 0x800000000000FFFF else v &&& 0x1FFF
  | 0x01 => v &&& 0x7F
  | 0x02 => v &&& 0x7FFFFFFFFFFFFFFF
  | 0x03 => v &&& 0x1FFFF
  | 0x04 => v &&& 0x3F
  | 0x07 => v &&& 1
  | 0x08 => v &&& 0x3FF800
  | 0x09 => v &&& 0x1F
  | 0x0A => v &&& 3
  | 0x10 => v &&& 0xFFFFFFFFF
  | 0x11 => v &&& 0xFFFFF
  | 0x14 => v &&& 0xFFFFFFFFFFFFFFF8
  | _ => v

/-- Whether a format code is one that nothing holds (03 R60, 04 R80). -/
def badFmt (c : Nat) : Bool := c = 12 || c = 16 || c = 24

/-- Whether a value is refused (03 R60). -/
def ctlRefused (r : Nat) (v : Word) : Bool :=
  match r with
  | 0x00 =>
    if bitW v 63 then vlLX v = 0 || 64 < vlLX v || vlLY v = 0 || 8 < vlLY v || vlLZ v = 0 || 8 < vlLZ v
    else 4096 < vlN v
  | 0x03 => badFmt (fldW v 0 5) || 6 ≤ fldW v 12 3
  | 0x04 => vmtSpace v = 3 || 8 ≤ vmtWin v
  | 0x09 => 16 < fldW v 0 5
  | 0x10 => fldW v 0 8 = 0 || 128 < fldW v 0 8 || fldW v 8 8 = 0 || 128 < fldW v 8 8 || fldW v 16 16 = 0
  | 0x11 => badFmt (fldW v 0 5) || badFmt (fldW v 5 5) || badFmt (fldW v 10 5)
  | 0x12 => fldW v 0 32 = 0 || fldW v 32 32 = 0
  | _ => false

/-- Whether a queued VCOMP has still to write VL (09 R223); not while the vector side is frozen (log entry 25). -/
def Ctx.vlPending (c : Ctx) : Bool :=
  !c.frozen && c.vq.any fun e => match e.op with | .comp _ _ => !vlBox e.ctl.vl | _ => false

/-- CRR (08 R209), of latency 2. -/
def execCrr (s : Fin 4) (d : Fin 32) (r : Fin 64) (st : State) : Out :=
  if !ctlRW r.val && !ctlRO r.val then .next (st.illop 1)
  else if r.val = 0 && st.me.vlPending then .next (st.block s .vl)
  else st.scalar s d 2 [ctlReg r.val] fun t => if ctlRW r.val then t.rc r.val else t.ctlLive t.cur r.val

/-- A write of a control register (08 R209, 03 R60), of latency 2; a write to an RO register is ignored. -/
def State.ctlWrite (st : State) (s : Fin 4) (r : Nat) (v : Word) : Out :=
  if !ctlRW r && !ctlRO r then .next (st.illop 0)
  else if ctlRO r then .next (st.setMe fun c => c.advance s)
  else if ctlRefused r v then .next (st.illop 1)
  else if r = 0 && st.me.vlPending then .next (st.block s .vl)
  else .next (st.setMe fun c =>
    { c.shade (ctlReg r) (c.ctrl.get r) 2 with ctrl := c.ctrl.put r (ctlKeep r v) }.advance s)

/-- CRW (08 R209). -/
def execCrw (s : Fin 4) (r : Fin 64) (a : Fin 32) (st : State) : Out :=
  st.checked [a.val] fun t => t.ctlWrite s r.val (t.rx a)

/-- CRWI (08 R209). -/
def execCrwi (s : Fin 4) (r : Fin 64) (i : BitVec 10) (st : State) : Out := st.ctlWrite s r.val (i.setWidth 64)

end Sys2Proof.Machine
end

