-- ==== Sys2Proof/Machine/Links.lean ====
section
/-! DEFINITION. Links: neighbour links and the resolution of offset reads (03 R71 to R74). -/

namespace Sys2Proof.Machine

/-- The link of a face of a brick (03 R71, R72): its kind, its payload and its context field. Faces are numbered
0 −x, 1 +x, 2 −y, 3 +y, 4 −z, 5 +z. -/
def Ctx.face (c : Ctx) (r f : Nat) : Nat × Nat × Nat :=
  let (xa, xb) := c.link r
  let l := if f < 4 then fldW xa (16 * f) 16 else fldW xb (16 * (f - 4)) 16
  (l / 2 ^ 13, l % 2 ^ 13, fldW xb (32 + 2 * f) 2)

/-- Whether a link with its context field is one that R71 allows. -/
def linkOk (l cf : Nat) : Bool :=
  let p := l % 2 ^ 13
  match l / 2 ^ 13 with
  | 0 | 1 | 2 => p = 0 && cf = 0
  | 3 => p / 32 = 0 && cf = 0
  | 4 => p / 32 < 160
  | 5 => cf = 0
  | _ => false

/-- Whether the first image of NBSET, and the second, hold only links that R71 allows. -/
def linksOkA (xa xb : Word) : Bool := [0, 1, 2, 3].all fun f => linkOk (fldW xa (16 * f) 16) (fldW xb (32 + 2 * f) 2)
def linksOkB (xb : Word) : Bool := [4, 5].all fun f => linkOk (fldW xb (16 * (f - 4)) 16) (fldW xb (32 + 2 * f) 2)

/-- An offset as a number (07 R147). -/
def offInt : Off → Int
  | .zero => 0 | .plus => 1 | .minus => -1

/-- Where a read has come to: its source, the register whose links apply, and the coordinate. -/
structure Walk where
  cur : Src
  ctx : Nat
  reg : Nat
  p : Int × Int × Int
deriving DecidableEq, Repr

/-- A coordinate of a point, and the point with one replaced. -/
def axisOf (p : Int × Int × Int) : Nat → Int
  | 0 => p.1 | 1 => p.2.1 | _ => p.2.2
def setAxis (p : Int × Int × Int) (a : Nat) (v : Int) : Int × Int × Int :=
  match a with | 0 => (v, p.2.1, p.2.2) | 1 => (p.1, v, p.2.2) | _ => (p.1, p.2.1, v)

/-- What following a link gives: a walk that goes on, the fill value, or an unusable link with its face, reason,
register and context (03 R74); reason 0 stands for a link in a failed slot (18 R345). -/
inductive Hop where
  | go (w : Walk)
  | fill
  | bad (face reason reg ctx : Nat)
deriving DecidableEq, Repr

/-- Image i of the spill window of a context (03 R63, R73). BSW is read when the word's links are resolved, at its start: DESIGN
CHOICE, log entry 83. -/
def spillBase (k : Ctx) (i : Nat) : Nat := fldW k.ctrl.bsw 11 11 * 2048 + i * 2048

/-- One axis of neighbourRead (03 R73), for the reading context c. -/
def State.hop (st : State) (c : Nat) (box : Int × Int × Int) (a : Nat) (w : Walk) : Hop :=
  let v := axisOf w.p a
  let l := axisOf box a
  if 0 ≤ v ∧ v < l then .go w
  else
    let f := 2 * a + (if v < 0 then 0 else 1)
    if st.badCells.contains (6, w.ctx, w.reg, 0) then .bad f 0 w.reg w.ctx else
    let (kind, pay, cf) := (st.ctx w.ctx).face w.reg f
    let wrapped := setAxis w.p a (v % l)
    match kind with
    | 1 => .go { w with p := setAxis w.p a (if v < 0 then 0 else l - 1) }
    | 2 => .go { w with p := wrapped }
    | 3 => .go ⟨.reg w.ctx (pay % 32) 0, w.ctx, pay % 32, wrapped⟩
    | 4 =>
      let core := pay / 32
      let t := 4 * core + cf
      let mine := (st.ctx c).thread.map (·.job)
      let theirs := (st.ctx t).thread.map (·.job)
      if !(st.coresOf (st.partOf (coreOf c))).contains core then .bad f 2 w.reg w.ctx
      else if theirs.isNone then .bad f 1 w.reg w.ctx
      else if theirs ≠ mine then .bad f 3 w.reg w.ctx
      else .go ⟨.reg t (pay % 32) 0, t, pay % 32, wrapped⟩
    | 5 =>
      let b := spillBase (st.ctx w.ctx) pay
      if scratchBytes < b + 2048 then .bad f 4 w.reg w.ctx
      else .go { w with cur := .spill (coreOf w.ctx) b 0, p := wrapped }
    | _ => .fill

/-- neighbourRead(b, e, dx, dy, dz) of 03 R73: the element it reads. -/
def State.resolve (st : State) (c : Nat) (w : Nat) (vl : Word) (b e : Nat) (dx dy dz : Off) : Sum Src (Nat × Nat × Nat × Nat) :=
  let (x, y, z) := coord w e
  let (lx, ly, lz) := boxOf w vl
  let box : Int × Int × Int := (lx, ly, lz)
  let start : Walk := ⟨.reg c b 0, c, b, ((x : Int) + offInt dx, (y : Int) + offInt dy, (z : Int) + offInt dz)⟩
  match st.hop c box 0 start with
  | .fill => .inl .fill
  | .bad f r g k => .inr (f, r, g, k)
  | .go w1 => match st.hop c box 1 w1 with
    | .fill => .inl .fill
    | .bad f r g k => .inr (f, r, g, k)
    | .go w2 => match st.hop c box 2 w2 with
      | .fill => .inl .fill
      | .bad f r g k => .inr (f, r, g, k)
      | .go w3 =>
        let i := elemAt w w3.p.1.toNat w3.p.2.1.toNat w3.p.2.2.toNat
        .inl (match w3.cur with
          | .fill => .fill
          | .reg k r _ => .reg k r i
          | .spill k o _ => .spill k o i)

/-- The resolutions of the elements `es` of an offset word, with what the first unusable link in ascending order is (03 R74). -/
def State.resolveAll (st : State) (c w : Nat) (vl : Word) (b : Nat) (dx dy dz : Off) :
    List Nat → Table Src × Option (Nat × Nat × Nat × Nat)
  | [] => ([], none)
  | e :: t =>
    let r := st.resolveAll c w vl b dx dy dz t
    match st.resolve c w vl b e dx dy dz with
    | .inr x => (r.1, some x)
    | .inl s => ((e, s) :: r.1, r.2)

end Sys2Proof.Machine
end

