-- ==== Sys2Proof/Machine/Seq.lean ====
section
/-! DEFINITION. Seq: the convoys of a context (07 R171 to R175): what a queued word reads and writes, the checks and
the probe of its start, and what it sees of a register while its convoy runs. -/

namespace Sys2Proof.Machine

/-! ### What a word is -/

/-- The queue of a word (07 R167). -/
def VOp.queue : VOp → VQ
  | .ld .. | .ldi .. | .lda .. | .gathb .. | .waitv .. | .scld .. => .load
  | .st .. | .sti .. | .stia .. => .store
  | _ => .arith

/-- The solo words (07 R167). -/
def VOp.solo : VOp → Bool
  | .lda .. | .gathb .. | .waitv .. | .scld .. | .tbl .. | .slup .. | .sldn .. | .comp .. | .exp .. | .trn .. | .iota ..
  | .sel .. | .dup .. | .red .. | .scan .. | .splat .. | .ext .. | .ins .. | .setl .. | .setb .. | .ald .. | .mpopc ..
  | .mffs .. | .mset .. | .mget .. | .nbset .. | .nbget .. => true
  | _ => false

/-- The chain latency of a convoy word (07 R174). -/
def VOp.lat : VOp → Nat
  | .int f .. | .intVs f .. => if f = .mul ∨ f = .mulh then 3 else 2
  | .off false f .. => if f = .mac then 3 else 2
  | .off true .. => 4
  | .mask .. => 2
  | .cmp .. | .fcmp .. => 3
  | .fp f .. | .fpVs f .. => if f = .div ∨ f = .sqrt ∨ f = .recip ∨ f = .exp2 ∨ f = .log2 then 8 else 4
  | .amul .. | .amac .. | .anorm .. => 6
  | .ld .lane .. => 3
  | _ => 4

/-- The destination of a convoy word: whether it is a mask, and the register. -/
def VOp.dest : VOp → Option (Bool × Nat)
  | .int _ d _ _ | .intVs _ d _ _ | .fp _ d _ _ | .fpVs _ d _ _ | .cvt d _ _ | .amul d _ _ | .amac d _ _ | .aconj d _
  | .anorm d _ | .scac d _ _ | .off _ _ d _ _ _ _ _ | .ld _ d _ _ | .ldi d _ _ => some (false, d.val)
  | .cmp _ m _ _ | .fcmp _ m _ _ => some (true, m.val)
  | .mask _ d _ _ => some (true, d.val)
  | _ => none

/-- The one-source operations of majors 0x18 and 0x19 (09 R212, R213). -/
def VInt.unary : VInt → Bool
  | .abs | .clz | .ffs | .popc => true
  | _ => false
def VFp.unary : VFp → Bool
  | .abs | .neg | .sqrt | .recip | .exp2 | .log2 | .fclass => true
  | _ => false

/-- The registers that a convoy word reads at the group it processes: masks marked true. The source of a conversion and
the offset operand are not among them. -/
def VOp.direct : VOp → List (Bool × Nat)
  | .int f _ a b => if f.unary then [(false, a.val)] else [(false, a.val), (false, b.val)]
  | .intVs _ _ a _ => [(false, a.val)]
  | .fp f d a b =>
    if f.unary then [(false, a.val)]
    else [(false, a.val), (false, b.val)] ++ (if f = .mac ∨ f = .nmac then [(false, d.val)] else [])
  | .fpVs f d a _ => (false, a.val) :: (if f = .mac ∨ f = .nmac then [(false, d.val)] else [])
  | .cmp _ _ a b | .fcmp _ _ a b | .amul _ a b => [(false, a.val), (false, b.val)]
  | .amac d a b => [(false, a.val), (false, b.val), (false, d.val)]
  | .aconj _ a | .anorm _ a => [(false, a.val)]
  | .scac d a _ => [(false, a.val), (false, d.val)]
  | .off _ f d _ b _ _ _ =>
    if f = .mov then [] else (false, b.val) :: (if f = .mac then [(false, d.val)] else [])
  | .st _ b _ _ | .sti b _ _ | .stia b _ _ => [(false, b.val)]
  | .mask f _ a b => if f = .not then [(true, a.val)] else [(true, a.val), (true, b.val)]
  | _ => []

/-- Words whose probe, links, checks or groups hang on their activity (03 R67, 07 R172). -/
def VEntry.hangs (e : VEntry) : Bool :=
  e.op.isMem || bitW e.ctl.vm 5 || match e.op with | .off .. | .scac .. => true | _ => false

/-- Words whose activity is fixed when the convoy starts (07 R172, R173): their probe, their links or their groups
depend on it, and no word of the convoy writes their mask. -/
def VEntry.fixedAct (e : VEntry) : Bool :=
  !e.late && (e.op.isMem || bitW e.ctl.vm 5 || match e.op with | .off .. => true | _ => false)

/-- The groups of a started word, in order (03 R67). A late word goes through every group inside VL, and passes over one that it then finds
to hold no active element (`VEntry.passesOver`). -/
def VEntry.groups (e : VEntry) : List Nat :=
  if e.late then groupsInVL e.w e.ctl.vl else groupList e.w e.ctl.vl e.ctl.vm e.act

/-- Whether a word of a convoy takes the indices of its addresses from a brick (10 R243). -/
def VOp.indexedConvoy : VOp → Bool
  | .ldi .. | .sti .. | .stia .. => true
  | _ => false

/-- The words of a convoy marked late where an earlier one writes the mask that their accesses hang on, or their index brick: by
R173 they read it group by group (log entry 84). `before` are the earlier ones. -/
def markLate (before : List VEntry) : List VEntry → List VEntry
  | [] => []
  | e :: t =>
    let writes := fun (x : Bool × Nat) => before.any fun p => p.op.dest = some x
    let e := { e with late := !e.op.solo && ((bitW e.ctl.vm 3 && e.hangs && writes (true, fldW e.ctl.vm 0 3)) ||
      (e.op.indexedConvoy && writes (false, e.op.indexReg))) }
    e :: markLate (before ++ [e]) t

/-- Elements of the format, those inside VL, and the active ones of a solo word (03 R65), in ascending order. -/
def VEntry.all (e : VEntry) : List Nat := List.range (brickElems e.w)
def VEntry.inside (e : VEntry) : List Nat := e.all.filter (inVL e.w e.ctl.vl)
def VEntry.on (e : VEntry) (i : Nat) : Bool := active e.w e.ctl.vl e.ctl.vm e.act i

/-- The groups that hold some of these elements, if they are inside VL, of a register. -/
def VEntry.groupsOf (e : VEntry) (r : Nat) (l : List Nat) : List (Nat × Nat) :=
  ((l.filter fun i => i < brickElems e.w && inVL e.w e.ctl.vl i).map (· / groupElems e.w)).eraseDups.map fun g => (r, g)

/-- The brick groups a solo word reads when it is performed (03 R67, R75, R76). -/
def VEntry.soloReads (e : VEntry) : List (Nat × Nat) :=
  let own := fun (r : Nat) => e.groups.map fun g => (r, g)
  let live := e.all.filter e.on
  match e.op with
  | .tbl d a _ n _ => own d.val ++ (span a.val (n.val + 1)).flatMap fun r => (List.range 8).map fun g => (r, g)
  | .slup _ a _ => e.groupsOf a.val (live.filterMap fun i => if e.xa.toNat ≤ i then some (i - e.xa.toNat) else none)
  | .sldn _ a _ => e.groupsOf a.val (live.map (· + e.xa.toNat))
  | .dup _ a _ => e.groupsOf a.val [e.xa.toNat]
  | .ext _ b _ => e.groupsOf b.val [e.xa.toNat]
  | .trn _ a p => e.groupsOf a.val (live.map fun i =>
      let (x, y, z) := coord e.w i
      match p with | .xy => elemAt e.w y x z | .yz => elemAt e.w x z y | .xz => elemAt e.w z y x)
  | .comp _ a | .red _ _ a | .scan _ a => e.groupsOf a.val live
  | .exp _ a => e.groupsOf a.val (e.inside.take live.length)
  | .sel _ a b => e.groupsOf a.val e.inside ++ e.groupsOf b.val e.inside
  | .gathb _ _ i _ => own i.val
  | .waitv _ a b _ => own a.val ++ own b.val
  | _ => []

/-- The brick groups it writes then: those of VLDA and GATHB are written as they land. -/
def VEntry.soloWrites (e : VEntry) : List (Nat × Nat) :=
  let own := fun (r : Nat) => e.groups.map fun g => (r, g)
  match e.op with
  | .tbl d _ h _ _ => (span (if h then 4 else 0) 4).map fun g => (d.val, g)
  | .slup d _ _ | .sldn d _ _ | .exp d _ | .trn d _ _ | .dup d _ _ | .scan d _ | .iota d | .splat d _ => own d.val
  | .comp d _ | .sel d _ _ => (groupsInVL e.w e.ctl.vl).map fun g => (d.val, g)
  | .red _ d _ => [(d.val, 0)]
  | .ins d _ _ => [(d.val, e.xb.toNat / groupElems e.w)]
  | _ => []

/-- The masks and the scale register a word reads besides those of `direct`: VM's mask where it governs, and what a mask or
scale word reads (09 R231, R232, 04 R103). -/
def VEntry.masksRead (e : VEntry) : List Nat :=
  (if bitW e.ctl.vm 3 then [fldW e.ctl.vm 0 3] else []) ++
    match e.op with
    | .mpopc _ m | .mffs _ m | .mget _ m _ => [m.val]
    | _ => []
def VOp.scaleRead : VOp → Option Nat
  | .scac _ _ k => some k.val
  | _ => none

/-- Whether every group of a word is processed. -/
def VEntry.finished (e : VEntry) : Bool := e.groups.length ≤ e.prog

/-! ### The convoy at the head -/

/-- The distances Dj of a convoy (07 R173), from D. -/
def distances (d : Nat) : List VEntry → List Nat
  | [] => []
  | e :: t => d :: distances (d + 1 + e.s.val) t

/-- The place of a group in a word's order, if it processes it. -/
def VEntry.placeOf (e : VEntry) (g : Nat) : Option Nat := findIdx (· = g) e.groups

/-- The choices that a short chained read of group g has (07 R175), from the earlier words, latest first: `v` is what
the group holds after them. -/
def shortChoices (t : Nat) (mask : Bool) (reg g : Nat) : List (VEntry × Nat) → List (BitVec 2048)
  | [] => []
  | (e, d) :: rest =>
    if e.op.dest = some (mask, reg) && thas e.olds g then
      match e.placeOf g with
      | some i => if i + d + e.op.lat ≤ t then [] else tget 0 e.olds g :: shortChoices t mask reg g rest
      | none => shortChoices t mask reg g rest
    else shortChoices t mask reg g rest

/-- What word j of a convoy sees of a group at step t (07 R173, R175, 03 R66, R75): never its own write or a later
word's; an earlier word's when the distance allows, and at a short distance either. `conv` pairs the words with their
distances. -/
def State.viewGroup (st : State) (c : Nat) (conv : List (VEntry × Nat)) (j t : Nat) (mask : Bool) (reg w g : Nat) : BitVec 2048 :=
  let k := st.ctx c
  let now := if mask then maskGroup (k.mask reg) (groupElems w) g else groupOf (k.brick reg) g
  let base := match (conv.drop j).find? (fun x => x.1.op.dest = some (mask, reg) && thas x.1.olds g) with
    | some x => tget 0 x.1.olds g
    | none => now
  let l := shortChoices t mask reg g (conv.take j).reverse
  (base :: l).getD (Config.pick st.tick (2 * (8192 + (if mask then 2048 else 0) + 64 * reg + 8 * g + j + 2 ^ 20 * t)) (l.length + 1)) base

/-- A brick register as word j sees it at step t. -/
def State.viewBrick (st : State) (c : Nat) (conv : List (VEntry × Nat)) (j t reg : Nat) : BitVec 16384 :=
  if conv.any (fun x => x.1.op.dest = some (false, reg)) then
    (List.range 8).foldl (fun b g => setGroup b g (st.viewGroup c conv j t false reg 32 g)) ((st.ctx c).brick reg)
  else (st.ctx c).brick reg

/-- A group of a mask replaced. -/
def setMaskGroup (b : BitVec 4096) (m g : Nat) (v : BitVec 2048) : BitVec 4096 :=
  let hole : BitVec 4096 := BitVec.ofNat 4096 ((2 ^ m - 1) * 2 ^ (m * g))
  (b &&& ~~~hole) ||| BitVec.ofNat 4096 (v.toNat % 2 ^ m * 2 ^ (m * g))

/-- A mask register as word j, of element width w, sees it at step t. -/
def State.viewMask (st : State) (c : Nat) (conv : List (VEntry × Nat)) (j t reg w : Nat) : BitVec 4096 :=
  if conv.any (fun x => x.1.op.dest = some (true, reg)) then
    (List.range 8).foldl (fun b g => setMaskGroup b (groupElems w) g (st.viewGroup c conv j t true reg w g)) ((st.ctx c).mask reg)
  else (st.ctx c).mask reg

/-! ### Checks of a start -/

/-- A trap found at the start of a word: its rank in 07 R162's order, its code and its detail. -/
abbrev Found := Nat × Nat × Detail

/-- The rank of a code among those a start may find (07 R162); errors of the storage come after them. -/
def rankOf (code : Nat) : Nat :=
  if code = Code.stallShort then 0 else if code = Code.illop then 1 else if code = Code.align then 2
  else if code = Code.paramUnbound then 3 else if code = Code.paramBound then 4 else if code = Code.pageAbsent then 5
  else if code = Code.pageAccess then 6 else if code = Code.neighbour then 7 else 8

/-- The first of the least rank. -/
def leastFound : List Found → Option Found
  | [] => none
  | f :: t => match leastFound t with
    | none => some f
    | some g => if g.1 < f.1 then some g else some f

/-- An illegal operand of a vector word (18 R330): an operand's index, or a control register. -/
def badOpnd (k : Nat) : List Found := [(1, Code.illop, { opnd := k })]
def badCtl (r : Nat) : List Found := [(1, Code.illop, { opnd := 14, d0 := word r })]

/-- The classes of 09 R210. -/
inductive FmtClass where
  | int | float | numeric | bits16 | f32 | any
deriving DecidableEq, Repr
def FmtClass.has (k : FmtClass) (t : Fmt) : Bool :=
  match k with
  | .int => t.isInt
  | .float => !t.isInt
  | .numeric | .any => true
  | .bits16 => t.width = 16
  | .f32 => t = .f32

/-- The class of a word (09 R210, 10 R248). -/
def VOp.fmtClass : VOp → FmtClass
  | .int .. | .intVs .. | .cmp .. => .int
  | .fp .. | .fpVs .. | .fcmp .. | .amul .. | .amac .. | .aconj .. | .anorm .. => .float
  | .off float f .. => if f = .mov then .any else if float then .float else .int
  | .red .. | .scan .. | .iota .. => .numeric
  | .tbl .. => .bits16
  | .scac .. => .f32
  | _ => .any

/-- Whether a word is bound by VL (03 R65, 09 R210, 10 R247). -/
def VOp.usesVl : VOp → Bool
  | .scld .. | .setl .. | .setb .. => false
  | _ => true

/-- The table number of VT (03 R62). -/
def vtAlg (vt : Word) : Nat := fldW vt 5 3
def vtBl (vt : Word) : Nat := fldW vt 8 4

/-- The operand checks of a word (09 R210), given the activity it starts with. -/
def State.operandChecks (st : State) (c : Nat) (e : VEntry) (act : Nat → Bool) : List Found :=
  let t := e.fmt
  let w := t.width
  let k := st.ctx c
  let vl := e.ctl.vl
  let alg := fun (_ : Unit) =>
    let n := algDim (k.table (vtAlg e.ctl.vt))
    if n ≠ 0 && (if vlBox vl then vlLX vl % n ≠ 0 else vlN vl % n ≠ 0) then badCtl 0
    else if n = 0 || xExtent w < n then badCtl 3
    else []
  (if e.op.usesVl && !vlFits w vl then badCtl 0 else []) ++
  (if !e.op.fmtClass.has t then badCtl 3 else []) ++
  match e.op with
  | .amul .. | .amac .. | .aconj .. | .anorm .. => alg ()
  | .cvt _ _ src => if (List.range (brickElems w)).any (fun i => inVL w vl i && 16384 / src.width ≤ i) then badCtl 0 else []
  | .trn _ _ p =>
    let (x, y, z) := boxOf w vl
    if (match p with | .xy => x == y | .yz => y == z | .xz => x == z) then [] else badCtl 0
  | .tbl _ a _ n _ => if 31 < a.val + n.val then badOpnd 1 else []
  | .mset .. => if xExtent w ≤ e.xb.toNat then badOpnd 2 else []
  | .mget .. => if xExtent w ≤ e.xb.toNat then badOpnd 2 else []
  | .nbset .. => if !linksOkA e.xa e.xb then badOpnd 1 else if !linksOkB e.xb then badOpnd 2 else []
  | .ald j _ => if j.val = 0 then badOpnd 0 else []
  | .scac .. => if !e.late && (List.range (brickElems w)).any (fun i => act i && 511 < i / 2 ^ vtBl e.ctl.vt) then badCtl 3 else []
  | .ldi .. | .sti .. | .gathb .. => if w = 4 then badCtl 3 else []
  | .stia .. => if w = 4 || t.isNarrow || fldW e.ctl.vt 12 3 = 5 then badCtl 3 else []
  | .waitv .. => if t = .i64 ∨ t = .n64 ∨ t = .f64 then [] else badCtl 3
  | _ => []

/-- The bank rule of R115 for the bytes of element i at address a. -/
def bankOk (w i : Nat) (a : Word) (n : Nat) : Bool :=
  if w = 64 then
    (List.range n).all fun b => (a.toNat + b) / 4 % 64 = 2 * (i % 32) + b / 4
  else (List.range n).all fun b => (a.toNat + b) / 4 % 64 = w * i % 2048 / 32

/-- The alignment check of an element (05 R114, R115, 10 R244, R248). -/
def VOp.alignOk (op : VOp) (w i : Nat) (a : Word) (n : Nat) : Bool :=
  match op with
  | .ld .lane .. | .st .lane .. => bankOk w i a n
  | .stia .. => a.toNat % n = 0
  | .waitv .. | .ald .. => a.toNat % 8 = 0
  | _ => true

/-- The access kind of a memory word (17 R318). -/
def VOp.kind : VOp → Kind
  | .st .. | .sti .. => .write
  | .stia .. => .atomic
  | _ => .read

/-- The probe of one element (07 R172, 10 R239): its locations, or what it finds. -/
def State.probeElem (st : State) (c : Nat) (e : VEntry) (i : Nat) (a : Word) (n : Nat) : Sum (List Loc) Found :=
  let at_ := fun (code : Nat) (d : Detail) => (Sum.inr (rankOf code, code, d.atElem code i) : Sum (List Loc) Found)
  if !e.op.alignOk e.w i a n then at_ Code.align { va := a }
  else if e.op.isStore && e.space = 2 then at_ Code.pageAccess { va := a, d0 := word (vmtWin e.ctl.vmt) }
  else match st.locateIn c e.space (vmtWin e.ctl.vmt) e.level e.op.kind a n with
    | .inr (_, code, d) => at_ code d
    | .inl ls =>
      let pas := ls.map st.visible
      if pas.any (fun pa => region pa = .control) then at_ Code.pageAccess { va := a, d0 := word e.op.kind.code }
      else if e.op.isStore then
        match st.brokenLink (coreOf c) pas with
        | some l => at_ Code.link { d0 := word l }
        | none => .inl ls
      else match st.hardError (coreOf c) (st.spaceVa c e.space (vmtWin e.ctl.vmt) a) pas with
        | some (code, d) => at_ code d
        | none => .inl ls

/-- active(i) of a word (03 R65), from the mask it sees: the one it started with, when its activity is fixed. -/
def VEntry.isActive (e : VEntry) (view : BitVec 4096) (i : Nat) : Bool :=
  active e.w e.ctl.vl e.ctl.vm (if e.fixedAct then e.act else view) i

/-- The elements of a word that remain to be performed, when its activity is fixed: a late word's are found as it runs. -/
def VEntry.remaining (e : VEntry) : List Nat :=
  if e.late then []
  else match e.op.ungoverned with
  | some l => l
  | none => (e.groups.drop e.prog).flatMap fun g => (groupSpan e.w g).filter e.on

/-- The locations of elements of a memory word, with its index brick (07 R172, 18 R337), and what the probe finds. -/
def State.probeMem (st : State) (c : Nat) (e : VEntry) (bi : BitVec 16384) (es : List Nat) : Table (List Loc) × List Found :=
  let r := es.map fun i => (i, st.probeElem c e i (e.addrOf bi i).1 e.bytes)
  (r.filterMap fun x => match x.2 with | .inl l => some (x.1, l) | .inr _ => none,
   (r.filterMap fun x => match x.2 with | .inr f => some f | .inl _ => none) ++
     -- a store to a parameter window traps whatever its mask (05 R113, 10 R238)
     (if e.op.isStore && e.space = 2 then
       [(rankOf Code.pageAccess, Code.pageAccess, { opnd := 1, d0 := word (vmtWin e.ctl.vmt) })] else []))

/-- What the transfers of a resolved neighbour find: a failed link (18 R347), a failed slot of another context's brick, or an unreadable
cell of a spilled image (R345). -/
def State.srcFinds (st : State) (c w : Nat) : Src → Option (Nat × Detail)
  | .fill => none
  | .reg k r i =>
    let l := dieLink (dieOf (coreOf k)) (dieOf (coreOf c))
    let g := i / groupElems w
    if dieOf (coreOf k) ≠ dieOf (coreOf c) && (tget {} st.links l).failed then some (Code.link, { d0 := word l })
    else if k ≠ c && (st.badCells.contains (1, k, r, g) || st.badCells.contains (5, k, r, 0)) then some (Code.eccUncorr, { loc := r, step := g })
    else none
  | .spill core off x => st.hardError (coreOf c) 0 (spillLocs w core off x)

/-- The links of elements of an offset word (03 R74), with what their resolution finds. -/
def State.probeLinks (st : State) (c : Nat) (e : VEntry) (es : List Nat) : Table Src × List Found :=
  match e.op with
  | .off _ _ _ a _ dx dy dz =>
    let (t, bad) := st.resolveAll c e.w e.ctl.vl a.val dx dy dz es
    (t, (match bad with
      | none => []
      | some (_, 0, reg, _) => [(8, Code.eccUncorr, { loc := reg })]
      | some (f, r, reg, k) => [(7, Code.neighbour, { face := f, reason := r, opnd := 1, loc := reg, d0 := word k })]) ++
      t.filterMap fun x => (st.srcFinds c e.w x.2).map fun y => (8, y.1, y.2))
  | _ => ([], [])

/-- The groups that word e reads while it processes group g (07 R173): masks marked true. -/
def VEntry.readsAt (e : VEntry) (c g : Nat) : List (Bool × Nat × Nat) :=
  let direct := e.op.direct.map fun x => (x.1, x.2, g)
  -- no mask governs MAND to MNOT (09 R231)
  let mask := if bitW e.ctl.vm 3 && (match e.op with | .mask .. => false | _ => true) then [(true, fldW e.ctl.vm 0 3, g)] else []
  let index := if e.op.indexedConvoy then [(false, e.op.indexReg, g)] else []
  let far := match e.op with
    | .off .. => (groupSpan e.w g).filterMap fun i => match e.res.find? (fun x => x.1 = i) with
      | some (_, .reg k r x) => if k = c then some (false, r, x / groupElems e.w) else none
      | _ => none
    | .cvt _ a src => ((groupSpan e.w g).filter (inVL e.w e.ctl.vl)).map fun i => (false, a.val, src.width * i / 2048)
    | _ => []
  (direct ++ mask ++ index ++ far).eraseDups

/-- The uncorrectable register slots that a word would read (18 R345): of bricks and masks at their groups, of the landed bits of
its bricks, of its scale register, and of the links that NBGET reads. -/
def State.badSlots (st : State) (c : Nat) (e : VEntry) : List Found :=
  let rs := if e.op.solo then e.soloReads.map (fun x => (false, x.1, x.2)) ++ e.masksRead.flatMap (fun m => e.groups.map fun g => (true, m, g))
    else (e.groups.drop e.prog).flatMap (e.readsAt c)
  (rs.filterMap fun x =>
    if st.badCells.contains (if x.1 then 2 else 1, c, x.2.1, x.2.2) || (!x.1 && st.badCells.contains (5, c, x.2.1, 0)) then
      some (8, Code.eccUncorr, ({ loc := x.2.1, step := x.2.2 } : Detail))
    else none) ++
  (match e.op.scaleRead with
  | some k => if st.badCells.contains (3, c, k, 0) then [(8, Code.eccUncorr, { loc := k })] else []
  | none => []) ++
  match e.op with
  | .nbget _ _ b => if st.badCells.contains (6, c, b.val, 0) then [(8, Code.eccUncorr, { loc := b.val })] else []
  | _ => []

/-- A word ready to start: its activity, resolved links and locations, with everything its checks and probe find
(07 R172). A resumed word has only its probe (18 R337), and a late word is probed as it runs. -/
def State.prepare (st : State) (c : Nat) (e : VEntry) : VEntry × List Found :=
  let k := st.ctx c
  let e := if e.resumed then e else { e with act := k.mask (fldW e.ctl.vm 0 3) }
  let checks := if !e.resumed then st.operandChecks c e e.on else []
  let (res, f1) := st.probeLinks c e e.remaining
  let (locs, f2) := if e.op.isMem then st.probeMem c e (k.brick e.op.indexReg) e.remaining else ([], [])
  let step := fun (f : Found) => if !e.resumed then f else (f.1, f.2.1, { f.2.2 with step := e.prog })
  let e := { e with res := res, locs := locs, served := [] }
  (e, (checks ++ f2 ++ f1 ++ st.badSlots c e).map step)

/-! ### The chain check of R175 -/

/-- The first short read of word j (07 R175): the producer's address and the chain distance Dj − Di found (18 R330). -/
def shortRead (c : Nat) (conv : List (VEntry × Nat)) (j : Nat) : Option (Word × Nat) :=
  match conv[j]? with
  | none => none
  | some (e, d) =>
    let steps := e.groups.zip (List.range 8)
    (steps.flatMap fun (g, i) => (e.readsAt c g).flatMap fun (m, r, h) =>
      (conv.take j).filterMap fun (p, dp) =>
        if p.op.dest = some (m, r) then
          match p.placeOf h with
          | some q => if q + dp + p.op.lat ≤ i + d then none else some (p.addr, d - dp)
          | none => none
        else none).head?

end Sys2Proof.Machine
end

