-- ==== Sys2Proof/Machine/Group.lean ====
section
/-! DEFINITION. Group: what a convoy word does to one element group (09 R211 to R220, R231, R233, 10 R240 to R244), and
what it waits for before it (03 R75 to R78, 07 R170, R173). -/

namespace Sys2Proof.Machine

/-! ### The convoy as it stands -/

/-- The words of the first convoy with their distances (07 R173). -/
def State.convoy (st : State) (c : Nat) : List (VEntry × Nat) :=
  let es := firstConvoy (st.ctx c).vq
  es.zip (distances 0 es)

/-- Word j of the first convoy changed by f. -/
def State.setWord (st : State) (c j : Nat) (f : VEntry → VEntry) : State := st.setCtx c fun k => { k with vq := mapAt f k.vq j }

/-- What element i rounds with (04 R88, R91). -/
def VEntry.rnd (e : VEntry) (i : Nat) : Rnd := Rnd.ofVt e.ctl.vt (srbits e.ctl.seed e.icnt i)

/-- An element of the fill value (03 R68). -/
def VEntry.fill (e : VEntry) : Nat := e.ctl.vf.toNat % 2 ^ e.w
/-- The scalar operand of a vector-scalar word, as an element (09 R216). -/
def VEntry.sigma (e : VEntry) : Nat := e.xa.toNat % 2 ^ e.w

/-- Element i, from the bits of its group. -/
def inGroup (w g i : Nat) (b : BitVec 2048) : Nat := fld b.toNat (w * (i - g * groupElems w)) w

/-- A group of m values of w bits, from the value of each place. -/
def packGroup (w m : Nat) (v : Nat → Nat) : BitVec 2048 :=
  BitVec.ofNat 2048 ((List.range m).foldr (fun j a => a * 2 ^ w + v j % 2 ^ w) 0)

/-- A group after a word writes it (03 R66): `old` before, active elements take `res`, and the other elements inside VL
are zeroed when VM.MZ = 1. -/
def VEntry.merge (e : VEntry) (on : Nat → Bool) (old : BitVec 2048) (g : Nat) (res : Nat → Nat) : BitVec 2048 :=
  let w := e.w
  let m := groupElems w
  packGroup w m fun j =>
    let i := g * m + j
    let keep := fld old.toNat (w * j) w
    if !inVL w e.ctl.vl i then keep else if on i then res i else if bitW e.ctl.vm 6 then 0 else keep

/-- The same for a mask (09 R219): `res` gives the bits. -/
def VEntry.mergeMask (e : VEntry) (on : Nat → Bool) (old : BitVec 2048) (g : Nat) (res : Nat → Bool) : BitVec 2048 :=
  let m := groupElems e.w
  packGroup 1 m fun j =>
    let i := g * m + j
    let keep := fld old.toNat j 1
    if !inVL e.w e.ctl.vl i then keep
    else if on i then (if res i then 1 else 0) else if bitW e.ctl.vm 6 then 0 else keep

/-! ### Reads of memory -/

/-- A table of moments raised to those of the versions read. -/
def raiseSeen (t : Table Nat) (pas : List Nat) (vs : List Ver) : Table Nat :=
  (pas.zip vs).foldl (fun t x => if tget 0 t x.1 < x.2.time then tput t x.1 x.2.time else t) t

/-- A loose read (05 R116): of each byte a value held since the last FENCE or acquire of the thread before the word, and not before its
own loose accesses to the byte. -/
def State.looseRead (st : State) (c : Nat) (e : VEntry) (va : Nat) (pas : List Nat) (salt : Nat) : List Byte × State :=
  let k := st.ctx c
  let vs := st.readAccess (fun pa => max (max e.since (st.cutAt pa)) (tget 0 k.looseSeen pa)) va pas salt
  (vs.map (·.val), st.setCtx c fun k => { k with
    looseSeen := raiseSeen k.looseSeen pas vs
    -- the thread sees it before what follows a FENCE (05 R127)
    seen := if k.fencedAfter e.icnt.toNat then raiseSeen k.seen pas vs else k.seen })

/-- The words of a context after the one at `icnt` are served with what it has obtained (05 R121). -/
def Ctx.obtained (k : Ctx) (icnt : Word) (clk : Clock) : Ctx :=
  let up := fun (e : VEntry) => if icnt.toNat < e.icnt.toNat then { e with clock := e.clock.join clk } else e
  { k with
    vclock := k.vclock.join clk
    vq := k.vq.map up
    landing := k.landing.map fun l => { l with entry := up l.entry } }

/-- The bytes that one element of a memory word reads (05 R113, R116, R121). -/
def State.readBytes (st : State) (c : Nat) (e : VEntry) (locs : List Loc) (salt : Nat) : List Byte × State :=
  let pas := locs.map st.visible
  let st := st.rebuild pas
  if e.op.isLoose then st.looseRead c e (st.addr0 locs) pas (salt + 2 ^ 20 * e.icnt.toNat)
  else if e.space = 2 then ((st.rangeRead (st.launchOf c).moment (st.addr0 locs) pas (salt + 2 ^ 20 * e.icnt.toNat)).map (·.val), st)
  else
    let vs := st.threadRead c e.clock (st.addr0 locs) pas (salt + 2 ^ 20 * e.icnt.toNat)
    (vs.map (·.val), (st.observe c pas vs).setCtx c fun k => { k.obtained e.icnt (vs.foldl (fun (x : Clock) v => x.join v.clock) {}) with
      looseSeen := if k.fencedAfter e.icnt.toNat then raiseSeen k.looseSeen pas vs else k.looseSeen })

/-- Elements read in ascending order, with their values (10 R240, R243). -/
def State.readElems (st : State) (c : Nat) (e : VEntry) (els : List Nat) : Table Nat × State :=
  els.foldl (fun (a : Table Nat × State) i =>
    let r := a.2.readBytes c e (tget [] e.locs i) (16384 + 16 * i)
    let v := leNat r.1
    let v := match (e.addrOf 0 i).2 with
      | some n => fld v (4 * n) 4
      | none => v
    (a.1 ++ [(i, v)], r.2)) ([], st)

/-- Elements of GATHB read: each distinct address is fetched once (10 R246). `got` holds what the word has fetched. -/
def State.gather (st : State) (c : Nat) (e : VEntry) (got : List (List Loc × Nat)) (els : List Nat) :
    Table Nat × List (List Loc × Nat) × State :=
  els.foldl (fun (a : Table Nat × List (List Loc × Nat) × State) i =>
    let locs := tget [] e.locs i
    match a.2.1.find? (·.1 = locs) with
    | some x => (a.1 ++ [(i, x.2)], a.2)
    | none =>
      let r := a.2.2.readBytes c e locs (16384 + 16 * i)
      (a.1 ++ [(i, leNat r.1)], a.2.1 ++ [(locs, leNat r.1)], r.2)) ([], got, st)

/-- The spilled neighbours of the elements `els`, read as VLDL reads (03 R77). -/
def State.readSpills (st : State) (c : Nat) (e : VEntry) (els : List Nat) : Table Nat × State :=
  els.foldl (fun (a : Table Nat × State) i =>
    match tget .fill e.res i with
    | .spill core off x =>
      let r := a.2.readBytes c { e with op := .ld .lane 0 0 0 } ((spillLocs e.w core off x).map .phys) (16384 + 16 * i)
      let v := leNat r.1
      (a.1 ++ [(i, if e.w = 4 then fld v (4 * (x % 2)) 4 else v)], r.2)
    | _ => a) ([], st)

/-! ### Writes at their homes -/

/-- The bytes a part leaves, from the bytes there (05 R122, R123, 10 R237, R244), with the flags of an FP addition and
their lane. -/
def WPart.leaves (p : WPart) (old : List Byte) : List Byte × Nat × Flags :=
  match p.rmw, p.nibble with
  | some (.fadd t vt lane), _ =>
    let r := Rnd.ofVt vt 0
    let q := fpElem .add t r 0 (leNat old) (leNat p.bytes)
    (leBytes p.bytes.length q.1, lane, q.2)
  | some f, _ => (leBytes p.bytes.length (rmwNat f p.bytes.length (leNat old) (leNat p.bytes)), 0, 0)
  | none, some n =>
    let m := leNat old
    let v := leNat p.bytes % 16
    (leBytes 1 (if n = 0 then m / 16 * 16 + v else v * 16 + m % 16), 0, 0)
  | none, none => (p.bytes, 0, 0)

/-- A part of a numbered write is applied at its home, in one step (05 R119): its thread reads nothing older after it (R120). -/
def State.applyPart (st : State) (w : Write) (p : WPart) : State :=
  let pas := p.locs.map st.visible
  let (bs, lane, fl) := p.leaves (pas.map fun pa => (st.last pa).val)
  let st := st.applyBytes pas bs w.die w.num w.clock .none
  if w.ctx < noCtx then (st.made w.ctx pas).setCtx w.ctx fun k => k.raise lane fl else st

/-! ### What a group waits for -/

/-- The bytes of the writes of a context, up to its counted store n, that are not yet applied. -/
def State.pendingTo (st : State) (c n : Nat) : List Nat :=
  st.writes.foldl (fun l w => if w.ctx = c && w.id ≤ n then l ++ w.parts.flatMap (fun p => p.locs.map st.visible) else l) []

/-- Whether an earlier load of a context, queued or landing, has still to read one of these bytes, against a write with
place `id` among its counted stores (07 R170). Loads that a trap has frozen hold back only the stores of their own
convoy. -/
def State.readFirst (st : State) (c id : Nat) (pas : List Nat) : Bool :=
  let k := st.ctx c
  let own := k.vq.any fun e => e.stores = id
  (k.landing.any fun l => l.entry.space ≠ 2 && l.entry.wic < id &&
      (groupSpan l.entry.w l.group).any fun i => (tget [] l.entry.locs i).any fun q => st.visible q ∈ pas) ||
    ((!k.frozen || own) && k.vq.any fun e =>
      !e.op.isStore && !e.op.isLoose && e.wic < id && !(e.started && e.finished) && st.entryTouches c e (· ∈ pas))

/-- Whether a read of a queued word may be performed (05 R120, 07 R170): the frontiers its captured clock names are
known, and no earlier write of the thread to the bytes is on its way. Loose reads follow loose writes only. -/
def State.entryReads (st : State) (c : Nat) (e : VEntry) (pas : List Nat) : Bool :=
  if e.op.isLoose then
    !((st.ctx c).loose.any fun l => l.icnt < e.icnt && l.part.locs.any fun q => st.visible q ∈ pas) && !st.fenceHolds c e.icnt.toNat .loose pas
  else if e.space = 2 then true
  else st.servable e.clock pas && !st.stoppedAhead c none e.clock pas && !overlaps pas (st.pendingTo c e.wic) &&
    !st.fenceHolds c e.icnt.toNat .load pas

/-- Whether the landings to come leave a group alone (03 R75, R76). -/
def Ctx.isLanded (k : Ctx) (r g : Nat) : Bool := !k.landing.any fun l => l.reg = r && l.group = g

/-- Whether an element's neighbour can be read (03 R75 to R78). -/
def State.neighbourReady (st : State) (c : Nat) (e : VEntry) (i : Nat) : Bool :=
  match tget .fill e.res i with
  | .fill => true
  | .reg k r x =>
    if k = c then (st.ctx c).isLanded r (x / groupElems e.w)
    else e.served.any fun v => v.ctx = k && v.reg = r && v.group = x / groupElems e.w
  | .spill core off x =>
    (st.core core).chunks.getLsbD ((off + 256 * (x / groupElems e.w)) / 512) &&
      st.entryReads c { e with op := .ld .lane 0 0 0 } (spillLocs e.w core off x)

/-- Whether word e may process group g (07 R173): registers landed, neighbours served, memory readable, and nothing of
the context in the way of a store (R170). -/
def State.groupReady (st : State) (c : Nat) (e : VEntry) (g : Nat) : Bool :=
  let k := st.ctx c
  let els := (groupSpan e.w g).filter (e.isActive e.act)
  let bytes := fun i => (tget [] e.locs i).map st.visible
  (e.readsAt c g).all (fun x => x.1 || k.isLanded x.2.1 x.2.2) &&
    (match e.op.dest with | some (false, r) => k.isLanded r g | _ => true) &&
    match e.op with
    | .off .. => els.all (st.neighbourReady c e)
    | .ld .. | .ldi .. => els.all fun i => st.entryReads c e (bytes i)
    | .st .. | .sti .. | .stia .. => els.all fun i =>
      (e.op.isLoose || !st.landingTouches c (bytes i)) && !st.fenceHolds c e.icnt.toNat (if e.op.isLoose then .loose else .store) (bytes i)
    | _ => true

/-! ### The value of an element -/

/-- Where an algebra element begins, and the component that element i is (04 R107). -/
def algBase (n i : Nat) : Nat := i / n * n

/-- The neighbour of element i (03 R73). -/
def State.neighbour (st : State) (c : Nat) (conv : List (VEntry × Nat)) (j t : Nat) (e : VEntry) (spills : Table Nat) (i : Nat) : Nat :=
  let w := e.w
  match tget .fill e.res i with
  | .fill => e.fill
  | .reg k r x =>
    let h := x / groupElems w
    if k = c then inGroup w h x (st.viewGroup c conv j t false r w h)
    else match e.served.find? fun v => v.ctx = k && v.reg = r && v.group = h with
      | some v => inGroup w h x v.data
      | none => e.fill
  | .spill _ _ _ => tget 0 spills i

/-- result(i) of an arithmetic convoy word at group g (09 R212 to R220, R233), with its flags. ACONJ copies a component that it
does not negate bit for bit, a NaN too, and raises nothing for it: DESIGN CHOICE, log entry 82. -/
def State.elemFn (st : State) (c : Nat) (conv : List (VEntry × Nat)) (j t g : Nat) (e : VEntry) (spills : Table Nat) :
    Nat → Nat × Flags :=
  let f := e.fmt
  let w := e.w
  let grp := fun (r : Fin 32) => st.viewGroup c conv j t false r.val w g
  let rdn := (e.rnd 0).rdn
  let inf := (e.rnd 0).inf
  let tab := (st.ctx c).table (vtAlg e.ctl.vt)
  let n := algDim tab
  let val := fun (b : BitVec 2048) (i k : Nat) => f.decode inf (inGroup w g (algBase n i + k) b)
  match e.op with
  | .int o _ a b => let x := grp a; let y := grp b; fun i => intElem o f (inGroup w g i x) (inGroup w g i y)
  | .intVs o _ a _ => let x := grp a; fun i => intElem o f (inGroup w g i x) e.sigma
  | .fp o d a b =>
    let x := grp a; let y := grp b; let z := grp d
    fun i => fpElem o f (e.rnd i) (inGroup w g i z) (inGroup w g i x) (inGroup w g i y)
  | .fpVs o d a _ => let x := grp a; let z := grp d; fun i => fpElem o f (e.rnd i) (inGroup w g i z) (inGroup w g i x) e.sigma
  | .cvt _ a src => fun i =>
    let h := src.width * i / 2048
    convert src f (e.rnd i) (fld (st.viewGroup c conv j t false a.val w h).toNat (src.width * i % 2048) src.width)
  | .off float o d _ b _ _ _ =>
    let y := grp b; let z := grp d
    fun i => offElem float o f (e.rnd i) (inGroup w g i z) (st.neighbour c conv j t e spills i) (inGroup w g i y)
  | .amul _ a b => let x := grp a; let y := grp b; fun i => f.finish (e.rnd i) (algProd tab rdn (i % n) (val x i) (val y i))
  | .amac d a b =>
    let x := grp a; let y := grp b; let z := grp d
    fun i =>
      let p := algProd tab rdn (i % n) (val x i) (val y i)
      let d := f.decode inf (inGroup w g i z)
      let q := d.add p.v rdn
      let all := d :: (algTerms tab (i % n) (val x i) (val y i)).map fun t => (Val.fma (.zero false) t.1 t.2 rdn).v
      f.finish (e.rnd i) ⟨q.v, q.f ||| p.f ||| infClash all⟩
  | .aconj _ a =>
    let x := grp a
    fun i =>
      let v := inGroup w g i x
      if algConj tab (i % n) then ((fnegElem f (e.rnd i) v).1, sigFlag [f.decode inf v]) else (v, 0)
  | .anorm _ a => let x := grp a; fun i => if i % n = 0 then f.finish (e.rnd i) (algNorm tab rdn (val x i)) else (0, 0)
  | .scac d a k =>
    let x := grp a; let z := grp d; let s := (st.ctx c).scale k.val
    fun i => scacElem (e.rnd i) (inGroup w g i z) (inGroup w g i x) (fld s.toNat (8 * (i / 2 ^ vtBl e.ctl.vt)) 8)
  | _ => fun _ => (0, 0)

/-- The test of a compare at element i (09 R219), with the flag it raises. -/
def State.testFn (st : State) (c : Nat) (conv : List (VEntry × Nat)) (j t g : Nat) (e : VEntry) : Nat → Bool × Flags :=
  let grp := fun (r : Fin 32) => st.viewGroup c conv j t false r.val e.w g
  match e.op with
  | .cmp o _ a b => let x := grp a; let y := grp b; fun i => (cmpInt o e.fmt (inGroup e.w g i x) (inGroup e.w g i y), 0)
  | .fcmp o _ a b => let x := grp a; let y := grp b; fun i => cmpFp o e.fmt (e.rnd i).inf (inGroup e.w g i x) (inGroup e.w g i y)
  | _ => fun _ => (false, 0)

/-- The bit that a mask operation gives (09 R231). -/
def maskBit (f : VMaskFn) (a b : Bool) : Bool :=
  match f with
  | .and => a && b | .or => a || b | .xor => a != b | .not => !a

/-! ### Writing a group -/

/-- A word has written a group: what the group held before is kept for the words it must not reach (03 R75), and the
flags of the active elements are raised in their lanes (04 R96). -/
def State.wroteGroup (st : State) (c j g : Nat) (old : BitVec 2048) (w : Nat) (els : List Nat) (fl : Nat → Flags) : State :=
  let st := st.setWord c j fun e => if thas e.olds g then e else { e with olds := tput e.olds g old }
  st.setCtx c fun k => els.foldl (fun k i => k.raise (laneOf w i) (fl i)) k

/-- The parts of a store for its active elements of group g, in ascending order (10 R237, R240, R241, R244). -/
def State.storeGroup (st : State) (e : VEntry) (bits : BitVec 2048) (g : Nat) (els : List Nat) : List WPart :=
  els.flatMap fun i =>
    let locs := tget [] e.locs i
    let v := inGroup e.w g i bits
    match e.op with
    | .stia .. =>
      let f := if e.fmt.isInt then Rmw.add else Rmw.fadd e.fmt e.ctl.vt (laneOf e.w i)
      [{ locs := locs, bytes := leBytes (e.w / 8) v, rmw := some f, elem := i }]
    | _ => match (e.addrOf 0 i).2 with
      | some n => [{ locs := locs, bytes := [BitVec.ofNat 8 v], nibble := some n, elem := i }]
      | none => (storeParts locs (st.addr0 locs) (word v)).map fun p => { p with elem := i }

/-- A queued store takes its number, if it has none (05 R117): the write carries the word's clock with the number, and
the thread's clock comes to cover it. -/
def State.numberStore (st : State) (c j : Nat) (e : VEntry) : State :=
  if e.numbered || e.op.isLoose then st
  else
    let d := dieOf (coreOf c)
    let n := st.issued.at d + 1
    let clk := (e.clock.join (st.ctx c).vclock).set d n
    { (st.setCtx c fun k => { k with clock := k.clock.join clk }).setWord c j fun e => { e with numbered := true } with
      issued := st.issued.set d n
      writes := st.writes ++ [⟨Fin.ofNat 4 d, n, clk, c, [], true, e.stores⟩] }

/-- Parts added to the write of a queued store; `last` says that no group of it remains. -/
def State.growStore (st : State) (c : Nat) (e : VEntry) (ps : List WPart) (last : Bool) : State :=
  if e.op.isLoose then st.setCtx c fun k => { k with loose := k.loose ++ ps.map fun p => ⟨p, e.icnt⟩ }
  else { st with writes := st.writes.map fun w =>
    if w.ctx = c && w.id = e.stores then { w with parts := w.parts ++ ps, growing := !last } else w }

/-- Word j of the first convoy performs its work on group g at step t. -/
def State.performGroup (st : State) (c j t g : Nat) : State :=
  let conv := st.convoy c
  match conv[j]? with
  | none => st
  | some (e, _) =>
    let w := e.w
    let m := groupElems w
    let view := st.viewMask c conv j t (fldW e.ctl.vm 0 3) w
    let on := e.isActive view
    let els := (groupSpan w g).filter on
    match e.op with
    | .ld .. | .ldi .. =>
      let r := ((e.op.dest).getD (false, 0)).2
      let (vals, st) := st.readElems c e els
      let old := groupOf ((st.ctx c).brick r) g
      let new := e.merge on old g fun i => tget 0 vals i
      (st.setCtx c fun k => k.setBrick r (setGroup (k.brick r) g new)).wroteGroup c j g old w els fun _ => 0
    | .st _ b _ _ | .sti b _ _ | .stia b _ _ =>
      let bits := st.viewGroup c conv j t false b.val w g
      let ps := st.storeGroup e bits g els
      (st.numberStore c j e).growStore c e ps false
    | .cmp _ md _ _ | .fcmp _ md _ _ =>
      let f := st.testFn c conv j t g e
      let old := maskGroup ((st.ctx c).mask md.val) m g
      let new := e.mergeMask on old g fun i => (f i).1
      (st.setCtx c fun k => k.setMask md.val (setMaskGroup (k.mask md.val) m g new)).wroteGroup c j g old w els fun i => (f i).2
    | .mask f d a b =>
      let x := st.viewGroup c conv j t true a.val w g
      let y := st.viewGroup c conv j t true b.val w g
      let old := maskGroup ((st.ctx c).mask d.val) m g
      let new := e.mergeMask (inVL w e.ctl.vl) old g fun i => maskBit f (x.getLsbD (i - g * m)) (y.getLsbD (i - g * m))
      (st.setCtx c fun k => k.setMask d.val (setMaskGroup (k.mask d.val) m g new)).wroteGroup c j g old w [] fun _ => 0
    | _ =>
      let r := ((e.op.dest).getD (false, 0)).2
      let (spills, st) := match e.op with
        | .off .. => st.readSpills c e els
        | _ => ([], st)
      let f := st.elemFn c conv j t g e spills
      let old := groupOf ((st.ctx c).brick r) g
      let new := e.merge on old g fun i => (f i).1
      (st.setCtx c fun k => k.setBrick r (setGroup (k.brick r) g new)).wroteGroup c j g old w els fun i => (f i).2

end Sys2Proof.Machine
end

