-- ==== Sys2Proof/Machine/Solo.lean ====
section
/-! DEFINITION. Solo: the effects of the solo words (07 R167): permutes, reductions and scans, moves, mask words, ALD,
NBSET and NBGET, SCLD, VLDA, GATHB and the start of WAITV (09 R221 to R235, 10 R245 to R248). -/

namespace Sys2Proof.Machine

/-! ### Reading and writing whole bricks -/

/-- src(i) (09 R221, 03 R69). -/
def VEntry.src (e : VEntry) (b : BitVec 16384) (i : Nat) : Nat :=
  if i < brickElems e.w && inVL e.w e.ctl.vl i then elem b e.w i else e.fill

/-- A brick with every group put through f. -/
def mapGroups (b : BitVec 16384) (f : Nat → BitVec 2048 → BitVec 2048) : BitVec 16384 :=
  BitVec.ofNat 16384 ((List.range 8).foldr (fun g a => a * 2 ^ 2048 + (f g (groupOf b g)).toNat) 0)

/-- The place of every element inside VL among those inside VL, or of every active one among the active ones. -/
def placesOf (p : Nat → Bool) : List Nat → Nat → Table Nat
  | [], _ => []
  | i :: t, k => if p i then (i, k) :: placesOf p t (k + 1) else placesOf p t k

/-- A brick written by R66 with results and flags. -/
def Ctx.write66 (k : Ctx) (e : VEntry) (d : Nat) (res : Nat → Nat) (fl : Nat → Flags) : Ctx :=
  let new := mapGroups (k.brick d) fun g old => e.merge e.on old g res
  (e.all.filter e.on).foldl (fun k i => k.raise (laneOf e.w i) (fl i)) (k.setBrick d new)

/-- The active elements of a brick, by position (04 R98). -/
def VEntry.live (e : VEntry) (b : BitVec 16384) (i : Nat) : Option Nat := if e.on i then some (elem b e.w i) else none

/-- Flags raised at elements. -/
def Ctx.raiseAll (k : Ctx) (w : Nat) (l : List (Nat × Flags)) : Ctx := l.foldl (fun k x => k.raise (laneOf w x.1) x.2) k

/-- A reduction (09 R229, 04 R98). -/
def Ctx.reduce (k : Ctx) (e : VEntry) (f : VRed) (d a : Nat) : Ctx :=
  let (r, fl) := reduceBelow (redCombine f e.fmt e.rnd) (groupElems e.w) (e.live (k.brick a)) 8
  (k.setBrick d (setElem (k.brick d) e.w 0 (r.getD (redNone f e.fmt (e.rnd 0).inf)))).raiseAll e.w fl

/-- A scan (09 R230, 04 R99). -/
def Ctx.scanInto (k : Ctx) (e : VEntry) (d a : Nat) : Ctx :=
  let m := groupElems e.w
  let f := redCombine .sum e.fmt e.rnd
  let v := e.live (k.brick a)
  let at_ := fun (i : Nat) =>
    let p := reduceBelow f m v (i / m)
    let q := groupTree f m (i / m) (i % m) v
    let r := combineAt f i p.1 q.1
    (r.1.getD 0, p.2 ++ q.2 ++ r.2)
  let k := (e.all.filter e.on).foldl (fun k i => k.raiseAll e.w (at_ i).2) k
  k.write66 e d (fun i => (at_ i).1) fun _ => 0

/-- VCOMP (09 R223). -/
def Ctx.compress (k : Ctx) (e : VEntry) (d a : Nat) : Ctx :=
  let src := k.brick a
  let live := e.all.filter e.on
  let at_ := placesOf (inVL e.w e.ctl.vl) e.all 0
  let new := mapGroups (k.brick d) fun g old => packGroup e.w (groupElems e.w) fun j =>
    let i := g * groupElems e.w + j
    let keep := fld old.toNat (e.w * j) e.w
    if !inVL e.w e.ctl.vl i then keep
    else match live[tget 0 at_ i]? with
      | some s => elem src e.w s
      | none => if bitW e.ctl.vm 6 then 0 else keep
  let k := k.setBrick d new
  if vlBox e.ctl.vl then k else { k with ctrl := { k.ctrl with vl := word live.length } }

/-- VEXP (09 R224). -/
def Ctx.expand (k : Ctx) (e : VEntry) (d a : Nat) : Ctx :=
  let src := k.brick a
  let ins := e.inside
  let at_ := placesOf e.on e.all 0
  k.write66 e d (fun i => elem src e.w (ins.getD (tget 0 at_ i) 0)) fun _ => 0

/-- VTBL (09 R226): the table register is read as it stood, the indices too. -/
def Ctx.lookup (k : Ctx) (e : VEntry) (d a : Nat) (h : Bool) (n : Nat) (fill : Byte) : Ctx :=
  let idx := k.brick d
  let byte := fun (i : Nat) =>
    let t := elem idx 16 i
    if t < 2048 * n then fld ((k.brick (a + t / 2048)).toNat) (8 * (t % 2048)) 8 else fill.toNat
  let base := if h then 1024 else 0
  let new := mapGroups idx fun g old => packGroup 8 256 fun j =>
    let p := g * 256 + j
    let keep := fld old.toNat (8 * j) 8
    let i := p - base
    if p < base || base + 1024 ≤ p || !inVL 16 e.ctl.vl i then keep
    else if e.on i then byte i else if bitW e.ctl.vm 6 then 0 else keep
  k.setBrick d new

/-- The 64 bits of a mask that MSET and MGET name (09 R232). -/
def maskDword (b : BitVec 4096) (n : Nat) : Word := b.extractLsb' (64 * n) 64
def setMaskDword (b : BitVec 4096) (n : Nat) (v : Word) : BitVec 4096 :=
  let hole : BitVec 4096 := BitVec.ofNat 4096 ((2 ^ 64 - 1) * 2 ^ (64 * n))
  (b &&& ~~~hole) ||| BitVec.ofNat 4096 (v.toNat * 2 ^ (64 * n))

/-- The mask GATHB writes (10 R246). -/
def dupMask (e : VEntry) (bi : BitVec 16384) (old : BitVec 4096) : BitVec 4096 :=
  (e.inside.foldl (fun (a : BitVec 4096 × List Nat) i =>
    let t := elem bi e.w i
    (setMaskBit a.1 i (e.on i && t ∈ a.2), if e.on i then t :: a.2 else a.2)) (old, [])).1

/-! ### Landings -/

/-- The groups VLDA or GATHB writes, and its brick. -/
def VOp.lands : VOp → Option Nat
  | .lda b _ _ | .gathb b _ _ _ => some b.val
  | _ => none

/-- Landed bits of groups put to a value. -/
def setBits (b : BitVec 8) (gs : List Nat) (v : Bool) : BitVec 8 :=
  gs.foldl (fun b g => if v then b ||| BitVec.ofNat 8 (2 ^ g) else b &&& ~~~(BitVec.ofNat 8 (2 ^ g))) b

/-- The landed bits of the groups a word will write are cleared (03 R76, 10 R245). -/
def Ctx.unland (k : Ctx) (e : VEntry) : Ctx :=
  match e.op.lands with
  | some b => k.setLand b (setBits (k.land b) (groupsInVL e.w e.ctl.vl) false)
  | none => k

/-- Whether a landing to come, or a queued VLDA or GATHB other than the head, writes a group. -/
def Ctx.landsLater (k : Ctx) (queued : List VEntry) (b g : Nat) : Bool :=
  k.landing.any (fun l => l.reg = b && l.group = g) ||
    queued.any fun e => e.op.lands = some b && g ∈ groupsInVL e.w e.ctl.vl

/-- The bits of a VLDA or GATHB at the head whose probe failed are set again (10 R245). -/
def Ctx.reland (k : Ctx) (e : VEntry) : Ctx :=
  match e.op.lands with
  | some b =>
    let gs := (groupsInVL e.w e.ctl.vl).filter fun g => !k.landsLater (k.vq.drop 1) b g
    k.setLand b (setBits (k.land b) gs true)
  | none => k

/-- The groups of a started VLDA or GATHB, to land in any order (03 R76). -/
def Ctx.launchLoads (k : Ctx) (e : VEntry) (b : Nat) : Ctx :=
  { (k.unland e) with landing := k.landing ++ (groupsInVL e.w e.ctl.vl).map fun g => { reg := b, group := g, entry := e } }

/-- Groups inside VL that a word with VM.DT = 1 spends no step on (03 R67). -/
def VEntry.skipped (e : VEntry) : List Nat := (groupsInVL e.w e.ctl.vl).filter fun g => g ∉ e.groups

/-- The skipped groups of register r that have still to land, which the word does not wait for: the zeroes of VM.MZ come after the
landing (03 R67, R76). -/
def Ctx.zeroLater (k : Ctx) (e : VEntry) (r : Nat) : Ctx :=
  if !bitW e.ctl.vm 6 then k
  else e.skipped.foldl (fun k g =>
    match findIdx (fun (l : Landing) => l.reg = r && l.group = g) k.landing.reverse with
    | none => k
    | some i => { k with landing := mapAt (fun l => { l with after := l.after ++ [e] }) k.landing (k.landing.length - 1 - i) }) k

/-- A group that has landed, after the words that had passed it over. -/
def Landing.settled (l : Landing) (b : BitVec 2048) : BitVec 2048 :=
  l.after.foldl (fun b e => e.merge e.on b l.group fun _ => 0) b

/-! ### The effect of a solo word -/

/-- What a solo word waits for besides its start: landings into the groups that it reads or writes (03 R67, R75), and for ALD and
SCLD the reads of memory. -/
def State.soloReady (st : State) (c : Nat) (e : VEntry) : Bool :=
  let k := st.ctx c
  ((e.soloReads ++ e.soloWrites).all fun x => k.isLanded x.1 x.2) &&
    match e.op with
    | .ald .. | .scld .. => e.locs.all fun l => st.entryReads c e (l.2.map st.visible)
    | _ => true

/-- The flags of WAITV at its start (10 R248): its active elements, with the addresses and the expected dwords. -/
def Ctx.waitFlags (k : Ctx) (e : VEntry) (a b : Nat) : List Flag :=
  (e.all.filter e.on).map fun i => ⟨i, word (elem (k.brick a) 64 i), word (elem (k.brick b) 64 i), false, {}⟩

/-- A solo word that touches no memory (09 R221 to R232, R235). NBGET with one register for both images leaves the second one in
it: DESIGN CHOICE, log entry 85. -/
def Ctx.soloLane (k : Ctx) (e : VEntry) : Ctx :=
  let w := e.w
  let noFl := fun (_ : Nat) => noFlags
  match e.op with
  | .slup d a _ => let b := k.brick a.val; k.write66 e d.val (fun i => if e.xa.toNat ≤ i then e.src b (i - e.xa.toNat) else e.fill) noFl
  | .sldn d a _ => let b := k.brick a.val; k.write66 e d.val (fun i => e.src b (i + e.xa.toNat)) noFl
  | .dup d a _ => let b := k.brick a.val; k.write66 e d.val (fun _ => e.src b e.xa.toNat) noFl
  | .comp d a => k.compress e d.val a.val
  | .exp d a => k.expand e d.val a.val
  | .trn d a p =>
    let b := k.brick a.val
    k.write66 e d.val (fun i =>
      let (x, y, z) := coord w i
      e.src b (match p with | .xy => elemAt w y x z | .yz => elemAt w x z y | .xz => elemAt w z y x)) noFl
  | .iota d =>
    let at_ := placesOf e.on e.all 0
    let r := fun i => iotaElem e.fmt (e.rnd i) (tget 0 at_ i)
    k.write66 e d.val (fun i => (r i).1) fun i => (r i).2
  | .sel d a b =>
    let x := k.brick a.val
    let y := k.brick b.val
    k.setBrick d.val (mapGroups (k.brick d.val) fun g old =>
      e.merge (inVL w e.ctl.vl) old g fun i => if maskedIn e.ctl.vm e.act i then elem x w i else elem y w i)
  | .tbl d a h n fill => k.lookup e d.val a.val h (n.val + 1) fill
  | .red f d a => k.reduce e f d.val a.val
  | .scan d a => k.scanInto e d.val a.val
  | .splat d _ => k.write66 e d.val (fun _ => e.sigma) noFl
  | .ext x b _ =>
    let v := e.src (k.brick b.val) e.xa.toNat
    k.result x.val (if e.fmt.isInt && e.fmt.isSigned then sextW v w else word v) 1
  | .ins d _ _ =>
    let i := e.xb.toNat
    if i < brickElems w && e.on i then k.setBrick d.val (setElem (k.brick d.val) w i (e.xa.toNat % 2 ^ w)) else k
  | .mpopc x m => k.result x.val (word ((e.inside.filter fun i => (k.mask m.val).getLsbD i).length)) 1
  | .mffs x m => k.result x.val (word (((e.inside.filter fun i => (k.mask m.val).getLsbD i).head?).getD 4096)) 1
  | .mset m _ _ => k.setMask m.val (setMaskDword (k.mask m.val) e.xb.toNat e.xa)
  | .mget x m _ => k.result x.val (maskDword (k.mask m.val) e.xb.toNat) 1
  | .nbset b _ _ => k.setLink b.val (e.xa, e.xb &&& 0xFFFFFFFFFFF)
  | .nbget x y b => (k.result x.val (k.link b.val).1 1).result y.val (k.link b.val).2 1
  | .lda b _ _ => k.launchLoads e b.val
  | .gathb b _ i m => (k.launchLoads e b.val).setMask m.val (dupMask e (k.brick i.val) (k.mask m.val))
  | .waitv m a b _ => { k with wait := some (.flags m (k.waitFlags e a.val b.val) e.ctl e.icnt e.xa), waited := if e.resumed then k.waited else 0 }
  | _ => k

/-- Bytes read one by one (05 R123), in ascending order. -/
def State.readAll (st : State) (c : Nat) (e : VEntry) (locs : List Loc) : List Byte × State :=
  (locs.zip (List.range locs.length)).foldl (fun (a : List Byte × State) (l, i) =>
    let r := a.2.readBytes c e [l] (16384 + 16 * i)
    (a.1 ++ r.1, r.2)) ([], st)

/-- The head of the queue is done. -/
def State.popWord (st : State) (c : Nat) : State := st.setCtx c fun k => { k with vq := k.vq.drop 1 }

/-- Where the scalar core of a context goes on after a vector word traps (15 R280). -/
def Ctx.resumeAt (k : Ctx) : Word :=
  match k.opened with
  | [] => k.pc
  | e :: _ => e.addr

/-- The brick whose inactive elements a solo word zeroes under R66: VTBL, VINS and the reductions leave what they skip as it is (09 R226,
R227, R229), and VCOMP and VSEL skip no group. -/
def VOp.zeroes : VOp → Option Nat
  | .slup d _ _ | .sldn d _ _ | .exp d _ | .trn d _ _ | .dup d _ _ | .scan d _ | .iota d | .splat d _ => some d.val
  | _ => none

/-- A solo word at the head, started, is performed (07 R167). WAITV stays until its wait ends. -/
def State.soloStep (st : State) (c : Nat) (e : VEntry) : State :=
  match e.op with
  | .ald j _ =>
    -- nine dwords, each read whole (05 R123, 09 R234)
    let r := (List.range 9).foldl (fun (a : List Byte × State) i =>
      let q := a.2.readBytes c e (((tget [] e.locs 0).drop (8 * i)).take 8) (16384 + 16 * i)
      (a.1 ++ q.1, q.2)) ([], st)
    let img : BitVec 576 := BitVec.ofNat 576 (leNat r.1)
    if badTable img then r.2.trapWord c Code.illop { opnd := 1 } e.addr (st.ctx c).resumeAt true
    else (r.2.setCtx c fun k => { k with tabs := tset (resetTable j.val) k.tabs j.val img }).popWord c
  | .scld k _ _ =>
    let r := st.readAll c e (e.locs.flatMap (·.2))
    (r.2.setCtx c fun x => x.setScale k.val (BitVec.ofNat 4096 (leNat r.1))).popWord c
  | .waitv .. => st.setCtx c fun k => k.soloLane e
  | _ => (st.setCtx c fun k => (match e.op.zeroes with
      | some d => (k.soloLane e).zeroLater e d
      | none => k.soloLane e)).popWord c

end Sys2Proof.Machine
end

