-- ==== Sys2Proof/Machine/Vector.lean ====
section
/-! DEFINITION. Vector: issue of the vector words (07 R163 to R171), and the events of the sequencer: the start of a
convoy (R172), its steps (R173), the service of REMOTE groups (03 R78) and landings (R76). -/

namespace Sys2Proof.Machine

/-! ### Starting and stepping a convoy -/

/-- Whether the vector side of a context may move: not frozen (15 R280), not held for a save (18 R335), its core
running, and no status of a push to another core outstanding (log entry 24). -/
def State.vecRuns (st : State) (c : Nat) : Bool :=
  let k := st.ctx c
  let core := st.core (coreOf c)
  !k.frozen && (k.saving.isNone || k.inTrap) && !core.stopped && !core.halted &&
    match k.wait with | some (.push _ _) => false | _ => true

/-- What the start of a convoy finds, word by word (07 R162, R172, R175): the entry at fault and what it found. -/
def startFinds (c : Nat) (dchk : Bool) (conv : List (VEntry × Nat)) (found : List (List Found)) : List (VEntry × Found) :=
  ((List.range conv.length).flatMap fun j =>
    match conv[j]? with
    | none => []
    | some (e, _) =>
      (match (if dchk && !e.resumed then shortRead c conv j else none) with
        | some (p, n) => [(e, ((0, Code.stallShort, { d0 := p, d1 := word n }) : Found))]
        | none => []) ++ (found.getD j []).map fun f => (e, f))

/-- The first of the least rank among words. -/
def leastAmong : List (VEntry × Found) → Option (VEntry × Found)
  | [] => none
  | f :: t => match leastAmong t with
    | none => some f
    | some g => if g.2.1 < f.2.1 then some g else some f

/-- The step at which a convoy begins or goes on: the least place of an unfinished word (07 R173, 18 R336). -/
def firstStep : List (VEntry × Nat) → Nat
  | [] => 0
  | (e, d) :: t => if e.finished then firstStep t else
    let r := t.filter fun x => !x.1.finished
    if r.isEmpty then e.prog + d else min (e.prog + d) (firstStep t)

/-- Whether the brick that holds a word's addresses has landed in the groups the word processes: its probe reads them (03 R75, 10
R243, R248). A late word's indices are read as it runs. -/
def Ctx.indexLanded (k : Ctx) (e : VEntry) : Bool :=
  e.late || !e.op.indexed || e.groups.all fun g => k.isLanded e.op.indexReg g

/-- What the words of a convoy that may start are, once probed, with what its checks and its probe find. -/
def State.startWith (st : State) (c : Nat) (es : List VEntry) : List VEntry × List (VEntry × Found) :=
  let ready := (markLate [] es).map (st.prepare c)
  let es := ready.map (·.1)
  let conv := es.zip (distances 0 es)
  -- the distances of a convoy with late words are checked as it runs
  (es, startFinds c (bitW (st.ctx c).ctrl.dchk 0 && es.all (!·.late)) conv (ready.map (·.2)))

/-- A trap that a convoy at the head takes, before anything of it is written (07 R172). -/
def State.convoyTraps (st : State) (c : Nat) (e0 : VEntry) (x : VEntry × Found) : State :=
  (st.setCtx c fun k => k.reland e0).trapWord c x.2.2.1 x.2.2.2 x.1.addr (st.ctx c).resumeAt true

/-- VECTOR_WORD_START (07 R168, R172), when the first convoy of a context may start: every check and probe comes before
anything is written. The core's buffer keeps the pages of the probe (17 R320). -/
def State.vecStart? (st : State) (c : Nat) : Option Out :=
  let k := st.ctx c
  match firstConvoy k.vq with
  | [] => none
  | e0 :: t =>
    let (es, found) := st.startWith c (e0 :: t)
    -- what the check of the distances of a convoy with late words finds comes first, as it runs (07 R162)
    let waits := bitW k.ctrl.dchk 0 && es.any (·.late)
    -- a page in the move is waited for (17 R271)
    if e0.started || !st.vecRuns c || !es.all k.indexLanded || found.any (·.2.2.1 = 0) then none
    else match (if waits then none else leastAmong found) with
      | some x => some (.next (st.convoyTraps c e0 x))
      | none =>
        let vas := es.flatMap fun e => if e.op.isMem && e.space ≠ 1 then
            e.remaining.map fun i => (st.spaceVa c e.space (vmtWin e.ctl.vmt) (e.addrOf (k.brick e.op.indexReg) i).1).toNat else []
        some (.next ((st.fillPages (coreOf c) (st.partOf (coreOf c)) vas).setCtx c fun k => { k with
          vq := (es.map fun e => { e with started := true }) ++ k.vq.drop es.length
          vstep := firstStep (es.zip (distances 0 es)) }))

/-- The skipped groups of every word of a convoy, treated at its first step so that they end as with DT = 0 (03 R67). -/
def State.skipGroups (st : State) (c : Nat) (conv : List (VEntry × Nat)) : State :=
  (List.range conv.length).foldl (fun t j => match conv[j]? with
    | some (e, _) =>
      if e.op.isStore then t
      else
        let landed := fun g => match e.op.dest with | some (false, r) => (t.ctx c).isLanded r g | _ => true
        let t := match e.op.dest with
          | some (false, r) => t.setCtx c fun k => k.zeroLater e r
          | _ => t
        (e.skipped.filter landed).foldl (fun t g => t.performGroup c j 0 g) t
    | none => t) st

/-- The words that process a group at step t, with the group (07 R173). -/
def dueAt (t : Nat) (conv : List (VEntry × Nat)) : List (Nat × Nat) :=
  (List.range conv.length).filterMap fun j => match conv[j]? with
    | some (e, d) => if e.finished || t < e.prog + d then none else (e.groups[e.prog]?).map fun g => (j, g)
    | none => none

/-- The place of a word's next group in the steps of its convoy (07 R173). -/
def placeIn (conv : List (VEntry × Nat)) (j : Nat) : Nat := match conv[j]? with | some (e, d) => e.prog + d | none => 0

/-- Whether a store word earlier in the convoy has still to write bytes that word e reads at group g (07 R170). -/
def State.ownHolds (st : State) (c : Nat) (before : List VEntry) (e : VEntry) (g : Nat) : Bool :=
  let bytes := (groupSpan e.w g).flatMap fun i => match e.op with
    | .off .. => (match tget .fill e.res i with | .spill core off x => spillLocs e.w core off x | _ => [])
    | _ => (tget [] e.locs i).map st.visible
  !e.op.isStore && (e.op.isMem || bytes ≠ []) && before.any fun s =>
    s.op.isStore && s.op.isLoose = e.op.isLoose && !s.finished && (e.late || st.entryTouches c s (· ∈ bytes))

/-- Whether word e reads at group g a group that an earlier word of the convoy has still to process: by 07 R175 it may obtain the contents
after that as well as those before. -/
def readsAhead (c : Nat) (before : List (VEntry × Nat)) (e : VEntry) (g : Nat) : Bool :=
  (e.readsAt c g).any fun x => before.any fun p => p.1.op.dest = some (x.1, x.2.1) &&
    match p.1.placeOf x.2.2 with | some i => p.1.prog ≤ i | none => false

/-- The words that process a group in the next move of a convoy, with the group, and whether they end the step. A word stands still, and
the later ones with it, while a store word before it has still to write what it reads (07 R170), or, freely, to read what an earlier
word has still to process (R175); those that have stood still come one place after another (log entry 97). -/
def State.dueNow (st : State) (c t : Nat) (conv : List (VEntry × Nat)) : List (Nat × Nat) × Bool :=
  let due := dueAt t conv
  let held := fun (x : Nat × Nat) => match conv[x.1]? with
    | none => false
    | some (e, _) =>
      let before := conv.take x.1
      st.ownHolds c (before.map (·.1)) e x.2 || (readsAhead c before e x.2 && Config.pick st.tick (2 * (2 ^ 26 + x.1)) 2 = 1)
  let front := due.takeWhile (!held ·)
  let least := (front.map fun x => placeIn conv x.1).foldl min t
  (front.filter fun x => placeIn conv x.1 = least, least = t)

/-- A word whose last group is done: a store takes no further part, and its write is complete (05 R117). -/
def State.closeWord (st : State) (c j : Nat) : State :=
  match (st.convoy c)[j]? with
  | some (e, _) => if e.op.isStore && e.finished then (st.numberStore c j e).growStore c e [] true else st
  | none => st

/-- A convoy whose words are all finished leaves the queues (18 R335). -/
def State.dropConvoy (st : State) (c : Nat) : State :=
  let es := firstConvoy (st.ctx c).vq
  if es.all (·.finished) then st.setCtx c fun k => { k with vq := k.vq.drop es.length, vstep := 0 } else st

/-- Whether the needs of a group that is due are met (07 R173). -/
def State.dueReady (st : State) (c : Nat) (x : Nat × Nat) : Bool :=
  match (st.convoy c)[x.1]? with
  | some (e, _) => st.groupReady c e x.2
  | none => false

/-- Word j performs group g at its step, and has one group less to do. -/
def State.doGroup (st : State) (c : Nat) (x : Nat × Nat) : State :=
  (st.performGroup c x.1 (placeIn (st.convoy c) x.1) x.2).setWord c x.1 fun e => { e with prog := e.prog + 1 }

/-- What follows the groups of a move: words that are done are closed, and a step that is done is counted. -/
def State.endStep (st : State) (c : Nat) (done : Bool) : State :=
  ((List.range (st.convoy c).length).foldl (fun t j => t.closeWord c j) st).setCtx c fun k => { k with vstep := k.vstep + (if done then 1 else 0) }

/-! ### Late words -/

/-- The activity and the locations or links of group g of a late word, as it sees its mask and its index brick at step t, with what
the probe of the group finds (log entry 84). -/
def State.probeLate (st : State) (c j t g : Nat) (e : VEntry) : State × List (VEntry × Found) :=
  let conv := st.convoy c
  let m := groupElems e.w
  let act := setMaskGroup e.act m g (maskGroup (st.viewMask c conv j t (fldW e.ctl.vm 0 3) e.w) m g)
  let els := (groupSpan e.w g).filter (active e.w e.ctl.vl e.ctl.vm act)
  let (locs, f1) := if e.op.isMem then st.probeMem c e (st.viewBrick c conv j t e.op.indexReg) els else ([], [])
  let (res, f2) := st.probeLinks c e els
  let f3 := match e.op with
    | .scac .. => if els.any (fun i => 511 < i / 2 ^ vtBl e.ctl.vt) then badCtl 3 else []
    | _ => []
  (st.setWord c j fun e => { e with
    act := act, locs := e.locs ++ locs, res := e.res.filter (fun x => x.1 / m ≠ g) ++ res }, (f3 ++ f1 ++ f2).map fun f => (e, f))

/-- The writes of the context's own store words of the convoy, applied where a later load of it needs them: a convoy with late words
runs in one step. None where the store may not be applied yet (05 R119). -/
def State.applyOwn (st : State) (c j : Nat) (pas : List Nat) : Option State :=
  let ids := ((st.convoy c).take j).filterMap fun x => if x.1.op.isStore && !x.1.op.isLoose && x.1.numbered then some x.1.stores else none
  st.writes.foldl (fun (a : Option State) w =>
    if w.ctx ≠ c || w.id ∉ ids || !w.parts.any (fun p => overlaps pas (p.locs.map st.visible)) then a
    else match a with
      | none => none
      | some t =>
        if !w.parts.all (fun p => t.applicable w (p.locs.map t.visible) && !t.readFirst c w.id (p.locs.map t.visible)) then none
        else
          let u := w.parts.foldl (fun (u : State) p => u.applyPart w p) t
          some { u with writes := u.writes.map fun (v : Write) => if v.ctx = c && v.id = w.id then { v with parts := [] } else v }) (some st)

/-- A run through a convoy with late words: the state it has come to with what its probes have found, or the state in which something it
needs was not there. -/
abbrev Late := Sum (State × List (VEntry × Found)) State

/-- Whether a late word has nothing to do in group g: with VM.DT = 1 it takes no step on a group with no active element (07 R173). -/
def VEntry.passesOver (e : VEntry) (g : Nat) : Bool := e.late && bitW e.ctl.vm 5 && !(groupSpan e.w g).any e.on

/-- Word j of a convoy with late words performs group g at step t, if its needs are met: a late word probes the group first. -/
def State.lateGroup (c : Nat) (a : Late) (x : Nat × Nat) : Late :=
  match a with
  | .inr st => .inr st
  | .inl (st, found) => match (st.convoy c)[x.1]? with
    | none => .inr st
    | some (e, _) =>
      let (st, f) := if e.late then st.probeLate c x.1 (placeIn (st.convoy c) x.1) x.2 e else (st, [])
      match (st.convoy c)[x.1]? with
      | none => .inr st
      | some (e, _) =>
        if e.passesOver x.2 then .inl (st.setWord c x.1 fun e => { e with prog := e.prog + 1 }, found ++ f)
        else match (if e.op.isStore || e.op.isLoose then some st else
            st.applyOwn c x.1 ((groupSpan e.w x.2).flatMap fun i => (tget [] e.locs i).map st.visible)) with
        | none => .inr st
        | some st => if st.dueReady c x then .inl (st.doGroup c x, found ++ f) else .inr st

/-- The steps of a convoy with late words, up to n, to the end of the convoy. -/
def State.lateSteps (c : Nat) : Nat → State → List (VEntry × Found) → Late
  | 0, st, found => .inl (st, found)
  | n + 1, st, found =>
    let conv := st.convoy c
    if conv.all (·.1.finished) then .inl (st, found)
    else
      let due := st.dueNow c (st.ctx c).vstep conv
      match due.1.foldl (State.lateGroup c) (.inl (st, found)) with
      | .inr t => .inr t
      | .inl (t, found) => (t.endStep c due.2).lateSteps c n found

/-- The words of a convoy with f applied to each and to the same word of another state. -/
def State.withWords (st t : State) (c : Nat) (f : VEntry → VEntry → VEntry) : State :=
  ((t.convoy c).zip (List.range (t.convoy c).length)).foldl (fun u x => u.setWord c x.2 fun e => f e x.1.1) st

/-- A convoy with late words, in one step, once all it needs is there (log entry 84). A first run finds the activity and the links of
its late words, and what their probes or the check of the distances find, before anything is written; a second one performs the
groups that are processed (07 R173). Until then the links that the first run has resolved stand, so that REMOTE groups are served
(03 R78). -/
def State.lateConvoy (st : State) (c : Nat) : Option State :=
  let conv := st.convoy c
  match (st.skipGroups c conv).lateSteps c 128 [] with
  | .inr t =>
    if conv.all fun x => (t.convoy c).any fun y => y.1.addr = x.1.addr && y.1.res = x.1.res then none
    else some (st.withWords t c fun e x => { e with res := x.res })
  | .inl (t, found) =>
    -- the distances, with the activity that has come out
    let done := (t.convoy c).map fun x => ({ x.1 with late := false, prog := 0 }, x.2)
    let short := if bitW (st.ctx c).ctrl.dchk 0 then startFinds c true done [] else []
    match leastAmong (short ++ (st.startWith c (conv.map (·.1))).2 ++ found) with
    | some x => if found.any (·.2.2.1 = 0) then none else some (st.convoyTraps c ((conv.head?.map (·.1)).getD x.1) x)
    | none =>
      let u := st.withWords t c fun e x => if e.late then { e with late := false, act := x.act, locs := x.locs, res := x.res } else e
      match (u.skipGroups c (u.convoy c)).lateSteps c 128 [] with
      | .inr _ => none
      | .inl (u, _) => some (u.dropConvoy c)

/-- CONVOY_STEP (07 R173) of a convoy, when its needs are met. -/
def State.convoyStep? (st : State) (c : Nat) : Option State :=
  let k := st.ctx c
  let conv := st.convoy c
  if conv.any (·.1.late) then st.lateConvoy c
  else
    let due := st.dueNow c k.vstep conv
    if !due.1.all (st.dueReady c) then none
    else
      let st := if conv.all (fun x => x.1.prog = 0) then st.skipGroups c conv else st
      some (((due.1.foldl (fun t x => t.doGroup c x) st).endStep c due.2).dropConvoy c)

/-- Whether word e of context c, at group g, waits for a group of another context that has still to land (03 R76, R78). -/
def State.remoteStalls (st : State) (c : Nat) (e : VEntry) (g : Nat) : Bool :=
  ((groupSpan e.w g).filter (e.isActive e.act)).any fun i => match tget .fill e.res i with
    | .reg k r x =>
      let h := x / groupElems e.w
      k ≠ c && !(e.served.any fun v => v.ctx = k && v.reg = r && v.group = h) &&
        !((st.ctx k).isLanded r h && ((st.ctx k).land r).getLsbD h)
    | _ => false

/-- Whether the word at the head of a context's queues stalls on a landed bit (02 R52, 03 R75, R76): the context issues nothing
until the group has landed. -/
def State.landStalled (st : State) (c : Nat) : Bool :=
  let k := st.ctx c
  let conv := st.convoy c
  !k.frozen && match k.vq with
    | [] => false
    | e :: _ =>
      if !e.started then !(st.startWith c (firstConvoy k.vq)).1.all k.indexLanded
      else if e.op.solo then (e.soloReads ++ e.soloWrites).any fun x => !k.isLanded x.1 x.2
      else (st.dueNow c k.vstep conv).1.any fun x => match conv[x.1]? with
        | some (w, _) => (w.readsAt c x.2).any (fun y => !y.1 && !k.isLanded y.2.1 y.2.2) || st.remoteStalls c w x.2 ||
          (match w.op.dest with | some (false, r) => !k.isLanded r x.2 | _ => false)
        | none => false

/-- CONVOY_STEP of the first convoy, or the performance of a solo word (07 R167). -/
def State.vecStep? (st : State) (c : Nat) : Option State :=
  match (st.ctx c).vq with
  | [] => none
  | e :: _ =>
    if !e.started || !st.vecRuns c then none
    else if e.op.solo then
      match (st.ctx c).wait with
      | some (.flags _ _ _ _ _) => none
      | _ => if st.soloReady c e then some (st.soloStep c e) else none
    else st.convoyStep? c

/-- The sequencer of a context moves as far as it can, up to n moves. -/
def State.drain (c : Nat) : Nat → State → Out
  | 0, st => .next st
  | n + 1, st => match st.vecStart? c with
    | some (.next t) => t.drain c n
    | some o => o
    | none => match st.vecStep? c with
      | some t => t.drain c n
      | none => .next st

/-- VECTOR_WORD_START (07 R168, R172). -/
def execVectorWordStart (c : Nat) (st : State) : Out := (st.vecStart? c).getD (.next st)

/-- CONVOY_STEP (07 R173). -/
def execConvoyStep (c : Nat) (st : State) : Out := .next ((st.vecStep? c).getD st)

/-- A word of a running convoy that still needs group g of register r of context src (03 R78). -/
def VEntry.needsRemote (e : VEntry) (c src r g : Nat) : Bool :=
  src ≠ c && e.started && !(e.served.any fun v => v.ctx = src && v.reg = r && v.group = g) &&
    e.res.any fun x => match x.2 with | .reg k r' i => k = src && r' = r && i / groupElems e.w = g | _ => false

/-- REMOTE_GROUP_SERVE (03 R78): a whole group, of storage that has not failed (the start of the convoy finds that, 18 R345), once its landed bit is 1, to the first word of the convoy that needs it. -/
def execRemoteGroupServe (c src : Nat) (r : Fin 32) (g : Fin 8) (st : State) : Out :=
  let es := firstConvoy (st.ctx c).vq
  match findIdx (fun (e : VEntry) => e.needsRemote c src r.val g.val) es with
  | none => .next st
  | some j =>
    if (st.ctx src).isLanded r.val g.val && ((st.ctx src).land r.val).getLsbD g.val then
      .next (st.setWord c j fun e => { e with served := e.served ++ [⟨src, r.val, g.val, groupOf ((st.ctx src).brick r.val) g.val⟩] })
    else .next st

/-- Whether a landing's reads may be performed (05 R128): the thread's earlier counted stores are acknowledged, and the
homes know the frontiers its clock names. -/
def State.landReady (st : State) (c : Nat) (l : Landing) : Bool :=
  st.ackedBut c l.entry.wic (st.heldStores c) && ((groupSpan l.entry.w l.group).filter l.entry.on).all fun i =>
    st.entryReads c l.entry ((tget [] l.entry.locs i).map st.visible)

/-- GROUP_LAND (03 R76, 10 R245, R246): the earliest landing of a group; the bit is set by the last word that writes it. -/
def execGroupLand (c : Nat) (r : Fin 32) (g : Fin 8) (st : State) : Out :=
  let k := st.ctx c
  match findIdx (fun (l : Landing) => l.reg = r.val && l.group = g.val) k.landing with
  | none => .next st
  | some i => match k.landing[i]? with
    | none => .next st
    | some l =>
      if !st.landReady c l then .next st
      else
        let els := (groupSpan l.entry.w l.group).filter l.entry.on
        let (vals, got, st) := match l.entry.op with
          | .gathb .. => st.gather c l.entry l.got els
          | _ => let r := st.readElems c l.entry els; (r.1, l.got, r.2)
        .next (st.setCtx c fun k =>
          let old := groupOf (k.brick l.reg) l.group
          let new := l.settled (l.entry.merge l.entry.on old l.group fun i => tget 0 vals i)
          let k := k.setBrick l.reg (setGroup (k.brick l.reg) l.group new)
          let k := { k with landing := (dropAt k.landing i).map fun (m : Landing) =>
            if m.entry.icnt = l.entry.icnt then { m with got := got } else m }
          if k.landsLater (k.vq ++ k.opened) l.reg l.group then k
          else k.setLand l.reg (setBits (k.land l.reg) [l.group] true))

/-! ### Issue -/

/-- The scalar registers a vector word captures (07 R163). -/
def VOp.scalars : VOp → Fin 32 × Fin 32 × Fin 32
  | .intVs _ _ _ x | .fpVs _ _ _ x | .slup _ _ x | .sldn _ _ x | .dup _ _ x | .splat _ x | .ald _ x | .ext _ _ x
  | .setl _ x | .setb _ x | .waitv _ _ _ x => (x, 0, 0)
  | .ld _ _ x i | .st _ _ x i | .lda _ x i => (x, 0, i)
  | .ldi _ x _ | .sti _ x _ | .stia _ x _ | .gathb _ x _ _ => (x, 0, 0)
  | .mset _ a b => (a, b, 0)
  | .mget _ _ b => (0, b, 0)
  | .ins _ a x => (a, x, 0)
  | .nbset _ a b => (a, b, 0)
  | .scld _ a b => (a, b, 0)
  | _ => (0, 0, 0)

/-- The scalar and control registers a vector word reads (07 R165). -/
def VOp.srcs (op : VOp) : List Nat :=
  let (a, b, i) := op.scalars
  [a.val, b.val, i.val] ++ match op with
    | .setl .. | .setb .. => [ctlReg 3]
    | _ => (List.range 7).map ctlReg

/-- A vector word with what it captures at issue (07 R163). -/
def State.entry (st : State) (c : Bool) (s : Fin 4) (op : VOp) : VEntry :=
  let (a, b, i) := op.scalars
  { op := op, s := s, cv := c, addr := st.me.pc, q := op.queue, xa := st.rx a, xb := st.rx b, xi := st.rx i
    ctl := ⟨st.rc 0, st.rc 1, st.rc 2, st.rc 3, st.rc 4, st.rc 5, st.rc 6⟩
    icnt := st.me.icnt, clock := st.me.clock, level := st.me.sys.cpl, since := st.me.looseFrom }

/-- The first word that breaks the limits of a convoy (07 R171), after l load, a arithmetic and n store words. -/
def convoyBreak (multi : Bool) : (l a n : Nat) → List VEntry → Option VEntry
  | _, _, _, [] => none
  | l, a, n, e :: t =>
    if e.op.solo then (if multi then some e else convoyBreak multi l a n t)
    else match e.q with
      | .load => if 1 ≤ l then some e else convoyBreak multi (l + 1) a n t
      | .arith => if 2 ≤ a then some e else convoyBreak multi l (a + 1) n t
      | .store => if 1 ≤ n then some e else convoyBreak multi l a (n + 1) t

/-- The first word of a convoy at a short declared distance, with its producer (07 R166): of several producers the one
that was written last. DESIGN CHOICE: log entry 106. -/
def Ctx.shortIn (k : Ctx) : List VEntry → Option (VEntry × Shadow)
  | [] => none
  | e :: t => match k.short e.op.srcs with
    | h :: _ => some (e, h)
    | [] => k.shortIn t

/-- Words with the places of their stores (02 R33), after n counted stores; and the count after them. -/
def numberWords : Nat → List VEntry → List VEntry
  | _, [] => []
  | n, e :: t =>
    if e.op.isStore && !e.op.isLoose then { e with stores := n + 1, wic := n } :: numberWords (n + 1) t
    else { e with wic := n } :: numberWords n t
def countStores (l : List VEntry) : Nat := (l.filter fun e => e.op.isStore && !e.op.isLoose).length

/-- How many entries of a queue are in use (07 R167): one for each convoy with a word of the queue, and for the load
queue one for each word with groups still to land. -/
def entriesUsed (q : VQ) : List VEntry → Bool → Nat
  | [], _ => 0
  | e :: t, counted =>
    let mine := decide (e.q = q)
    (if mine && !counted then 1 else 0) + entriesUsed q t (e.cv && (counted || mine))
def Ctx.queueFull (k : Ctx) (q : VQ) : Bool :=
  16 ≤ entriesUsed q k.vq false + (if q = .load then ((k.landing.map (·.entry.icnt)).eraseDups).length else 0)

/-- The length that VSETL and VSETB grant, with what xd receives (09 R228); none for a zero extent. -/
def VEntry.granted (e : VEntry) : Option (Word × Word) :=
  let x := xExtent e.w
  match e.op with
  | .setl _ _ => let n := word (min e.xa.toNat (64 * x)); some (n, n)
  | .setb _ _ =>
    let lx := fldW e.xa 0 8
    let ly := fldW e.xa 8 4
    let lz := fldW e.xa 12 4
    if lx = 0 || ly = 0 || lz = 0 then none
    else
      let v := word (2 ^ 63 + min lz 8 * 2 ^ 12 + min ly 8 * 2 ^ 8 + min lx x)
      some (v, v)
  | _ => some (0, 0)

/-- What a word of a convoy does at issue besides being queued: VSETL and VSETB write their results, VLDA and GATHB
clear landed bits (09 R228, 10 R245). -/
def Ctx.atIssue (k : Ctx) (e : VEntry) : Ctx :=
  match e.op, e.granted with
  | .setl x _, some (v, r) | .setb x _, some (v, r) =>
    let k := k.result x.val r 2
    { (k.shade (ctlReg 0) k.ctrl.vl 2) with ctrl := { k.ctrl with vl := v } }
  | _, _ => k.unland e

/-- The first word of a convoy that would capture a scalar register in a failed slot (18 R345), with the register. -/
def State.badScalar (st : State) : List VEntry → Option (VEntry × Nat)
  | [] => none
  | e :: t => match st.failedScalar e.op.srcs with
    | some r => some (e, r)
    | none => st.badScalar t

/-- A convoy that has issued whole (07 R163, R171): it is checked, and its words are queued. With `prompt` the sequencer
runs on at once (log entry 3). -/
def State.issueConvoy (st : State) (s : Fin 4) (ws : List VEntry) : Out :=
  let k := st.me
  let first := ((ws.head?.map (·.addr)).getD k.pc)
  let trap := fun (code : Nat) (d : Detail) (e : Word) => Host.Outcome.next (st.trapWord st.cur code d e k.pc false)
  match convoyBreak (1 < ws.length) 0 0 0 ws with
  | some e => trap Code.convoy { d0 := first } e.addr
  | none =>
    match (if bitW (st.rc 7) 0 then k.shortIn ws else none) with
    | some (e, h) => trap Code.stallShort { d0 := h.addr, d1 := word (k.pos - h.pos) } e.addr
    | none =>
      if k.frozen then trap Code.illop { opnd := 14 } first
      else if ws.any fun e => e.granted.isNone then trap Code.illop { opnd := 1 } first
      else match st.badScalar ws with
      | some (e, r) => trap Code.eccUncorr { loc := r } e.addr
      | none =>
        let full := [VQ.load, VQ.arith, VQ.store].filter fun q => k.queueFull q && ws.any fun e => e.q = q
        if full ≠ [] then .next (st.block s (.queue full))
      else
        let t := st.setMe fun k => { ((ws.foldl Ctx.atIssue k).passBy (1 + s.val)) with
          pc := k.pc + 4
          opened := []
          vq := k.vq ++ numberWords k.wic ws
          wic := k.wic + countStores ws }
        if t.prompt then t.drain t.cur 64 else .next t

/-- A vector word issues (07 R163): with C = 1 it joins the convoy that its last word closes. A word waits for the VL that
a queued VCOMP writes (09 R223). -/
def State.vec (st : State) (c : Bool) (s : Fin 4) (op : VOp) : Out :=
  if st.me.vlPending then .next (st.block s .vl)
  else
    let e := st.entry c s op
    if c then
      .next (st.setMe fun k => { k with opened := k.opened ++ [e], pc := k.pc + 4, icnt := k.icnt + 1, wait := none, waited := 0 })
    else st.issueConvoy s (st.me.opened ++ [e])

end Sys2Proof.Machine
end

