-- ==== Sys2Proof/Machine/Home.lean ====
section
/-! DEFINITION. Home: the events of memory: writes applied at their homes and acknowledged, frontiers broadcast, loose
writes applied (05 R116, R117, R119, R122, R123, 17 R324). -/

namespace Sys2Proof.Machine

/-- Whether part p of write i, before it `earlier` parts of the same write, comes next among the writes of its thread to
its bytes (05 R120, 07 R170, 10 R241); the elements of VSTIA come in any order (R244). -/
def State.inOrder (st : State) (i : Nat) (w : Write) (earlier : List WPart) (p : WPart) : Bool :=
  let pas := p.locs.map st.visible
  let meets := fun (q : WPart) => q.locs.any fun l => st.visible l ∈ pas
  ((st.writes.take i).all fun v => v.ctx ≠ w.ctx || !v.parts.any meets) &&
    (p.rmw.isSome || !earlier.any meets) && (noCtx ≤ w.ctx || !st.readFirst w.ctx w.id pas)

/-- What is left of an access whose part p has been applied goes to the same backing (05 R134). -/
def State.stay (st : State) (p q : WPart) : WPart :=
  if q.elem = p.elem then { q with locs := q.locs.map fun l => .phys (st.visible l) } else q

/-- WRITE_APPLY (05 R119): a part of a numbered write is applied at its home, in one step. -/
def execWriteApply (i part : Nat) (st : State) : Out :=
  match st.writes[i]? with
  | none => .next st
  | some w => match w.parts[part]? with
    | none => .next st
    | some p =>
      let pas := p.locs.map st.visible
      if !st.applicable w pas || st.stoppedAhead w.ctx (some w.die.val) w.clock pas || !st.inOrder i w (w.parts.take part) p then .next st
      else
        let st := st.applyPart w p
        let st := { st with writes := mapAt (fun w => { w with parts := (dropAt w.parts part).map (st.stay p) }) st.writes i }
        .next (if w.growing then st.advanceFrontier w.die.val else st)

/-- WRITE_ACKNOWLEDGE (05 R117, R119): a write wholly applied is acknowledged; WDC steps, and the die recomputes its
frontier. For a write of the host its completion is sent (19 R351). -/
def execWriteAcknowledge (i : Nat) (st : State) : Out :=
  match st.writes[i]? with
  | none => .next st
  | some w =>
    if w.parts ≠ [] || w.growing then .next st
    else
      let st := { st with writes := dropAt st.writes i }
      let st := if w.ctx < noCtx then
          -- no register of a core that has stopped changes (19 R355)
          (if (st.core (coreOf w.ctx)).stopped then st else st.setCtx w.ctx fun k => { k with wdc := k.wdc + 1 })
        else if w.ctx = noCtx then st.emit 32 (.completion (w.id - 1) 0 []) else st
      .next (st.advanceFrontier w.die.val)

/-- Writes of other modules that every die has within its frontiers are acknowledged (05 R137). -/
def State.ackFabric (st : State) : State :=
  let known := fun (x : Nat × Clock) => [0, 1, 2, 3].all fun d => x.2.le (st.knownAt d)
  (st.fabric.filter known).foldl (fun t x => t.emit (16 + x.1) (.fabric x.1 0 [])) { st with fabric := st.fabric.filter fun x => !known x }

/-- FRONTIER_RECEIVE (05 R119): die d learns die e's frontier, as die e recomputes it, over
the link between them (01 R17). -/
def execFrontierReceive (d e : Fin 4) (st : State) : Out :=
  let st := st.advanceFrontier e.val
  if d ≠ e && (tget {} st.links (dieLink d.val e.val)).failed then .next st else
  let k := st.knownAt d.val
  let f := (st.knownAt e.val).at e.val
  .next (if k.at e.val < f then { st with known := tput st.known d.val (k.set e.val f) } else st).ackFabric

/-- LOOSE_WRITE_APPLY (05 R116): in program order with the thread's own loose accesses to the same bytes. -/
def execLooseWriteApply (c i : Nat) (st : State) : Out :=
  let k := st.ctx c
  match k.loose[i]? with
  | none => .next st
  | some l =>
    let pas := l.part.locs.map st.visible
    let meets := fun (q : Loose) => q.part.locs.any fun x => st.visible x ∈ pas
    let readsFirst := k.vq.any fun e =>
      e.op.isLoose && !e.op.isStore && e.icnt < l.icnt && !(e.started && e.finished) && st.entryTouches c e (· ∈ pas)
    if (k.loose.take i).any meets || readsFirst then .next st
    else
      let (bs, _, _) := l.part.leaves (pas.map fun pa => (st.last pa).val)
      let st := st.applyBytes pas bs (Fin.ofNat 4 (dieOf (coreOf c))) 0 {} (.loose c)
      .next (st.setCtx c fun k => { k with
        loose := (dropAt k.loose i).map fun q => if q.icnt = l.icnt then { q with part := st.stay l.part q.part } else q
        looseSeen := pas.foldl (fun t pa => tput t pa st.time) k.looseSeen
        -- the thread sees it before what follows a FENCE (05 R127)
        seen := if k.fencedAfter l.icnt.toNat then pas.foldl (fun t pa => tput t pa st.time) k.seen else k.seen })

end Sys2Proof.Machine
end

