-- ==== Sys2Proof/Machine/Engine.lean ====
section
/-! DEFINITION. Engine: issue of the engine words, majors 0x30 to 0x33 (10 R249, 02 R38 to R45), with the checks of each
(R252 to R270) and the chunks they clear (R253). -/

namespace Sys2Proof.Machine

/-! ### Chunks (10 R253) -/

/-- The pieces of [a, a + n), whose first operand offset is `base`, that lie in one 512-byte block each: an address and
the last operand offset. -/
def pieces (a n base : Nat) : List (Nat × Nat) :=
  if n = 0 then [] else
  (span (a / 512) ((a + n - 1) / 512 - a / 512 + 1)).map fun b => (max a (512 * b), base + (min (a + n) (512 * b + 512) - a) - 1)

/-- Chunks of an operand range reached by translation, as a key and the last operand offset in it; none when some
address does not translate. -/
def State.chunkKeys (st : State) (core p : Nat) (lvl : Level) : List (Nat × Nat) → Option (List (Nat × Nat))
  | [] => some []
  | (a, off) :: t => match st.chunkKeys core p lvl t, st.translate core p lvl .write false a with
    | some l, .ok (.phys pa) =>
      if region pa = .window && windowOff pa < scratchBytes then some ((6144 * windowCore pa + windowOff pa / 512, off) :: l) else some l
    | some l, .ok _ | some l, .remote _ _ | some l, .moving => some l
    | _, _ => none

/-- Chunks of ranges of the core's own scratchpad, given by offset, length and step. -/
def scratchKeys (core : Nat) (l : List (Nat × Nat × Nat)) : List (Nat × Nat) :=
  l.flatMap fun (a, n, step) =>
    ((pieces a n 0).filter fun x => x.1 < scratchBytes).map fun x => (6144 * core + x.1 / 512, step)

/-- The chunks an operation of a core will write (10 R253), each with a step that writes to it; none when a destination
does not translate. -/
def State.opChunks (st : State) (core : Nat) (o : EngOp) : Option (List (Nat × Nat)) :=
  match o.kind with
  | .copy | .copyf | .copym =>
    let l := (List.range o.nrows).flatMap fun r => pieces (o.dstAt (r * o.rb)).toNat o.rb (r * o.rb)
    (st.chunkKeys core o.part o.level l).map fun k => k.map fun x => (x.1, x.2 / 512 + 1)
  | .grows => some (scratchKeys core ((List.range o.growRows.length).filterMap fun k =>
      if (o.dstAt (k * o.rb)).toNat < scratchBytes then some ((o.dstAt (k * o.rb)).toNat, o.rb, k + 1) else none))
  | .mrd => some (if o.mrdBad.isSome then [] else
      scratchKeys core ((List.range (mshM o.msh)).map fun i => (o.mrdAt i, o.mrdRow, i + 1)))
  | _ => some []

/-- Chunk-map bits cleared; or set by an operation (05 R132). -/
def State.putChunks (st : State) (keys : List Nat) (by_ : Option Tag) : State :=
  keys.foldl (fun t k => t.setCore (k / 6144) fun c =>
    let bit : BitVec 6144 := BitVec.ofNat 6144 (2 ^ (k % 6144))
    match by_ with
    | some g => { c with chunks := c.chunks ||| bit, setters := tput c.setters (k % 6144) g }
    | none => { c with chunks := c.chunks &&& ~~~bit }) st

/-! ### Issue -/

/-- FREE slots of a core, ascending. -/
def State.freeSlots (st : State) (core : Nat) : List Nat := (List.range 64).filter fun i => (st.slot core i).st = .free

/-- Whether only the completion of the issuing context's launch could free a slot (02 R44). -/
def State.slotsStuck (st : State) (core : Nat) : Bool :=
  (List.range 64).all fun i => let t := st.slot core i
    (t.detached || t.st = .orphaned) && t.op.lid = st.myLid && t.op.part = st.myPart

/-- The next generation of a slot (02 R39). -/
def nextGen (g : Nat) : Nat := if 0xFFFFFF ≤ g then 1 else g + 1

/-- The number of the issuing thread; 0 is the firmware thread's. -/
def State.myUid (st : State) : Nat := match st.me.thread with | some t => t.uid | none => 0

/-- An engine word that has passed its checks takes a slot and writes its token (10 R249, 02 R41, R44). A slot is taken
from those that are FREE. -/
def State.newOp (st : State) (s : Fin 4) (t : Fin 32) (pred : Option Word) (o : EngOp) : Out :=
  let core := coreOf st.cur
  let free := st.freeSlots core
  if st.fenced then .next (st.block s .retry)
  else if free = [] then
    (if st.slotsStuck core then .next (st.trap Code.tokenFull { d0 := word st.myLid }) else .next (st.block s .slot))
  else
    let i := free.getD (Config.pick st.tick (2 * 32768) free.length) 0
    let gen := nextGen (st.slot core i).gen
    let pri := fldW (st.rc 0x0A) 0 2
    let o := { o with
      ctx := st.cur, iaddr := st.me.pc, level := st.me.sys.cpl, part := st.myPart, lid := st.myLid, job := st.myJob
      clock := st.me.clock, bounds := st.me.bounds, wic := st.me.wic, skip := st.heldStores st.cur, pred := pred, uid := st.myUid, order := st.nextOrder }
    let o := { o with predOut := pred.bind fun v =>
      let x := st.slot (tokenCore v) (tokenSlot v)
      if x.st.terminal then some (x.st, fldW x.frec.d0 0 8, x.clock) else none }
    let o := { o with predD0 := match pred with | some v => (st.slot (tokenCore v) (tokenSlot v)).frec.d3 | none => 0 }
    let o := { o with chunks := ((st.opChunks core o).getD []).filter (fun x => x.1 / 6144 = core), leaves := st.opLeaves core o }
    let st := st.fillPages core o.part (o.ranges.flatMap fun r => pagesOf r.1 r.2)
    let st := (st.putChunks (o.chunks.map (·.1)) none).setSlot core i fun _ =>
      { st := .waiting, gen := gen, pri := pri, owner := some st.cur, eff := pri, op := o }
    .next ({ st with nextOrder := st.nextOrder + 1 }.interlocked s t (token core i gen))

/-- The common part of an engine word (10 R249): `regs` and `ctls` are the registers it reads (07 R165); the predecessor
is read first, and one that is stale at issue counts as none (02 R45). It waits for a queued VCOMP (09 R223). -/
def State.engine (st : State) (s : Fin 4) (p : Bool) (t : Fin 32) (regs ctls : List Nat) (f : State → Option Word → Out) : Out :=
  st.checked ((if p then [t.val] else []) ++ regs ++ ctls.map ctlReg) fun st =>
    let v := st.rx t
    if st.me.vlPending then .next (st.block s .vl)
    else if !p then f st none
    else if st.badToken v then .next (st.illop 0)
    else f st (if st.stale (tokenCore v) (tokenSlot v) (tokenGen v) then none else some v)

/-- Whether a brick or mask an engine word reads may still be written (10 R249). -/
def Ctx.writing (k : Ctx) : Bool := !k.frozen && (k.vq ≠ [] || k.landing ≠ [])

/-- The mask that VM names for a word, if it names one (03 R65). -/
def vmMasks (vm : Word) : List Nat := if bitW vm 3 then [fldW vm 0 3] else []

/-- An engine word that reads bricks and masks (10 R249), in program order, once no earlier word has still to write one; one that
lies in a failed slot traps (18 R345), with the register and the group. -/
def State.takes (st : State) (s : Fin 4) (bricks masks : List Nat) (f : State → Out) : Out :=
  let bad := st.badCells.find? fun x => x.2.1 = st.cur && ((x.1 = 1 && x.2.2.1 ∈ bricks) || (x.1 = 2 && x.2.2.1 ∈ masks))
  if st.me.writing then .next (st.block s .bricks)
  else match bad with
    | some x => .next (st.trap Code.eccUncorr { loc := x.2.2.1, step := x.2.2.2 })
    | none => f st

/-- Whether a queued ALD has still to load its table (09 R234). -/
def Ctx.loadingTable (k : Ctx) : Bool := !k.frozen && k.vq.any fun e => match e.op with | .ald .. => true | _ => false

/-- An operation with the control registers a word captures. -/
def State.capture (st : State) (kind : OpKind) (xa xb : Word) : EngOp :=
  { kind := kind, xa := xa, xb := xb, csh := st.rc 0x12, cst := st.rc 0x13, msh := st.rc 0x10, mft := st.rc 0x11
    ctm := st.rc 0x14, ctl := ⟨st.rc 0, st.rc 1, st.rc 2, st.rc 3, st.rc 4, st.rc 5, st.rc 6⟩ }

/-- The odd partner of a pair (07 R178). -/
def partner (a : Fin 32) : Fin 32 := Fin.ofNat 32 (a.val + 1)

/-- Whether a copy has too many steps (10 R252). -/
def EngOp.tooLong (o : EngOp) : Bool := 2 ^ 41 - 512 < o.nrows * o.rb

/-- Whether the array refuses a combination of formats (10 R258). -/
def badFormats (a b c : Fmt) : Bool :=
  let small := fun (t : Fmt) => t.isNarrow || t = .bf16 || t = .f16
  let int := fun (t : Fmt) => t = .i8 || t = .n8 || t = .i16 || t = .n16
  !((small a && small b && c = .f32) || (a = .f32 && b = .f32 && c = .f32) || (a = .f64 && b = .f64 && c = .f64) ||
    (int a && int b && c = .i32))

/-- Whether a cell cannot hold an element of the captured algebra (10 R258, R264). -/
def badCell (n : Nat) (c : Fmt) : Bool := n = 0 || 8 < n * (if c = .f64 then 2 else 1)

/-- The control register that refuses a matrix command (10 R258, R260). -/
def EngOp.mmaRefused (o : EngOp) : Option Nat :=
  if mshSp o.msh != o.sparse || (o.sparse && 4096 < mshK o.msh) then some 0x10
  else if badFormats (mftA o.mft) (mftB o.mft) (mftC o.mft) || badCell o.dim (mftC o.mft) then some 0x11
  else none

/-- The table and the K-mask a matrix command captures (10 R260). -/
def State.withMatrix (st : State) (o : EngOp) : EngOp :=
  { o with table := st.me.table (mftAlg o.mft), mask := st.me.mask (mshKm o.msh) }

/-- COPY (10 R252). -/
def execCopy (s : Fin 4) (p : Bool) (t a b : Fin 32) (st : State) : Out :=
  st.engine s p t [a.val, b.val] [0x12, 0x13, 0x0A] fun st pred =>
    let o := st.capture .copy (st.rx a) (st.rx b)
    if o.tooLong then .next (st.illopCtl 0x12) else st.newOp s t pred o

/-- COPYF (10 R254). -/
def execCopyf (s : Fin 4) (p : Bool) (t a b : Fin 32) (st : State) : Out :=
  st.engine s p t [a.val, (partner a).val, b.val, (partner b).val] [0x12, 0x13, 0x0A] fun st pred =>
    let o := { st.capture .copyf (st.rx a) (st.rx b) with xa1 := st.rx (partner a), xb1 := st.rx (partner b) }
    if o.tooLong then .next (st.illopCtl 0x12)
    else if o.xa1.toNat % 8 ≠ 0 then .next (st.trap Code.align { va := o.xa1 })
    else st.newOp s t pred o

/-- COPYM (10 R255). -/
def execCopym (s : Fin 4) (p : Bool) (t a b : Fin 32) (st : State) : Out :=
  st.engine s p t [a.val, (partner a).val, b.val] [0x12, 0x13, 0x10, 0x11, 0x03, 0x0A] fun st pred =>
    let o := { st.capture .copym (st.rx a) (st.rx b) with xa1 := st.rx (partner a) }
    if st.me.loadingTable then .next (st.block s .ald)
    else
      let o := st.withMatrix o
      if o.tooLong then .next (st.illopCtl 0x12)
      else if fldW o.xb 36 28 ≠ 0 then .next (st.illop 2)
      else match o.mmaRefused with
        | some r => .next (st.illopCtl r)
        | none => if o.sparse then st.takes s [] [mshKm o.msh] fun st => st.newOp s t pred (st.withMatrix o) else st.newOp s t pred o

/-- GROWS (10 R256). -/
def execGrows (s : Fin 4) (p : Bool) (t a b : Fin 32) (st : State) : Out :=
  st.engine s p t [a.val, (partner a).val] [0x12, 0x13, 0x00, 0x01, 0x03, 0x0A] fun st pred =>
    let o := { st.capture .grows (st.rx a) 0 with xa1 := st.rx (partner a) }
    let f := fmtOf o.ctl.vt
    if st.me.frozen then .next (st.illopCtl 0)
    else if !(f = .i32 || f = .n32 || f = .i64 || f = .n64) then .next (st.illopCtl 3)
    else if !vlFits f.width o.ctl.vl then .next (st.illopCtl 0)
    else st.takes s [b.val] (vmMasks o.ctl.vm) fun st =>
      st.newOp s t pred { o with brickB := st.me.brick b.val, mask := st.me.mask (fldW o.ctl.vm 0 3) }

/-- PUBLISH (10 R257). -/
def execPublish (s : Fin 4) (p : Bool) (t a : Fin 32) (st : State) : Out :=
  st.engine s p t [a.val] [0x0A] fun st pred =>
    let v := st.rx a
    if 255 < v.toNat || !thas (st.part st.myPart).bufs v.toNat then .next (st.illop 1)
    else st.newOp s t pred (st.capture .publish v 0)

/-- MMA and MMAS (10 R260). -/
def State.mma (st : State) (s : Fin 4) (p : Bool) (t a b : Fin 32) (kind : OpKind) : Out :=
  st.engine s p t [a.val, b.val] [0x10, 0x11, 0x03, 0x0A] fun st pred =>
    let o := st.capture kind (st.rx a) (st.rx b)
    if st.me.loadingTable then .next (st.block s .ald)
    else
      let o := st.withMatrix o
      if fldW o.xa 22 42 ≠ 0 then .next (st.illop 1)
      else if fldW o.xb 13 51 ≠ 0 then .next (st.illop 2)
      else match o.mmaRefused with
        | some r => .next (st.illopCtl r)
        | none => if o.sparse then st.takes s [] [mshKm o.msh] fun st => st.newOp s t pred (st.withMatrix o) else st.newOp s t pred o

/-- MMA (10 R260). -/
def execMma (s : Fin 4) (p : Bool) (t a b : Fin 32) (st : State) : Out := st.mma s p t a b .mma

/-- MMAS (10 R260, R261). -/
def execMmas (s : Fin 4) (p : Bool) (t a b : Fin 32) (st : State) : Out := st.mma s p t a b .mmas

/-- MCLR (10 R264). -/
def execMclr (s : Fin 4) (p : Bool) (t : Fin 32) (st : State) : Out :=
  st.engine s p t [] [0x0A] fun st pred => st.newOp s t pred (st.capture .mclr 0 0)

/-- MRD (10 R264). -/
def execMrd (s : Fin 4) (p : Bool) (t a : Fin 32) (st : State) : Out :=
  st.engine s p t [a.val] [0x10, 0x11, 0x0A] fun st pred =>
    let o := st.withMatrix (st.capture .mrd (st.rx a) 0)
    let c := mftC o.mft
    if fldW o.xa 22 42 ≠ 0 then .next (st.illop 1)
    else if !(c = .f32 || c = .f64 || c = .i32) || badCell o.dim c then .next (st.illopCtl 0x11)
    else st.newOp s t pred o

/-- The data collectives (10 R267). -/
def State.collective (st : State) (s : Fin 4) (p : Bool) (t a b : Fin 32) (kind : OpKind) : Out :=
  st.engine s p t [a.val, b.val] [0x14, 0x12, 0x03, 0x0A] fun st pred =>
    let o := st.capture kind (st.rx a) (st.rx b)
    let w := (fmtOf o.ctl.vt).width
    if w < 8 || fldW o.ctl.vt 12 3 = 5 then .next (st.illopCtl 3)
    else if o.rb % (w / 8) ≠ 0 then .next (st.illopCtl 0x12)
    else st.newOp s t pred o

/-- CRED.SUM (10 R267). -/
def execCredSum (s : Fin 4) (p : Bool) (t a b : Fin 32) (st : State) : Out := st.collective s p t a b (.cred .sum)
/-- CRED.MAX (10 R267). -/
def execCredMax (s : Fin 4) (p : Bool) (t a b : Fin 32) (st : State) : Out := st.collective s p t a b (.cred .max)
/-- CRED.MIN (10 R267). -/
def execCredMin (s : Fin 4) (p : Bool) (t a b : Fin 32) (st : State) : Out := st.collective s p t a b (.cred .min)
/-- CRED.AND (10 R267). -/
def execCredAnd (s : Fin 4) (p : Bool) (t a b : Fin 32) (st : State) : Out := st.collective s p t a b (.cred .and)
/-- CRED.OR (10 R267). -/
def execCredOr (s : Fin 4) (p : Bool) (t a b : Fin 32) (st : State) : Out := st.collective s p t a b (.cred .or)
/-- CRED.XOR (10 R267). -/
def execCredXor (s : Fin 4) (p : Bool) (t a b : Fin 32) (st : State) : Out := st.collective s p t a b (.cred .xor)
/-- CGAT (10 R267). -/
def execCgat (s : Fin 4) (p : Bool) (t a b : Fin 32) (st : State) : Out := st.collective s p t a b .cgat
/-- CBC (10 R267). -/
def execCbc (s : Fin 4) (p : Bool) (t a b : Fin 32) (st : State) : Out := st.collective s p t a b .cbc

/-- CBAR (10 R268). -/
def execCbar (s : Fin 4) (p : Bool) (t : Fin 32) (st : State) : Out :=
  st.engine s p t [] [0x14, 0x0A] fun st pred => st.newOp s t pred (st.capture .cbar 0 0)

/-- TRAIN (10 R269). -/
def execTrain (s : Fin 4) (p : Bool) (t a b : Fin 32) (st : State) : Out :=
  st.engine s p t [] [0x14, 0x00, 0x01, 0x03, 0x0A] fun st pred =>
    let o := st.capture .train 0 0
    let w := (fmtOf o.ctl.vt).width
    if st.me.frozen then .next (st.illopCtl 0)
    else if w < 8 then .next (st.illopCtl 3)
    else if !vlFits w o.ctl.vl then .next (st.illopCtl 0)
    else st.takes s [a.val, b.val] (vmMasks o.ctl.vm) fun st =>
      let o := { o with brickA := st.me.brick a.val, brickB := st.me.brick b.val, mask := st.me.mask (fldW o.ctl.vm 0 3) }
      if o.actives.any (256 ≤ ·) then .next (st.illopCtl 0) else st.newOp s t pred o

/-- MIGR.OUT and MIGR.IN (10 R270). -/
def State.migr (st : State) (s : Fin 4) (p : Bool) (t a b : Fin 32) (kind : OpKind) : Out :=
  st.engine s p t [a.val, b.val] [0x0A] fun st pred =>
    let o := { st.capture kind (st.rx a) (st.rx b) with xa1 := st.rx a }
    if fldW o.xb 56 8 ≠ 0 then .next (st.illop 2)
    else if o.xa.toNat % 65536 ≠ 0 then .next (st.illop 1)
    else st.newOp s t pred o

/-- MIGR.OUT (10 R270). -/
def execMigrOut (s : Fin 4) (p : Bool) (t a b : Fin 32) (st : State) : Out := st.migr s p t a b .migrOut
/-- MIGR.IN (10 R270). -/
def execMigrIn (s : Fin 4) (p : Bool) (t a b : Fin 32) (st : State) : Out := st.migr s p t a b .migrIn

end Sys2Proof.Machine
end

