-- ==== Sys2Proof/Machine/EngineRun.lean ====
section
/-! DEFINITION. EngineRun: the events of the copy engine and the matrix array: starting an operation (02 R45, 10 R263), a
failed predecessor, and the steps of the copies, GROWS, PUBLISH and the array (R252 to R264). -/

namespace Sys2Proof.Machine

/-! ### Slots as the engines see them -/

/-- The state of an operation as its engine sees it: an orphaned one goes on as it was (02 R41). -/
def Slot.phase (t : Slot) : SlotState := if t.st = .orphaned then t.left else t.st
/-- An operation is accepted by its engine. -/
def Slot.run (t : Slot) : Slot := if t.st = .orphaned then { t with left := .running } else { t with st := .running }

/-- The captured operation changed by f. -/
def State.setOp (st : State) (core slot : Nat) (f : EngOp → EngOp) : State := st.setSlot core slot fun t => { t with op := f t.op }

/-- Whether the operations of a partition may step, or start: in RUN (19 R356, R360), not parked, nor being parked when they have not
started (18 R343), and not stopped by an error (R345). -/
def State.opsRun (st : State) (p : Nat) (starting : Bool) : Bool :=
  let q := st.part p
  st.woad.boot = .run && !q.parked && !(starting && q.parking) && !q.errStop

/-- Whether a later part of a running operation may begin: until the count of a park has ended (18 R343). -/
def State.partsRun (st : State) (p : Nat) : Bool := st.opsRun p false && !((st.part p).parking && (st.part p).drained)

/-- The slot of member m of a collective, on this module (10 R265). -/
def State.partnerSlot (st : State) (core slot m : Nat) : Option (Nat × Nat) :=
  let o := (st.slot core slot).op
  if m = o.teamSelf then some (core, slot)
  else ((st.coresOf o.part).flatMap fun c => ((st.core c).slots.filter fun x =>
    x.2.st ≠ .free && x.2.op.matches o && x.2.op.teamSelf = m && (x.2.phase = .running || x.2.st.terminal)).map fun x => (c, x.1)).head?

/-- The members of a collective on this module, by core and slot. -/
def State.localMembers (st : State) (core slot : Nat) : List (Nat × Nat) :=
  (List.range (st.slot core slot).op.teamCount).filterMap fun m => st.partnerSlot core slot m

/-- The last step of a collective that one of its members on this module has begun. -/
def State.teamBegun (st : State) (core slot : Nat) : Nat :=
  (st.localMembers core slot).foldl (fun n x => max n ((st.slot x.1 x.2).op.rows.foldl max 0)) 0

/-- Whether an operation stands at a boundary at which a drain may stop it (18 R343): of no step is a part written, and no other member
of a collective needs its next 4 KiB. -/
def State.atBoundary (st : State) (core slot : Nat) : Bool :=
  let t := st.slot core slot
  match t.op.kind with
  | .migrOut | .migrIn => t.op.page.isNone && !t.op.started
  | .train => t.op.sent = [] && t.op.dests.all fun x => x.1 ∉ t.op.rows || t.op.acked.contains x.2
  | .publish | .mclr => t.phase ≠ .running
  | .cbar => !t.op.met
  | .cred _ | .cgat | .cbc => st.teamBegun core slot ≤ t.prog && t.op.held = [] && t.op.unacked = 0
  | _ => t.op.held = [] && t.op.unacked = 0

/-- Whether an operation may make a move of a step: once the count of a park has ended, only to finish the step in progress (18
R343). -/
def State.opSteps (st : State) (core slot : Nat) : Bool :=
  let p := (st.slot core slot).op.part
  st.opsRun p false && (st.partsRun p || !st.atBoundary core slot)

/-- The unit of an operation at a step: the matrix part of COPYM is the array's (18 R333). -/
def EngOp.unitAt (o : EngOp) (step : Nat) : Nat := if o.kind = .copym && o.copySteps < step then 3 else o.kind.unit

/-- An operation ends FAULTED (02 R41, 10 R251, 18 R331). -/
def State.faultOp (st : State) (core slot code opnd loc step : Nat) (va d1 : Word) : State :=
  let t := st.slot core slot
  let unit := t.op.unitAt step
  let d0 := if code = Code.eccUncorr then word unit else if code = Code.link then va else if code = 0 then 0 else token core slot t.gen
  let (r, st) := st.record t.op.ctx unit code
    { kind := t.op.kind.code, opnd := opnd, loc := loc, step := step, va := if code = Code.link then 0 else va, d0 := d0, d1 := d1 } t.op.iaddr
  ((st.voidBuf t.op).dropPage t.op).endOp core slot .faulted (some r)

/-- Step n of an operation is complete (10 R250); with the last one it is DONE. -/
def State.stepDone (st : State) (core slot n total : Nat) : State :=
  let st := st.setSlot core slot fun t => { t with prog := n, op := { t.op with kept := [] } }
  if total ≤ n then st.endOp core slot .done none else st

/-! ### The memory an engine reaches -/

/-- The fabric port that another module is reached by, when it is not UP (18 R347, 19 R352). -/
def State.brokenPort (st : State) (mod : Nat) : Option Nat :=
  let n := 16 + (tget 0 st.routes mod).toNat
  let l := tget {} st.links n
  if l.failed || !l.up then some n else none

/-- An address of an operation, at the level it captured (10 R249, R252), by the translations of its step (17 R321). -/
def State.reach (st : State) (core : Nat) (o : EngOp) (kind : Kind) (va : Word) : Reach :=
  match st.translateBy o.kept core o.part o.level kind false va.toNat with
  | .ok (.phys pa) => if region pa = .control then .bad 0x21 else .here (.phys pa)
  | .ok (.buf p i off) =>
    if (kind = .write || kind = .atomic) && (tget ⟨0, 0, 0, 0, false, false⟩ (st.part p).bufs i).void then .bad 0x21 else .here (.buf p i off)
  | .remote m pa => match st.brokenPort m with | some n => .broken n | none => .there m pa
  | .absent => .bad 0x20
  | .moving => .later
  | .failed c d => if c = Code.link then .broken d else .bad c
  | _ => .bad 0x21

/-- A fault that an access of an operation meets: its code, and what its record names: the address, or the link. -/
abbrev Bad := Nat × Word

/-- The fault of one byte, reached for a read or a write (10 R252, 18 R345, R347). -/
def State.badByte (st : State) (core : Nat) (va : Word) (write : Bool) : Reach → Option Bad
  | .bad c => some (c, va)
  | .broken n => some (Code.link, word n)
  | .there _ _ | .later => none
  | .here l =>
    let pa := if write then st.hidden l else st.visible l
    match st.brokenLink core [pa] with
    | some n => some (Code.link, word n)
    | none => if !write && st.unreadable pa then some (Code.eccUncorr, va) else none

/-- The version an operation reads of a byte (05 R120, R128): one that the clock and the bounds of its thread at its issue allow;
and for the matrix part of a COPYM
nothing older than what its copy has written (10 R255), which `me` marks. -/
def State.opRead (st : State) (o : EngOp) (me : Option Tag) (salt pa : Nat) : Ver :=
  let floor := ((tget [] st.hist pa).filter fun v => me = some v.tag).foldl (fun m v => max m v.time) (st.floorWith (coreOf o.ctx) o.bounds o.clock pa)
  st.readVer pa floor salt

/-- A byte of memory as an operation reads it. -/
def State.readReach (st : State) (o : EngOp) (salt : Nat) : Reach → Byte
  | .here l => (st.opRead o none salt (st.visible l)).val
  | .there m pa => Config.remoteByte st.tick m pa
  | _ => 0

/-- Whether the homes of what an operation reads know the frontiers its clock names (05 R120), and none of it lies in a page that is in
a move (17 R271). -/
def State.reachServable (st : State) (o : EngOp) (rs : List Reach) : Bool :=
  rs.all fun r => match r with | .here l => st.servable o.clock [st.visible l] | .later => false | _ => true

/-- The translations of an operation's step with those of some addresses more (17 R321). -/
def State.keptFor (st : State) (core : Nat) (o : EngOp) (vas : List Word) : List Tlb :=
  ((vas.map (·.toNat / 65536)).eraseDups).foldl (fun l a => match st.leafFor l core o.part (a * 65536) with
    | .inl t => if t ∈ l then l else l ++ [t]
    | .inr _ => l) o.kept

/-- The core keeps the translations that a step has made (17 R320), and so does the step (R321); the lines it has rebuilt are reported
(R325). -/
def State.stepRead (st : State) (core slot : Nat) (vas : List Word) (rs : List Reach) : State :=
  let o := (st.slot core slot).op
  ((st.fillPages core o.part (vas.map (·.toNat))).rebuildFor core (rs.filterMap fun r => match r with | .here l => some (st.visible l) | _ => none)).setOp core slot
    fun o => { o with kept := st.keptFor core o vas }

/-! ### Writing -/

/-- A list worked through in an order that is not fixed (05 R130). -/
def State.anyOrder {α : Type} (f : State → α → State) (salt : Nat) : Nat → List α → State → State
  | 0, _, st => st
  | n + 1, l, st =>
    let i := Config.pick st.tick (2 * (salt + n)) l.length
    match l[i]? with
    | none => st
    | some a => State.anyOrder f salt n (dropAt l i) (f st a)

/-- The bytes of a step in the aligned 8-byte units that lie in them whole, and single bytes (05 R130). Where a step writes an address
more than once, which value stays is free. -/
def State.units (st : State) (l : List Xfer) : List (List Xfer) :=
  let at_ := ((l.map (·.addr)).eraseDups).filterMap fun a =>
    let same := l.filter (·.addr = a)
    same[Config.pick st.tick (2 * (196608 + a.toNat % 4096)) same.length]?
  ((at_.map (·.addr.toNat / 8)).eraseDups).flatMap fun k =>
    let u := (List.range 8).filterMap fun i => at_.find? (·.addr.toNat = 8 * k + i)
    if u.length = 8 then [u] else u.map ([·])

/-- One unit written for an operation at its home, with no number until it ends (05 R129, R130); to another module it is sent,
and awaits its acknowledgement (R137). -/
def State.writeUnit (core slot : Nat) (st : State) (u : List Xfer) : State :=
  let bufs := u.filterMap fun x => match x.dst with | .here (.buf _ i _) => some i | _ => none
  match (u.head?.map Xfer.dst : Option Reach) with
  | some (.there m pa) => (st.emit (st.portOf m) (.remoteWrite m pa (u.map (·.val)))).setOp core slot fun o =>
      { o with unacked := o.unacked + 1, leaves := true }
  | _ =>
    let st := st.setOp core slot fun o => { o with wrote := (o.wrote ++ bufs).eraseDups }
    st.applyBytes (u.filterMap fun x => match x.dst with | .here l => some (st.hidden l) | _ => none) (u.map (·.val)) 0 0 {}
      (.op core slot (st.slot core slot).gen)
/-- Units written in an order that is not fixed. -/
def State.writeUnits (st : State) (core slot : Nat) (us : List (List Xfer)) : State :=
  State.anyOrder (State.writeUnit core slot) 131072 us.length us st

/-- Units divided freely into those written now and those held back (02 R47, 05 R130, log entry 33). -/
def State.someUnits (st : State) (us : List (List Xfer)) : List (List Xfer) × List (List Xfer) :=
  let l := us.zip (List.range us.length)
  let now := fun (x : List Xfer × Nat) => Config.pick st.tick (2 * (2 ^ 24 + x.2)) 2 = 1
  ((l.filter now).map (·.1), (l.filter fun x => !now x).map (·.1))

/-! ### The bytes of a step -/

/-- Where an operation writes the byte of an operand offset: GROWS and MRD in the core's own scratchpad, the others through
translation (10 R252, R256, R264, R267). -/
def State.dstReach (st : State) (core : Nat) (o : EngOp) (off : Nat) : Reach :=
  let a := o.dstAt off
  match o.kind with
  | .grows | .mrd => if a.toNat < scratchBytes then .here (.phys (windowAddr core a.toNat)) else .bad 0x21
  | _ => st.reach core o .write a

/-- One accumulator of a cell of a core: 32 bits, of eight (10 R259). -/
def accLane (b : BitVec 256) (k : Nat) : Nat := fld b.toNat (32 * k) 32
/-- Component c of a cell in the format of C. -/
def cellGet (f : Fmt) (b : BitVec 256) (c : Nat) : Nat := if f = .f64 then fld b.toNat (64 * c) 64 else accLane b c
/-- A cell from its components. -/
def cellOf (f : Fmt) (l : List Nat) (old : BitVec 256) : BitVec 256 :=
  let w := if f = .f64 then 64 else 32
  BitVec.ofNat 256 ((l.zip (List.range l.length)).foldl (fun n (v, c) => n + v % 2 ^ w * 2 ^ (w * c)) 0 +
    old.toNat / 2 ^ (w * l.length) * 2 ^ (w * l.length))
/-- The number of a cell. -/
def cellNo (i j : Nat) : Nat := 128 * i + j

/-- The byte that MRD writes at an operand offset (10 R264): component c of C (i, j), at ((i·N + j)·n + c)·wC/8. -/
def State.mrdByte (st : State) (core : Nat) (o : EngOp) (off : Nat) : Byte :=
  let f := mftC o.mft
  let wb := f.width / 8
  let e := off / wb
  let cell := tget 0 (st.core core).acc (cellNo (e / o.dim / mshN o.msh) (e / o.dim % mshN o.msh))
  (leBytes wb (cellGet f cell (e % o.dim))).getD (off % wb) 0

/-- Whether an operation moves bytes that it reads in the same step. -/
def OpKind.moves : OpKind → Bool
  | .copy | .copyf | .copym | .grows => true
  | _ => false

/-- The byte of an operand offset with its destination; or the operand at fault (0 the source, 1 the destination); or nothing yet. -/
def State.xfer (st : State) (core slot salt off : Nat) : Sum Xfer (Option (Nat × Bad)) :=
  let o := (st.slot core slot).op
  let a := o.dstAt off
  let d := st.dstReach core o off
  let r := st.reach core o .read (o.srcAt off)
  match (if o.kind.moves then st.badByte core (o.srcAt off) false r else none), st.badByte core a true d with
  | some b, _ => .inr (some (0, b))
  | none, some b => .inr (some (1, b))
  | none, none =>
    if d = .later then .inr none
    else if o.kind.moves then (if st.reachServable o [r] then .inl ⟨off, st.readReach o salt r, a, d⟩ else .inr none)
    else if o.kind = .mrd then .inl ⟨off, st.mrdByte core o off, a, d⟩
    else match o.pool.find? (·.1 = off) with
      | some x => .inl ⟨off, x.2, a, d⟩
      | none => .inr none

/-- The byte of an operand offset, when it is to be had. -/
def State.xfer? (st : State) (core slot salt off : Nat) : Option Xfer :=
  match st.xfer core slot salt off with | .inl x => some x | .inr _ => none

/-- Whether a step of an operation is neither complete nor begun, after step n. -/
def EngOp.ahead? (o : EngOp) (n off : Nat) : Bool :=
  off ∉ o.ahead && if o.kind = .grows then o.stepOf off ≠ n && o.stepOf off - 1 ∉ o.rows && !thas o.held (o.stepOf off) else n < o.stepOf off

/-- What later steps write of the units that step n has a part of, and that lie whole in the destination (05 R130): such a unit is
written whole. None says that a byte of one is not to be read yet, which the step waits for. -/
def State.companions (st : State) (core slot n : Nat) (own : List Xfer) : Option (List Xfer) :=
  let o := (st.slot core slot).op
  ((own.map (·.addr.toNat / 8)).eraseDups).foldl (fun (a : Option (List Xfer)) k =>
    let lack := (List.range 8).filter fun i => own.all (·.addr.toNat ≠ 8 * k + i)
    let more := lack.map fun i => match (o.writers (word (8 * k + i))).find? (o.ahead? n) with
      | some off => some (st.xfer core slot (65536 + 512 + i) off)
      | none => none
    if !more.all (·.isSome) then a
    else if o.kind.moves && more.any fun x => match x with | some (.inr none) => true | _ => false then none
    else
      let l := more.filterMap fun x => match x with | some (.inl y) => some y | _ => none
      if l.length = lack.length then a.map (· ++ l) else a) (some [])

/-- What a step comes to: a fault at an operand offset and operand; a read that may not be served yet; a part written; or all of its
data written. -/
inductive Moved where
  | fault (off opnd : Nat) (b : Bad) (st : State)
  | later
  | part (st : State)
  | done (st : State)

/-- Step n of an operation (10 R250): its bytes are read at one time, and written whole, or a free part first. A fault leaves a free
part written (02 R47). -/
def State.moveStep (st : State) (core slot n : Nat) : Moved :=
  let o := (st.slot core slot).op
  if thas o.held n then
    .done ((st.setOp core slot fun o => { o with held := tdel o.held n }).writeUnits core slot (st.units (tget [] o.held n)))
  else
    let offs := (o.stepOffsets n).filter (· ∉ o.ahead)
    let xs := (offs.zip (List.range offs.length)).map fun x => (x.1, st.xfer core slot (65536 + x.2) x.1)
    let own := xs.filterMap fun x => match x.2 with | .inl y => some y | .inr _ => none
    let srcs := if o.kind.moves then offs.map o.srcAt else []
    let t := st.stepRead core slot (srcs ++ offs.map o.dstAt) (srcs.map fun a => st.reach core o .read a)
    match (xs.filterMap fun x => match x.2 with | .inr (some b) => some (x.1, b) | _ => none).head? with
    | some (off, k, b) => .fault off k b (t.writeUnits core slot (st.someUnits (st.units own)).1)
    | none =>
      if own.length ≠ offs.length then .later
      else
        match st.companions core slot n own with
        | none => .later
        | some more =>
          let us := st.units (own ++ more)
          let t := t.setOp core slot fun o => { o with ahead := o.ahead.filter (· ∉ o.stepOffsets n) ++ more.map (·.off) }
          let (now, rest) := st.someUnits us
          if rest ≠ [] && Config.pick st.tick (2 * 2 ^ 25) 2 = 1 then
            .part ((t.setOp core slot fun o => { o with held := tput o.held n rest.flatten }).writeUnits core slot now)
          else .done (t.writeUnits core slot us)

/-- The chunk-map bits set whose bytes a step has brought to their end (10 R253): `before` and `after` say which steps were and are
complete. -/
def State.setChunks (st : State) (core slot : Nat) (before after : Nat → Bool) : State :=
  let t := st.slot core slot
  let whole := fun (f : Nat → Bool) (k : Nat) => t.op.chunks.all fun x => x.1 ≠ k || f x.2
  st.putChunks (((t.op.chunks.map (·.1)).eraseDups).filter fun k => whole after k && !whole before k) (some (.op core slot t.gen))

/-- The data of a step is written: the step is complete, or waits for another module (05 R137). -/
def State.stepWritten (st : State) (core slot : Nat) (f : State → State) : State :=
  if (st.slot core slot).op.unacked = 0 then f (st.setOp core slot fun o => { o with awaiting := false })
  else st.setOp core slot fun o => { o with awaiting := true }

/-! ### Starting -/

/-- Whether the thread of a number has not ended: it stands on a context or in an image. -/
def State.threadAlive (st : State) (uid : Nat) : Bool :=
  if uid = 0 then st.woad.boot = .config && !(st.ctx 0).ended
  else (st.ctxs.any fun k => match k.2.thread with | some t => t.uid = uid | none => false) ||
    st.parts.any fun p => p.2.images.any fun i => i.uid = uid

/-- The commands of the matrix array. -/
def OpKind.isArray : OpKind → Bool
  | .mma | .mmas | .mclr | .mrd | .copym => true
  | _ => false

/-- Whether an operation waits for the array: a matrix command not started, or the second part of a COPYM whose copy is
complete (10 R255). -/
def Slot.wantsArray (t : Slot) : Bool :=
  match t.op.kind with
  | .mma | .mmas | .mclr | .mrd => t.phase = .waiting
  | .copym => t.phase = .running && t.op.copySteps ≤ t.prog && !t.op.started
  | _ => false
/-- Whether an operation is being performed by the array. -/
def Slot.onArray (t : Slot) : Bool :=
  match t.op.kind with
  | .mma | .mmas | .mclr | .mrd => t.phase = .running
  | .copym => t.phase = .running && t.op.started
  | _ => false

/-- Whether a slot holds an operation that has not ended. -/
def Slot.pending (t : Slot) : Bool := t.st ≠ .free && !t.st.terminal

/-- Whether the array may go to a thread (10 R263): it has no holder, or this thread holds it, or the holder has ended
with every array command it issued terminal. -/
def State.arrayFor (st : State) (core uid : Nat) : Bool :=
  match (st.core core).holder with
  | none => true
  | some (_, h) => h = uid || (!st.threadAlive h && (st.core core).slots.all fun x => !(x.2.op.uid = h && x.2.op.kind.isArray && x.2.pending))

/-- Whether the predecessor of an operation lets it start (02 R45). -/
def EngOp.predDone (o : EngOp) : Bool := o.pred.isNone || match o.predOut with | some (.done, _, _) => true | _ => false

/-- Whether the order of PUBLISH and the writers of its buffer lets an operation start (05 R134). -/
def State.publishOrder (st : State) (core : Nat) (o : EngOp) : Bool :=
  (st.coresOf o.part).all fun c => (st.core c).slots.all fun x =>
    let e := x.2.op
    !(x.2.pending && e.part = o.part && e.order < o.order &&
      if o.kind = .publish then st.writesBuf c e o.xa.toNat else e.kind = .publish && st.writesBuf core o e.xa.toNat)

/-- Whether what an operation needs to start holds, the array apart (02 R45, 05 R128, R134). -/
def State.mayStart (st : State) (core : Nat) (t : Slot) : Bool :=
  let o := t.op
  let behind := (st.core core).slots.any fun x =>
    x.2.phase = .waiting && x.2.pending && x.2.op.uid = o.uid && x.2.op.kind.unit = o.kind.unit && x.2.op.order < o.order
  let parkedBehind := (st.core core).slots.any fun x =>
    x.2.st = .parked && x.2.left = .waiting && x.2.op.uid = o.uid && x.2.op.kind.unit = o.kind.unit && x.2.op.order < o.order
  st.opsRun o.part true && o.predDone && !behind && !parkedBehind && st.ackedBut o.ctx o.wic o.skip && st.publishOrder core o

/-- Whether a waiting command of the array is one that could be taken. -/
def State.arrayReady (st : State) (core : Nat) (t : Slot) : Bool :=
  t.wantsArray && st.arrayFor core t.op.uid &&
    if t.op.kind = .copym then st.partsRun t.op.part else st.mayStart core t

/-- Whether the array takes this command next (10 R263): it is free, and the command is the first by effective priority
and then by issue order. -/
def State.arrayTakes (st : State) (core slot : Nat) : Bool :=
  let t := st.slot core slot
  let l := (st.core core).slots
  (l.all fun x => !x.2.onArray) && st.arrayReady core t &&
    l.all fun x => x.1 = slot || !st.arrayReady core x.2 || x.2.eff < t.eff || (x.2.eff = t.eff && t.op.order < x.2.op.order)

/-- The array's new holder: one of another job finds the accumulators zero (10 R263). -/
def State.takeArray (st : State) (core : Nat) (o : EngOp) : State :=
  st.setCore core fun k =>
    if k.holder = some (o.ctx, o.uid) then k
    else { k with holder := some (o.ctx, o.uid), holderJob := o.job, acc := if k.holder.isSome && k.holderJob ≠ o.job then [] else k.acc }

/-- The columns of A that K positions take (10 R259, R261). -/
def EngOp.kPrime (o : EngOp) : Nat := if o.sparse then popBits o.mask.toNat (mshK o.msh) else mshK o.msh
/-- The bytes of A, and of a column of B. -/
def EngOp.aBytes (o : EngOp) : Nat := (mshM o.msh * o.kPrime * o.dim * (mftA o.mft).width + 7) / 8
def EngOp.bBytes (o : EngOp) : Nat := (mshK o.msh * o.dim * (mftB o.mft).width + 7) / 8

/-- The operand whose range leaves its store (10 R259). -/
def EngOp.shapeBad (o : EngOp) : Option Nat :=
  if scratchBytes < o.aoff + o.aBytes then some 0 else if 8192 < o.boff + o.bBytes then some 1 else none

/-- A matrix command begins, or faults MMA_SHAPE (10 R259, R264). -/
def State.beginArray (st : State) (core slot : Nat) : State :=
  let t := st.slot core slot
  let o := t.op
  let st := st.takeArray core o
  match o.kind with
  | .mrd => match o.mrdBad with
    | some i => st.faultOp core slot 0x22 0 i 1 0 0
    | none => st
  | .mma | .mmas => match o.shapeBad with
    | some k => st.faultOp core slot 0x22 k 0xFFFF 1 0 0
    | none => st
  | .copym => match o.shapeBad with
    | some _ => st.faultOp core slot 0x22 2 0xFFFF (o.copySteps + 1) 0 0
    | none => st.setOp core slot fun o => { o with started := true }
  | _ => st

/-- Reads of n dwords of a team descriptor (10 R265): the dwords, a fault, or a read that may not be served yet. -/
inductive Team where
  | dwords (l : List Word)
  | fault (b : Bad)
  | later

/-- n dwords read for an operation from an address. -/
def State.opDwords (st : State) (core slot : Nat) (a : Word) (n : Nat) : Team :=
  let t := st.slot core slot
  let va := (List.range (8 * n)).map fun i => a + word i
  let rs := va.map fun v => st.reach core t.op .read v
  match ((va.zip rs).filterMap fun x => st.badByte core x.1 false x.2).head? with
  | some b => .fault b
  | none =>
    if !st.reachServable t.op rs then .later
    else
      let bs := (rs.zip (List.range rs.length)).map fun (r, i) => st.readReach t.op (65536 + i) r
      .dwords ((List.range n).map fun i => word (leNat ((bs.drop (8 * i)).take 8)))

/-- The whole team descriptor (10 R265). -/
def State.readTeam (st : State) (core slot : Nat) : Team :=
  let a := (st.slot core slot).op.ctm
  match st.opDwords core slot a 2 with
  | .dwords h =>
    let n := min (fldW (h.getD 0 0) 26 11) 1024
    (match st.opDwords core slot (a + 16) ((n + 3) / 4) with
      | .dwords m => .dwords (h ++ m)
      | x => x)
  | x => x

/-- The core keeps the translations by which the descriptor has been read, and the lines rebuilt for it are reported (17 R320, R325). -/
def State.teamMet (st : State) (core slot n : Nat) : State :=
  let o := (st.slot core slot).op
  let va := (List.range (8 * n)).map fun i => o.ctm + word i
  (st.stepRead core slot va (va.map fun v => st.reach core o .read v)).setOp core slot fun o => { o with kept := [] }

/-- The first place in a list that repeats an earlier entry. -/
def firstRepeat : List Nat → List Nat → Nat → Option Nat
  | _, [], _ => none
  | seen, a :: t, i => if a ∈ seen then some i else firstRepeat (a :: seen) t (i + 1)

/-- The member at which a team is refused (10 R266). Where no member is at fault, SELF stands for it. -/
def State.teamBad (st : State) (core : Nat) (o : EngOp) : Option Nat :=
  let n := o.teamCount
  let ms := (List.range n).map o.teamMember
  let outside := fun (m : Nat) => match o.teamKind with
    | 0 => !(st.coresOf o.part).contains m
    | 1 => !((st.coresOf o.part).any fun c => dieOf c = m)
    | _ => !st.gangMember m
  if o.teamKind = 3 || n = 0 || (match o.teamKind with | 0 => 160 | 1 => 4 | _ => st.gangSize) < n then some o.teamSelf
  else match firstRepeat [] ms 0, findIdx outside ms with
    | some i, _ => some i
    | none, some i => some i
    | none, none =>
      if n ≤ o.teamSelf || o.teamMember o.teamSelf ≠ st.unitOf core o.teamKind then some o.teamSelf
      else if n ≤ o.teamRoot then some o.teamRoot
      else none

/-- Whether element e of a TRAIN names this module, by its team. -/
def State.ownElem (st : State) (o : EngOp) (e : Nat) : Bool :=
  let i := fld o.brickA.toNat (64 * e + 56) 8
  i = 0xFF || o.teamMember (o.teamBase + i) = st.modNum.toNat
/-- Whether an element of a TRAIN lies in a page that is in a move (17 R271). -/
def State.trainLater (st : State) (core : Nat) (o : EngOp) : Bool :=
  o.kind = .train && o.actives.any fun e => st.ownElem o e && st.reach core o .write (word (fld o.brickA.toNat (64 * e) 56)) = .later

/-- Where the active elements of a TRAIN go (10 R269): a home die of this module, a member of the team, or another module whose page this
module's tables name (17 R319); or its first fault, by element, operand and cause. No element's page is in a move (`State.trainLater`). -/
def State.trainDests (st : State) (core : Nat) (o : EngOp) : List Nat → Sum (List (Nat × Nat)) (Nat × Nat × Bad)
  | [] => .inl []
  | e :: t =>
    let a := fld o.brickA.toNat (64 * e) 56
    let i := fld o.brickA.toNat (64 * e + 56) 8
    let n := (fmtOf o.ctl.vt).width / 8
    let own := st.ownElem o e
    let here : Sum Nat (Nat × Bad) :=
      if i ≠ 0xFF && o.teamCount ≤ o.teamBase + i then .inr (2, 0x25, 0)
      else if a % n ≠ 0 then .inr (0, 0x21, word a)
      else if !own then .inl (4 + o.teamBase + i)
      else match st.reach core o .write (word a) with
        | .here l => .inl (homeDie (st.hidden l))
        | .there m _ => .inl (2000 + m)
        | .later => .inr (0, 0x20, word a)
        | .bad c => .inr (0, c, word a)
        | .broken l => .inr (0, Code.link, word l)
    match here with
    | .inr b => .inr (e, b)
    | .inl d => match st.trainDests core o t with
      | .inl l => .inl ((e, d) :: l)
      | x => x

/-- What an operation does as it starts, once it is RUNNING (10 R250 to R269). -/
def State.begin (st : State) (core slot : Nat) : State :=
  let o := (st.slot core slot).op
  let st := match o.kind with
    | .copy | .copyf | .copym =>
      -- the chunks of other cores (10 R253)
      let more := ((st.opChunks core o).getD []).filter fun x => x.1 / 6144 ≠ core
      (st.putChunks (more.map (·.1)) none).setOp core slot fun o => { o with chunks := o.chunks ++ more }
    | .mma | .mmas | .mclr | .mrd => st.beginArray core slot
    | .train =>
      if o.teamKind ≠ 2 then st.faultOp core slot 0x25 2 (o.actives.headD 0) 1 0 0
      else match st.trainDests core o o.actives with
      | .inr (e, k, c, va) => st.faultOp core slot c k e 1 va 0
      | .inl l => st.setOp core slot fun o => { o with dests := l, leaves := l.any fun x => 4 ≤ x.2 }
    | .cred _ | .cgat | .cbc | .cbar =>
      let st := (st.joinTeam core slot).setOp core slot fun o => { o with leaves := st.opLeaves core o }
      match st.teamBad core o with
      | some m => st.faultOp core slot 0x25 2 m 1 0 0
      | none => st
    | _ => st
  let t := st.slot core slot
  if t.phase = .running && t.op.steps = 0 then st.endOp core slot .done none else st

/-- An operation is accepted by its engine (02 R41): it reads by the clock of its predecessor as well (05 R129). -/
def State.accept (st : State) (core slot : Nat) (team : List Word) : State :=
  let st := st.setSlot core slot fun t => { t.run with
    op := { t.op with team := team, clock := match t.op.predOut with | some (_, _, k) => t.op.clock.join k | none => t.op.clock } }
  st.begin core slot

/-- OP_START (02 R45, 10 R263, R265): a WAITING operation starts, or the array takes the second part of a COPYM. A descriptor that cannot
be read is a fault of operand 2 with LOC 0 (DESIGN CHOICE, log entry 99). -/
def execOpStart (core slot : Nat) (st : State) : Out :=
  let t := st.slot core slot
  if t.op.kind = .copym && t.phase = .running then
    .next (if st.arrayTakes core slot then st.beginArray core slot else st)
  else if !(t.phase = .waiting && t.pending) then .next st
  else if !(if t.op.kind.isArray && t.op.kind ≠ .copym then st.arrayTakes core slot else st.mayStart core t) then .next st
  else if t.op.kind.isColl || t.op.kind = .train then
    match st.readTeam core slot with
    | .later => .next st
    | .dwords l => .next (if st.trainLater core { t.op with team := l } then st else (st.teamMet core slot l.length).accept core slot l)
    | .fault (c, va) => .next ((st.setSlot core slot Slot.run).faultOp core slot c 2 0 1 va 0)
  else .next (st.accept core slot [])

/-- PREDECESSOR_FAULT (02 R41, R45): the record copies the code, and with that of a failed link the link (18 R330). -/
def execPredecessorFault (core slot : Nat) (st : State) : Out :=
  let t := st.slot core slot
  match t.op.predOut, t.op.pred with
  | some (ending, code, _), some tok =>
    if t.phase = .waiting && t.pending && ending ≠ .done && st.opsRun t.op.part true then
      .next (st.faultOp core slot code 15 0 0 (if code = Code.link then t.op.predD0 else 0) (if 0x20 ≤ code then tok else 0))
    else .next st
  | _, _ => .next st

/-! ### The copy family -/

/-- The flag of COPYF (10 R254, 05 R131): a release that carries the clock of the completed operation, applied where the home knows
what the clock names (R119). To another module it is sent, and the operation is DONE when it is acknowledged. LOC of a fault of the flag,
which is no operand chunk, is 0 (DESIGN CHOICE, log entry 99). -/
def State.copyFlag (st : State) (core slot : Nat) : State :=
  let t := st.slot core slot
  let n := t.op.copySteps
  let va := (List.range 8).map fun i => t.op.xa1 + word i
  let rs := va.map fun v => st.reach core t.op .write v
  let pas := rs.filterMap fun r => match r with | .here l => some (st.hidden l) | _ => none
  let clk := t.op.clock.join t.clock
  match ((va.zip rs).filterMap fun x => st.badByte core x.1 true x.2).head? with
  | some (c, a) => st.faultOp core slot c 2 0 n a 0
  | none =>
    if rs.contains .later || !st.applicableAt (dieOf core) clk pas then st else
    let st := st.fillPages core t.op.part [t.op.xa1.toNat]
    let bufs := rs.filterMap fun r => match r with | .here (.buf _ i _) => some i | _ => none
    let st := st.setOp core slot fun o => { o with wrote := (o.wrote ++ bufs).eraseDups }
    match rs.head? with
    | some (.there m pa) =>
      (st.emit (st.portOf m) (.remoteWrite m pa (leBytes 8 t.op.xb1.toNat))).setOp core slot fun o =>
        { o with unacked := o.unacked + 1, awaiting := true, leaves := true }
    | _ =>
      let st := st.stepDone core slot n n
      -- the operation's one number covers its flag (05 R129)
      let clk := (st.slot core slot).clock
      st.applyBytes pas (leBytes 8 t.op.xb1.toNat) (Fin.ofNat 4 (dieOf core)) (clk.at (dieOf core)) clk .none

/-- Whether everything a die has numbered is within its frontier (05 R119). -/
def State.frontierFull (st : State) (die : Nat) : Bool := (st.knownAt die).at die = st.issued.at die

/-- A step of a copy is complete (10 R253, R254): of the last step of a COPYF the flag is still to be written. -/
def State.copyWritten (core slot n : Nat) (st : State) : State :=
  let o := (st.slot core slot).op
  let st := st.setChunks core slot (· < n) (· ≤ n)
  if o.kind = .copyf && n = o.copySteps then st.setOp core slot fun o => { o with started := true } else st.stepDone core slot n o.steps

/-- COPY_STEP (10 R252 to R255): a step of COPY, COPYF or the copy part of COPYM. The last step of a COPYF is made in two
moves, the data and then the flag, between which a cancel may come (R254). -/
def execCopyStep (core slot : Nat) (st : State) : Out :=
  let t := st.slot core slot
  let o := t.op
  let n := t.prog + 1
  if !(o.kind = .copy || o.kind = .copyf || o.kind = .copym) || t.phase ≠ .running || o.copySteps < n || !st.opSteps core slot then .next st
  else if o.kind = .copyf && o.started then
    .next (if o.awaiting then (if o.unacked = 0 then st.stepDone core slot n n else st)
      else if st.frontierFull (dieOf core) then st.copyFlag core slot else st)
  else if o.awaiting then .next (st.stepWritten core slot (State.copyWritten core slot n))
  else match st.moveStep core slot n with
    | .later => .next st
    | .part st => .next st
    | .fault off k (c, a) st => .next (st.faultOp core slot c k (off / 512) n a 0)
    | .done st => .next (st.stepWritten core slot (State.copyWritten core slot n))

/-- Rows from the first that are all complete. -/
def leading (rows : List Nat) : Nat → Nat → Nat
  | 0, n => n
  | k + 1, n => if n ∈ rows then leading rows k (n + 1) else n

/-- GROWS_ROW (10 R256): the row of a rank, in any order but that of rows that write the same bytes; a fault waits for the
rows below it, which it does not undo. -/
def execGrowsRow (core slot row : Nat) (st : State) : Out :=
  let t := st.slot core slot
  let o := t.op
  let total := o.growRows.length
  if o.kind ≠ .grows || t.phase ≠ .running || total ≤ row || row ∈ o.rows || !st.opSteps core slot ||
      (!st.partsRun o.part && !thas o.held (row + 1)) then .next st
  else
    let at_ := fun (k : Nat) => (o.dstAt (k * o.rb)).toNat
    if (List.range row).any fun k => k ∉ o.rows && rangesMeet (at_ k) o.rb (at_ row) o.rb then .next st
    else match st.moveStep core slot (row + 1) with
    | .later => .next st
    | .part st => .next st
    | .fault _ k (c, a) t => .next (if leading o.rows total 0 = row then t.faultOp core slot c k row (row + 1) a 0 else st)
    | .done st =>
      let rows := row :: o.rows
      let st := st.setChunks core slot (fun s => s - 1 ∈ o.rows) (fun s => s - 1 ∈ rows)
      let st := st.setOp core slot fun o => { o with rows := rows }
      .next (st.stepDone core slot (leading rows total 0) total)

/-- PUBLISH_EXCHANGE (10 R257, 05 R134, R135): the exchange takes a number on the buffer's home die: where its backings lie on several
dies, the home of the first byte of backing A (DESIGN CHOICE, log entry 100). -/
def execPublishExchange (core slot : Nat) (st : State) : Out :=
  let t := st.slot core slot
  let o := t.op
  let b := o.xa.toNat
  let buf := tget ⟨0, 0, 0, 0, false, false⟩ (st.part o.part).bufs b
  if o.kind ≠ .publish || t.phase ≠ .running || !st.opSteps core slot then .next st
  else if buf.void then
    .next ((st.setPart o.part fun q => { q with bufs := tput q.bufs b { buf with void := false } }).faultOp core slot 0x21 0 b 1 0 0)
  else
    let die := homeDie buf.pa
    let n := st.issued.at die + 1
    let st := { st with issued := st.issued.set die n }.advanceFrontier die
    -- neither backing has a read copy left (05 R133, R134)
    let st := { st.setPart o.part fun q => { q with bufs := tput q.bufs b { buf with vis := !buf.vis } } with
      cuts := st.cuts ++ [(buf.pa, buf.size, st.time), (buf.pb, buf.size, st.time)] }
    .next ((st.setOp core slot fun o => { o with clock := o.clock.join (({} : Clock).set die n) }).stepDone core slot 1 1)

/-! ### The matrix array -/

/-- Positions a group of R100 holds. -/
def groupSize (a b : Fmt) : Nat :=
  match max a.width b.width with | 4 => 8 | 8 => 4 | 16 => 2 | _ => 1

/-- The K positions of block b that contribute (10 R261, R262). -/
def EngOp.contributes (o : EngOp) (k : Nat) : Bool := k < mshK o.msh && (!o.sparse || o.mask.getLsbD k)

/-- A code of width w at element n of a run of elements that begins at byte `base` (10 R237, R259): its first byte, and how
to take it from the bytes there. -/
def elemByte (w base n : Nat) : Nat := base + n * w / 8
def elemTake (w n : Nat) (bs : List Byte) : Nat := if w = 4 then leNat bs / (16 ^ (n % 2)) % 16 else leNat bs

/-- A component of an operand as the array reads it, at a window offset. -/
def State.arrayRead (st : State) (core slot w base n : Nat) : Nat :=
  let t := st.slot core slot
  let off := elemByte w base n
  elemTake w n ((span off (max 1 (w / 8))).map fun x => (st.opRead t.op (some (.op core slot t.gen)) (65536 + x) (windowAddr core x)).val)

/-- The window offset of component c of A (i, k′), as a base and an element, and that of B (k, j) (10 R259). -/
def EngOp.aElem (o : EngOp) (i k' c : Nat) : Nat × Nat := (o.aoff, (i * o.kPrime + k') * o.dim + c)
def EngOp.bElem (o : EngOp) (k j c : Nat) : Nat × Nat := (scratchBytes + 8192 * j + o.boff, k * o.dim + c)

/-- The compressed column of position k (10 R261). -/
def EngOp.column (o : EngOp) (k : Nat) : Nat := if o.sparse then popBits o.mask.toNat k else k

/-- Component r of prod(x, y) over integers (04 R108). -/
def algInt (t : BitVec 576) (r : Nat) (a b : Nat → Int) : Int :=
  let n := algDim t
  (List.range n).foldl (fun s i => (List.range n).foldl (fun (s : Int) j =>
    let e := algEntry t i j
    if e.2 ≠ r || 2 ≤ e.1 then s else if e.1 = 1 then s - a i * b j else s + a i * b j) s) 0

/-- The sum of component r over the positions of a group, exactly (04 R100, R108): `x k` and `y k` are the operands at k in
the order MFT.ORD gives. -/
def algSum (t : BitVec 576) (r : Nat) (ks : List Nat) (x y : Nat → Nat → Val) : Val :=
  (ks.foldl (fun (s : Res) k => let p := algProd t false r (x k) (y k); let q := Val.add s.v p.v false; ⟨q.v, 0⟩) ⟨.zero false, 0⟩).v

/-- Cell (i, j) after the groups of a block (04 R100, R101): `a k c` and `b k c` are the codes of the operands. -/
def EngOp.cell (o : EngOp) (groups : List (List Nat)) (a b : Nat → Nat → Nat) (old : BitVec 256) : BitVec 256 :=
  let inf := bitW o.ctl.vt 16
  let fa := mftA o.mft
  let fb := mftB o.mft
  let fc := mftC o.mft
  let r : Rnd := { rm := 0, sat := false, inf := inf, sr := 0 }
  let comps := (List.range o.dim).map fun c => groups.foldl (fun (acc : Nat) ks =>
    if fa.isInt then
      let x := fun (k : Nat) (c : Nat) => fa.intOf (a k c)
      let y := fun (k : Nat) (c : Nat) => fb.intOf (b k c)
      let s := ks.foldl (fun s k => s + (if mftOrd o.mft then algInt o.table c (y k) (x k) else algInt o.table c (x k) (y k))) 0
      wrapInt 32 ((acc : Int) + s)
    else
      let x := fun (k : Nat) (c : Nat) => fa.decode inf (a k c)
      let y := fun (k : Nat) (c : Nat) => fb.decode inf (b k c)
      let s := if mftOrd o.mft then algSum o.table c ks y x else algSum o.table c ks x y
      (fc.finish r ((fc.decode inf acc).add s false)).1) (cellGet fc old c)
  cellOf fc comps old

/-- The groups of block b of an operation, over uncompressed k, each with the positions that contribute (04 R100). -/
def EngOp.blockGroups (o : EngOp) (b : Nat) : List (List Nat) :=
  let g := groupSize (mftA o.mft) (mftB o.mft)
  let n := min 128 (mshK o.msh - 128 * b)
  (List.range ((n + g - 1) / g)).map fun i => (span (128 * b + g * i) g).filter o.contributes

/-- The accumulators after block b (10 R262): those of the cells inside M × N. -/
def State.blockAcc (st : State) (core slot b : Nat) : Table (BitVec 256) :=
  let o := (st.slot core slot).op
  let groups := o.blockGroups b
  let wa := (mftA o.mft).width
  let wb := (mftB o.mft).width
  (List.range (mshM o.msh)).foldl (fun t i => (List.range (mshN o.msh)).foldl (fun t j =>
    let old := if b = 0 && !mftAcc o.mft then 0 else tget 0 t (cellNo i j)
    let a := fun (k c : Nat) => let (p, n) := o.aElem i (o.column k) c; st.arrayRead core slot wa p n
    let y := fun (k c : Nat) => let (p, n) := o.bElem k j c; st.arrayRead core slot wb p n
    tset 0 t (cellNo i j) (o.cell groups a y old)) t) (st.core core).acc

/-- The window offsets that a block reads of A and of B. -/
def EngOp.blockReads (o : EngOp) (b : Nat) : List Nat × List Nat :=
  let ks := (o.blockGroups b).flatten
  let wa := (mftA o.mft).width
  let wb := (mftB o.mft).width
  let bytes := fun (w : Nat) (x : Nat × Nat) => span (elemByte w x.1 x.2) (max 1 (w / 8))
  ((List.range (mshM o.msh)).flatMap fun i => ks.flatMap fun k => (List.range o.dim).flatMap fun c => bytes wa (o.aElem i (o.column k) c),
   (List.range (mshN o.msh)).flatMap fun j => ks.flatMap fun k => (List.range o.dim).flatMap fun c => bytes wb (o.bElem k j c))

/-- MMA_K_BLOCK (10 R262): a block of 128 K positions. `miss1` and `miss2` are the columns at which the residues of the
first and the second run disagree. -/
def execMmaKBlock (core slot : Nat) (miss1 miss2 : Option (Fin 128)) (st : State) : Out :=
  let t := st.slot core slot
  let o := t.op
  let copies := if o.kind = .copym then o.copySteps else 0
  let n := t.prog + 1
  if !(o.kind = .mma || o.kind = .mmas || o.kind = .copym) || !t.onArray || o.steps < n || n ≤ copies || !st.opSteps core slot then .next st
  else
    let b := n - copies - 1
    let (ra, rb) := o.blockReads b
    let offOk := fun (x : Nat) => st.servable o.clock [windowAddr core x]
    let opnd := fun (k : Nat) => if o.kind = .copym then 2 else k
    if !(ra ++ rb).all offOk then .next st
    else match ra.find? (fun x => st.unreadable (windowAddr core x)), rb.find? (fun x => st.unreadable (windowAddr core x)) with
      | some x, _ => .next (st.faultOp core slot Code.eccUncorr (opnd 0) 0 n (word x) 0)
      | none, some x => .next (st.faultOp core slot Code.eccUncorr (opnd 1) 0 n (word x) 0)
      | none, none => match miss1, miss2 with
        | some _, some j => .next (st.faultOp core slot 0x23 2 j.val n 0 0)
        | _, _ =>
          let acc := st.blockAcc core slot b
          .next ((st.setCore core fun k => { k with acc := acc }).stepDone core slot n o.steps)

/-- MCLR_STEP (10 R264). -/
def execMclrStep (core slot : Nat) (st : State) : Out :=
  let t := st.slot core slot
  if t.op.kind ≠ .mclr || !t.onArray || !st.opSteps core slot then .next st
  else .next ((st.setCore core fun k => { k with acc := [] }).stepDone core slot 1 1)

/-- MRD_ROW (10 R264): one row i of C. -/
def execMrdRow (core slot : Nat) (st : State) : Out :=
  let t := st.slot core slot
  let o := t.op
  let i := t.prog
  if o.kind ≠ .mrd || !t.onArray || mshM o.msh ≤ i || !st.opSteps core slot then .next st
  else match st.moveStep core slot (i + 1) with
    | .later => .next st
    | .part st => .next st
    | .fault _ k (c, a) st => .next (st.faultOp core slot c k i (i + 1) a 0)
    | .done st => .next ((st.setChunks core slot (· ≤ i) (· ≤ i + 1)).stepDone core slot (i + 1) (mshM o.msh))

end Sys2Proof.Machine
end

