-- ==== Sys2Proof/Machine/EngineTeam.lean ====
section
/-! DEFINITION. EngineTeam: the events of the collective engine and of Madder: trains, collectives, barriers, the moves of
pages (10 R265 to R272, 17 R328, R329), and the end of a partition's drain (18 R343). -/

namespace Sys2Proof.Machine

/-! ### Trains -/

/-- The elements of a train for one destination, in ascending order: where, and their bytes (10 R269). -/
def EngOp.trainElems (o : EngOp) (dest : Nat) : List (Nat × Nat × List Byte) :=
  let n := (fmtOf o.ctl.vt).width / 8
  (o.dests.filter fun x => x.2 = dest).map fun x => (x.1, fld o.brickA.toNat (64 * x.1) 56, leBytes n (elem o.brickB (8 * n) x.1))

/-- Elements applied at their homes, each with a number of its home's die and that die's frontiers as its clock (05 R137), which the clock
of the slot joins (R129); one whose page lies on another module is sent there (17 R319). Or the first fault. -/
def State.applyTrain (st : State) (core slot : Nat) : List (Nat × Nat × List Byte) → Sum State (Nat × Bad)
  | [] => .inl st
  | (e, a, bs) :: t =>
    let o := (st.slot core slot).op
    let va := (List.range bs.length).map fun i => word (a + i)
    let rs := va.map fun v => st.reach core o .write v
    match ((va.zip rs).filterMap fun x => st.badByte core x.1 true x.2).head? with
    | some b => .inr (e, b)
    | none =>
      let st := (st.stepRead core slot va []).setOp core slot fun o => { o with rows := e :: o.rows }
      match (rs.head? : Option Reach) with
      | some (.there m pa) =>
        ((st.emit (st.portOf m) (.remoteWrite m pa bs)).setOp core slot fun o => { o with unacked := o.unacked + 1, leaves := true }).applyTrain core slot t
      | _ =>
        let pas := rs.filterMap fun r => match r with | .here l => some (st.hidden l) | _ => none
        let die := homeDie (pas.headD 0)
        let bufs := rs.filterMap fun r => match r with | .here (.buf _ i _) => some i | _ => none
        let st := (st.deviceWrite die pas bs (st.knownAt die)).setOp core slot fun o => { o with wrote := (o.wrote ++ bufs).eraseDups }
        (st.setSlot core slot fun t => { t with clock := t.clock.join (({} : Clock).set die (st.issued.at die)) }).applyTrain core slot t

/-- Whether a destination of a train is written by this module itself: one of its own homes, or a page of another module that its
tables name. -/
def ownDest (dest : Nat) : Bool := dest < 4 || 2000 ≤ dest

/-- TRAIN_APPLY (10 R269, 05 R137): the train for a home die of this module is applied there; one for another module is
sent to it. Once the count of a park has ended, no further train is sent (18 R343). -/
def execTrainApply (core slot dest : Nat) (st : State) : Out :=
  let t := st.slot core slot
  let o := t.op
  if o.kind ≠ .train || t.phase ≠ .running || !((o.dests.map (·.2)).contains dest) || (o.sent.any fun x => x.1 = dest) ||
      o.acked.contains dest || o.nacks.contains dest || !st.opSteps core slot ||
      (!st.partsRun o.part && (o.trainElems dest).all fun x => x.1 ∉ o.rows) then .next st
  else
    let es := (o.trainElems dest).filter fun x => x.1 ∉ o.rows
    if ownDest dest then
      -- a part of the train first, or all that is left (log entry 33)
      let n := 1 + Config.pick st.tick (2 * 2 ^ 25) es.length
      if (es.take n).any fun x => st.reach core o .write (word x.2.1) = .later then .next st
      else match st.applyTrain core slot (es.take n) with
      | .inr (e, c, a) => .next (st.faultOp core slot c 0 e (t.prog + 1) a 0)
      | .inl st => .next (if n < es.length then st else
          st.setOp core slot fun o => { o with sent := o.sent ++ [(dest, (st.slot core slot).clock)] })
    else
      match st.brokenPort (o.teamMember (dest - 4)) with
      | some l => .next (st.faultOp core slot Code.link 2 (dest - 4) (t.prog + 1) (word l) 0)
      | none => .next ((st.emit (st.portOf (o.teamMember (dest - 4))) (.train (o.teamMember (dest - 4)) (es.map fun (x : Nat × Nat × List Byte) => x.2))).setOp core slot fun o =>
          { o with sent := o.sent ++ [(dest, ({} : Clock))] })

/-- When every destination of a train has answered and some have refused, it faults TRAIN_NACK with the first of these in team order
(05 R137, 10 R269). -/
def State.trainNack (st : State) (core slot : Nat) : State :=
  let t := st.slot core slot
  let o := t.op
  match o.nacks with
  | [] => st
  | n :: l =>
    if (o.dests.map (·.2)).all fun d => o.acked.contains d || o.nacks.contains d then
      st.faultOp core slot 0x24 2 (l.foldl min n - 4) (t.prog + 1) 0 0
    else st

/-- TRAIN_ACK (05 R137, 10 R269): a destination acknowledges once every die knows its numbers; another module's answer may
be a refusal. -/
def execTrainAck (core slot dest : Nat) (ok : Bool) (st : State) : Out :=
  let t := st.slot core slot
  let o := t.op
  if o.kind ≠ .train || t.phase ≠ .running || !st.opSteps core slot then .next st
  else match o.sent.find? fun x => x.1 = dest with
  | none => .next st
  | some (_, k) =>
    if ownDest dest && (o.unacked ≠ 0 || !([0, 1, 2, 3].all fun d => k.le (st.knownAt d))) then .next st
    else
      let st := st.setOp core slot fun o => { o with sent := o.sent.filter fun x => x.1 ≠ dest }
      if !ownDest dest && !ok then .next ((st.setOp core slot fun o => { o with nacks := dest :: o.nacks }).trainNack core slot)
      else
        let st := st.setOp core slot fun o => { o with acked := dest :: o.acked }
        .next ((st.stepDone core slot (t.prog + 1) o.steps).trainNack core slot)

/-! ### Collectives -/

/-- Whether a member lies outside the module, so that what it does is not in the state. -/
def State.remoteMember (st : State) (o : EngOp) (m : Nat) : Bool := o.teamKind = 2 && o.teamMember m ≠ st.modNum.toNat

/-- Whether two members disagree on what all must agree on (10 R266). -/
def EngOp.disagrees (a b : EngOp) : Bool :=
  a.teamKind ≠ b.teamKind || a.teamCount ≠ b.teamCount || a.teamRoot ≠ b.teamRoot || a.teamAll ≠ b.teamAll || a.kind ≠ b.kind ||
    fldW a.ctl.vt 0 5 ≠ fldW b.ctl.vt 0 5 || fldW a.ctl.vt 12 3 ≠ fldW b.ctl.vt 12 3 || a.rb ≠ b.rb

/-- The member that makes this one fault (10 R266): one that failed, or one that disagrees. -/
def State.collBad (st : State) (core slot : Nat) : Option Nat :=
  let o := (st.slot core slot).op
  match o.failedBy with
  | some m => some m
  | none => (List.range o.teamCount).find? fun m => match st.partnerSlot core slot m with
    | none => false
    | some (c, s) =>
      let x := st.slot c s
      x.st = .faulted || x.st = .cancelled || o.disagrees x.op

/-- Whether every member has joined, those of other modules apart. -/
def State.allJoined (st : State) (core slot : Nat) : Bool :=
  let o := (st.slot core slot).op
  (List.range o.teamCount).all fun m => st.remoteMember o m || (st.partnerSlot core slot m).isSome

/-- Whether a member receives (10 R267), and whether member m's source is read. -/
def EngOp.receives (o : EngOp) : Bool := o.kind = .cbc || o.teamAll || o.teamSelf = o.teamRoot
def EngOp.gives (o : EngOp) (m : Nat) : Bool := o.kind ≠ .cbc || m = o.teamRoot

/-- The link that a member's data comes over and that does not stand (18 R347): a fabric port, or the one between two dies. -/
def State.pathBad (st : State) (core slot m : Nat) : Option Nat :=
  let o := (st.slot core slot).op
  if st.remoteMember o m then st.brokenPort (o.teamMember m)
  else match st.partnerSlot core slot m with
    | some (c, _) =>
      if dieOf c ≠ dieOf core && (tget {} st.links (dieLink (dieOf c) (dieOf core))).failed then some (dieLink (dieOf c) (dieOf core)) else none
    | none => none

/-- How many bytes a member has read of its source; those of another module are not in the state. -/
def State.memberRead (st : State) (core slot m : Nat) : Nat :=
  let o := (st.slot core slot).op
  if st.remoteMember o m then o.rb
  else match st.partnerSlot core slot m with
    | some (c, s) => (st.slot c s).op.buf.length
    | none => 0

/-- A byte of a member's data, at an offset. -/
def State.memberByte (st : State) (core slot m off : Nat) : Byte :=
  let o := (st.slot core slot).op
  if st.remoteMember o m then Config.remoteByte st.tick (o.teamMember m) off
  else match st.partnerSlot core slot m with
    | some (c, s) => (st.slot c s).op.buf.getD off 0
    | none => 0

/-- One element of CRED (10 R267): the members' elements combined in the pairwise tree of 04 R98 over member indices. -/
def credElem (f : VRed) (t : Fmt) (r : Rnd) (codes : List Nat) : Nat :=
  ((treeLevels (redCombine f t fun _ => r) 0 (codes.length - 1) 10 ((codes.zip (List.range codes.length)).map fun (c, j) => (some c, j))).1).getD 0

/-- What a member writes of n bytes of each member's data from `lo` on, with the offsets in its destination (10 R267). -/
def State.collBytes (st : State) (core slot lo n : Nat) : List (Nat × Byte) :=
  let o := (st.slot core slot).op
  match o.kind with
  | .cred f =>
    let t := fmtOf o.ctl.vt
    let wb := t.width / 8
    let r : Rnd := Rnd.ofVt o.ctl.vt 0
    (List.range (n / wb)).flatMap fun i =>
      let at_ := lo + wb * i
      let codes := (List.range o.teamCount).map fun m => leNat ((span at_ wb).map fun x => st.memberByte core slot m x)
      (span at_ wb).zip (leBytes wb (credElem f t r codes))
  | .cgat => (List.range o.teamCount).flatMap fun m => (span lo n).map fun x => (m * o.rb + x, st.memberByte core slot m x)
  | .cbc => (span lo n).map fun x => (x, st.memberByte core slot o.teamRoot x)
  | _ => []

/-- How far a member reads and takes for a step that needs `need` bytes: the few beyond it that complete a unit of 8 bytes (05 R130), and
where the rows of a CGAT cut units, all. -/
def EngOp.upTo (o : EngOp) (need : Nat) : Nat :=
  if o.kind = .cgat && (o.xb.toNat % 8 ≠ 0 || o.rb % 8 ≠ 0) then o.rb else min (need + 8) o.rb

/-- A member reads its source (10 R267) up to `need`, and beyond it where that can be had. -/
def State.collRead (st : State) (core slot k need : Nat) : State :=
  let o := (st.slot core slot).op
  let at_ := fun (lo hi : Nat) => (span lo (hi - lo)).map fun x => (o.srcAt x, st.reach core o .read (o.srcAt x))
  let own := at_ o.buf.length need
  let more := at_ (max need o.buf.length) (o.upTo need)
  let bad := fun (x : Word × Reach) => st.badByte core x.1 false x.2
  match (own.filterMap bad).head? with
  | some (c, a) => st.faultOp core slot c 0 o.teamSelf k a 0
  | none =>
    let l := if more.any fun x => (bad x).isSome || x.2 = .later then own else own ++ more
    if !st.reachServable o (l.map (·.2)) then st
    else
      let bs := (l.zip (List.range l.length)).map fun x => st.readReach o (65536 + x.2) x.1.2
      (st.stepRead core slot (l.map (·.1)) (l.map (·.2))).setOp core slot fun o => { o with buf := o.buf ++ bs, rows := [k] }

/-- A receiving member takes what the others have read (10 R267), over the links to them. -/
def State.collTake (st : State) (core slot k need : Nat) : State :=
  let o := (st.slot core slot).op
  let ms := (List.range o.teamCount).filter o.gives
  if !ms.all fun m => need ≤ st.memberRead core slot m then st
  else match ms.find? fun m => (st.pathBad core slot m).isSome with
    | some m => st.faultOp core slot Code.link 2 m k (word ((st.pathBad core slot m).getD 0)) 0
    | none =>
      let hi := if ms.all fun m => o.upTo need ≤ st.memberRead core slot m then o.upTo need else need
      let new := st.collBytes core slot o.took (hi - o.took)
      st.setOp core slot fun o => { o with pool := (o.pool.filter fun x => k ≤ o.stepOf x.1) ++ new, took := hi, rows := [k] }

/-- A member has written its part of step k: the step is complete once every other has taken what it needs of this member's source
(10 R267). -/
def State.collWritten (core slot k : Nat) (st : State) : State :=
  let o := (st.slot core slot).op
  let taken := (List.range o.teamCount).all fun m => m = o.teamSelf || match st.partnerSlot core slot m with
    | some (c, s) => !(st.slot c s).op.receives || (st.slot c s).st = .done || min (4096 * k) o.rb ≤ (st.slot c s).op.took
    | none => true
  if !o.gives o.teamSelf || taken then st.stepDone core slot k o.collSteps else st.setOp core slot fun o => { o with awaiting := true }

/-- COLLECTIVE_STEP (10 R266, R267): once every member has joined, a member reads the next 4 KiB of its source, takes what the others
have read, and writes its destination; each of these is one move. -/
def execCollectiveStep (core slot : Nat) (st : State) : Out :=
  let t := st.slot core slot
  let o := t.op
  let k := t.prog + 1
  let need := min (4096 * k) o.rb
  if !o.kind.isColl || o.kind = .cbar || t.phase ≠ .running || o.collSteps < k || !st.opSteps core slot then .next st
  else match st.collBad core slot with
  | some m => .next (st.faultOp core slot 0x25 2 m k 0 0)
  | none =>
    if !o.met && !st.allJoined core slot then .next st
    else
      let st := st.setOp core slot fun o => { o with met := true }
      if o.gives o.teamSelf && o.buf.length < need then .next (st.collRead core slot k need)
      else if o.receives && o.took < need then .next (st.collTake core slot k need)
      else if o.awaiting || !o.receives then .next (st.stepWritten core slot (State.collWritten core slot k))
      else match st.moveStep core slot k with
        | .later => .next st
        | .part st => .next st
        | .fault _ n (c, a) st => .next (st.faultOp core slot c n o.teamSelf k a 0)
        | .done st => .next (st.stepWritten core slot (State.collWritten core slot k))

/-- COLL_JOIN_TIMEOUT (10 R266): member m has not joined in time; a parked member's count stands still (18 R344). -/
def execCollJoinTimeout (core slot m : Nat) (st : State) : Out :=
  let t := st.slot core slot
  let o := t.op
  if !o.kind.isColl || t.phase ≠ .running || o.met || o.teamCount ≤ m || m = o.teamSelf || !st.opsRun o.part false then .next st
  else if !st.remoteMember o m && (st.partnerSlot core slot m).isSome then .next st
  else .next (st.faultOp core slot 0x25 2 m (t.prog + 1) 0 0)

/-- CBAR_COMPLETE (10 R268): every member has issued, and each release is joined into what all observe, over the links between them (18
R347); then each is DONE. -/
def execCbarComplete (core slot : Nat) (st : State) : Out :=
  let t := st.slot core slot
  let o := t.op
  if o.kind ≠ .cbar || t.phase ≠ .running || !st.opSteps core slot then .next st
  else match st.collBad core slot with
  | some m => .next (st.faultOp core slot 0x25 2 m 1 0 0)
  | none =>
    if o.met then .next (st.stepDone core slot 1 1)
    else if !st.allJoined core slot then .next st
    else match (List.range o.teamCount).find? fun m => (st.pathBad core slot m).isSome with
    | some m => .next (st.faultOp core slot Code.link 2 m 1 (word ((st.pathBad core slot m).getD 0)) 0)
    | none =>
      let ms := st.localMembers core slot
      let clk := ms.foldl (fun k x => k.join (st.slot x.1 x.2).op.clock) {}
      .next ((ms.foldl (fun st x => st.setOp x.1 x.2 fun o => { o with clock := o.clock.join clk, met := true }) st).stepDone core slot 1 1)

/-! ### Migration -/

/-- The tier space a compressed page takes: at most its size and 4 KiB (17 R328), in units of 4 KiB. -/
def tierSpace (size : Nat) (bytes : List Byte) : Nat := min ((Config.compressedSize bytes + 4096 + 4095) / 4096 * 4096) (size + 4096)

/-- The tier carve of a partition, as a base and a length (17 R327). -/
def Part.tierBase (q : Part) : Nat := fldW q.tierb 16 32 * 65536
def Part.tierSize (q : Part) : Nat := fldW q.tiers 0 29 * 65536

/-- Places in the tier carve where n bytes fit: its base, and the end of each stored page or reservation. -/
def Part.tierPlaces (q : Part) (n : Nat) : List Nat :=
  let used := (q.tier.map fun t => (t.ta, t.space)) ++ q.tierHeld
  (q.tierBase :: used.map fun t => t.1 + t.2).filter fun a =>
    a + n ≤ q.tierBase + q.tierSize && used.all fun t => !rangesMeet a n t.1 t.2

/-- The bytes of a frame that are listed, by offset, and the last writes of its bytes. -/
def State.frameCells (st : State) (frame size : Nat) : List Host.Cell :=
  (st.mem.filter fun e => frame ≤ e.1 && e.1 < frame + size).map fun e => (e.1 - frame, e.2)
def State.frameLast (st : State) (frame size : Nat) : Table Ver :=
  (st.hist.filter fun e => frame ≤ e.1 && e.1 < frame + size).filterMap fun e => e.2.head?.map fun v => (e.1 - frame, v)
/-- All bytes of a frame. -/
def State.frameBytes (st : State) (frame size : Nat) : List Byte := (List.range size).map fun i => st.peek (frame + i)

/-- The first bytes of the lines of a frame. -/
def linesOf (frame size : Nat) : List Nat := (List.range (size / 256)).map fun i => frame + 256 * i

/-- A frame filled with a page (17 R328): its bytes, the parity of its stripes, what that comes to in its lines (R325), and each byte's
last write, so that no reader finds what the frame held before. -/
def State.fillFrame (st : State) (frame size : Nat) (cells : List Host.Cell) (last : Table Ver) : State :=
  let old := (st.frameCells frame size).map (·.1)
  let st := { st with hist := st.hist.filter fun e => !(frame ≤ e.1 && e.1 < frame + size) }
  let st := (old ++ cells.map (·.1)).eraseDups.foldl (fun t off =>
    let pa := frame + off
    let v := tget 0 cells off
    { t with parity := tset 0 t.parity (parityAddr pa) (tget 0 t.parity (parityAddr pa) ^^^ t.peek pa ^^^ v) }.poke pa v) st
  (last.foldl (fun t e => { t with hist := tput t.hist (frame + e.1) [e.2] }) st).wroteLines (linesOf frame size)

/-- Locations that a word has resolved and not yet accessed: a page moves when none of them lies in it (R271). -/
def Wait.locs : Wait → List Loc
  | .read _ _ _ l _ | .amo _ _ _ _ l _ _ _ _ | .release _ l _ | .store _ l _ => l
  | _ => []
def State.inUse (st : State) (pa : Nat → Bool) : Bool :=
  let hit := fun (l : Loc) => pa (st.visible l)
  (st.writes.any fun w => w.parts.any fun q => q.locs.any hit) ||
  (st.ctxs.any fun (k : Nat × Ctx) =>
    (k.2.loose.any fun l => l.part.locs.any hit) || (k.2.reads.any fun d => d.locs.any hit) ||
    (match k.2.wait with | some w => w.locs.any hit | none => false) ||
    (!k.2.frozen && k.2.vq.any fun e => e.started && !e.op.holdsIssue && e.locs.any fun x => x.2.any hit) ||
    k.2.landing.any fun l => l.entry.locs.any fun x => x.2.any hit) ||
  -- what engines hold back of a step (02 R47)
  st.cores.any fun (c : Nat × Core) => c.2.slots.any fun (x : Nat × Slot) => x.2.pending && x.2.op.held.any fun h =>
    h.2.any fun y => match y.dst with | .here l => pa (st.hidden l) | _ => false

/-- The barrier add of R272, as an atomic of the operation (05 R122): its read and its write of the dword, once the home knows what
their clocks name (R119, R120). A link that has failed is MIGR_CAP (18 R347). Of a shadowed buffer it reads the visible backing and writes
the hidden one, as an operation does (05 R133, log entry 89); a dword of another module is sent there, of a value that is free (17 R319). -/
def State.barrierAdd (st : State) (core slot : Nat) : Moved :=
  let t := st.slot core slot
  let a := t.op.xb &&& 0x00FFFFFFFFFFFF00#64
  let va := (List.range 8).map fun i => a + word i
  let rs := va.map fun v => st.reach core t.op .atomic v
  let pas := rs.filterMap fun r => match r with | .here l => some (st.visible l) | _ => none
  let dst := rs.filterMap fun r => match r with | .here l => some (st.hidden l) | _ => none
  let bufs := rs.filterMap fun r => match r with | .here (.buf _ i _) => some i | _ => none
  let clk := pas.foldl (fun k pa => k.join (st.last pa).clock) t.op.clock
  let met := st.fillPages core t.op.part [a.toNat]
  if t.op.awaiting then (if t.op.unacked = 0 then .done (st.setOp core slot fun o => { o with awaiting := false }) else .later)
  else if rs.contains .later then .later
  else match ((va.zip rs).filterMap fun x => (st.badByte core x.1 false x.2).or (st.badByte core x.1 true x.2)).head? with
  | some (c, v) => .fault 0 1 (if c = Code.link then (0x26, 0) else (c, v)) st
  | none => match (rs.head? : Option Reach) with
    | some (.there m pa) =>
      let old := leNat ((span pa 8).map fun x => Config.remoteByte st.tick m x)
      .part ((met.emit (st.portOf m) (.remoteWrite m pa (leBytes 8 (old + 1)))).setOp core slot fun o =>
        { o with unacked := o.unacked + 1, awaiting := true, leaves := true })
    | _ =>
      if !st.servable clk pas || !st.applicableAt (dieOf core) clk dst then .later
      else
        let old := leNat (pas.map fun pa => (st.last pa).val)
        .done (((met.rebuildFor core pas).setOp core slot fun o => { o with wrote := (o.wrote ++ bufs).eraseDups }).deviceWrite
          (dieOf core) dst (leBytes 8 (old + 1)) clk)

/-- A page has been moved, or counts as moved (10 R270): its add comes next, or its step is complete. -/
def State.pageMoved (st : State) (core slot next : Nat) : State :=
  let st := st.setOp core slot fun o => { o with page := none, place := none, xa1 := word next, started := true }
  let t := st.slot core slot
  if t.op.xb &&& 0x00FFFFFFFFFFFF00#64 = 0 then
    (st.setOp core slot fun o => { o with started := false }).stepDone core slot (t.prog + 1) t.op.pages
  else st

/-- What the core's accesses to some bytes of a move meet: a link that has failed is MIGR_CAP (18 R347), what cannot be rebuilt
ECC_UNCORR. -/
def State.moveFails (st : State) (core : Nat) (pas : List Nat) : Option Nat :=
  if (st.brokenLink core pas).isSome then some 0x26 else if pas.any st.unreadable then some Code.eccUncorr else none

/-- Waits of threads for locations that lie in a page: the word is issued again, and stalls (17 R271). -/
def State.stall (st : State) (pa : Nat → Bool) : State :=
  { st with ctxs := st.ctxs.map fun (k : Nat × Ctx) => (k.1, { k.2 with
      wait := match k.2.wait with
        | some w => some (if w.locs.any fun l => pa (st.visible l) then .retry else w)
        | none => none }) }

/-- The first part of a page's move (17 R328, steps 1 and 2): the walk, and the reservation. From then on accesses to the page stall. -/
def State.reservePage (st : State) (core slot : Nat) : State :=
  let t := st.slot core slot
  let o := t.op
  let q := st.part o.part
  let va := o.xa1
  let fault := fun (st : State) (c : Nat) => st.faultOp core slot c 0 t.prog (t.prog + 1) va 0
  if 2 ^ 56 ≤ va.toNat || (q.bufAt va.toNat).isSome then fault st 0x21
  else match st.leaf core o.part va.toNat with
  | .inr .absent => fault st 0x20
  | .inr (.failed c _) => fault st (if c = Code.link then 0x26 else c)
  | .inr _ => fault st 0x21
  | .inl (w, a, level) =>
    let st := st.walked core o.part va.toNat
    let size := pageSize level
    let i := frameStack level
    let top := q.stackAt i (if o.kind = .migrOut then q.stackTop i else q.stackTop i - 1)
    if va.toNat % size ≠ 0 || pteF w || (o.level = .u && !bitW w 5) || (!pteT w && region (ptePA w) ≠ .main) then fault st 0x21
    else if pteT w = decide (o.kind = .migrOut) then st.pageMoved core slot (va.toNat + size)
    else if o.kind = .migrOut then
      let n := tierSpace size (st.frameBytes (ptePA w) size)
      let places := q.tierPlaces n
      if places = [] || q.stackCap i ≤ q.stackTop i + tget 0 q.reserved i || (st.brokenLink core (top :: linesOf (ptePA w) size)).isSome then fault st 0x26
      else
        let held := (places.getD (Config.pick st.tick (2 * 262144) places.length) 0, n)
        ((st.setPart o.part fun q => { q with
          reserved := tset 0 q.reserved i (tget 0 q.reserved i + 1), tierHeld := held :: q.tierHeld }).setOp core slot
            fun o => { o with page := some (w, a, level, ptePA w), place := some held }).stall fun pa => ptePA w ≤ pa && pa < ptePA w + size
    else if q.stackTop i = 0 then fault st 0x26
    else match st.moveFails core (span top 8) with
    | some c => fault st c
    | none =>
      let frame := (st.walkRead top).toNat
      let st := (st.rebuildFor core (span top 8)).setPart o.part fun q => q.setTop i (q.stackTop i - 1)
      if frame % size ≠ 0 || !q.inCarve frame size then fault st 0x21
      else
        let st := st.setOp core slot fun o => { o with page := some (w, a, level, frame) }
        if (st.brokenLink core (linesOf frame size)).isSome then fault st 0x26 else st

/-- The second part of a page's move (17 R328, steps 3 to 6, R329). -/
def State.movePage (st : State) (core slot : Nat) (linkOk : Bool) (page : Word × Nat × Nat × Nat) : State :=
  let (w, a, level, frame) := page
  let t := st.slot core slot
  let o := t.op
  let size := pageSize level
  let va := o.xa1
  let now := st.walkRead a
  let stays := fun (x : Tlb) => !(x.part = o.part && rangesMeet x.base x.size va.toNat size)
  let st := { st with cores := st.cores.map fun (e : Nat × Core) => (e.1, { e.2 with
    tlb := e.2.tlb.filter stays
    slots := e.2.slots.map fun (x : Nat × Slot) => (x.1, { x.2 with op := { x.2.op with kept := x.2.op.kept.filter stays } }) }) }
  let leafFails := st.moveFails core (span a 8)
  let putLeaf := fun (st : State) (v : Word) => st.deviceWrite (dieOf core) (span a 8) (leBytes 8 v.toNat) o.clock
  let others := w &&& ~~~0x0000FFFFFFFFFF80#64
  let fault := fun (c : Nat) => st.faultOp core slot c 0 t.prog (t.prog + 1) va 0
  if o.kind = .migrOut then
    let bytes := st.frameBytes frame size
    let n := tierSpace size bytes
    let lines := linesOf frame size
    -- what was reserved at step 2, or where more is needed, other room
    let (ha, hn) := o.place.getD (0, 0)
    let free := fun (q : Part) => { q with tierHeld := q.tierHeld.filter (· ≠ (ha, hn)) }
    let places := if n ≤ hn then [ha] else (free (st.part o.part)).tierPlaces n
    if !linkOk || places = [] || (st.brokenLink core lines).isSome then fault 0x26
    else if lines.any st.unreadable then fault Code.eccUncorr
    else if leafFails.isSome then fault (leafFails.getD 0)
    else if now ≠ w then fault 0x21
    else
      let ta := places.getD (Config.pick st.tick (2 * 262144) places.length) 0
      let st := (st.rebuildFor core lines).setPart o.part fun q => { free q with
        tier := q.tier ++ [⟨ta, size, st.frameCells frame size, st.frameLast frame size, n, true⟩]
        reserved := tset 0 q.reserved (frameStack level) (tget 0 q.reserved (frameStack level) - 1) }
      let st := putLeaf st (others ||| word (ta / 4096 * 4096 + 128))
      (st.pushFrame o.part (frameStack level) frame).pageMoved core slot (va.toNat + size)
  else match (st.part o.part).tier.find? fun x => x.ta = pteTaddr w with
    | none => fault 0x21
    | some x =>
      if x.size ≠ size || !x.sound then fault 0x21
      else if !linkOk || (st.brokenLink core (linesOf frame size)).isSome then fault 0x26
      else if leafFails.isSome then fault (leafFails.getD 0)
      else if now ≠ w then fault 0x21
      else
        let st := st.fillFrame frame size x.bytes x.last
        let st := st.setPart o.part fun q => { q with tier := q.tier.filter fun y => y.ta ≠ x.ta }
        (putLeaf st (others ||| word frame)).pageMoved core slot (va.toNat + size)

/-- MIGR_PAGE_MOVE (17 R328, R329, 10 R272, 19 R351): the reservation of a page, its move, and its barrier add, each as one move of
Madder, between which a cancel may come. -/
def execMigrPageMove (core slot : Nat) (linkOk : Bool) (st : State) : Out :=
  let t := st.slot core slot
  let o := t.op
  if !(o.kind = .migrOut || o.kind = .migrIn) || t.phase ≠ .running || o.pages ≤ t.prog || !st.opSteps core slot then .next st
  else if o.started then
    match st.barrierAdd core slot with
    | .fault _ _ (c, a) st => .next (st.faultOp core slot c 1 t.prog (t.prog + 1) a 0)
    | .later => .next st
    | .part st => .next st
    | .done st => .next ((st.setOp core slot fun o => { o with started := false }).stepDone core slot (t.prog + 1) o.pages)
  else match o.page with
    | none => .next (st.reservePage core slot)
    | some pg =>
      if st.inUse fun pa => o.kind = .migrOut && pg.2.2.2 ≤ pa && pa < pg.2.2.2 + pageSize pg.2.2.1 then .next st
      else .next (st.movePage core slot (linkOk && (st.part o.part).hlw ≠ 0 && !(tget {} st.links 32).failed) pg)

/-! ### The end of a drain -/

/-- An operation is PARKED: it keeps its progress and the state it left (02 R41, R48). -/
def Slot.parkNow (t : Slot) : Slot := { t with left := t.phase, st := .parked, op := { t.op with kept := [] } }

/-- PARK_DRAIN_EXPIRY (18 R343): the count of a park ends, and the operations still running stop at their boundaries; one that has a step
in progress is left to finish it. -/
def execParkDrainExpiry (p : Nat) (st : State) : Out :=
  if !(st.part p).parking then .next st
  else
    let st := st.setPart p fun q => { q with drained := true }
    let stops := fun (c : Nat) (x : Nat × Slot) => x.2.pending && x.2.st ≠ .parked && st.atBoundary c x.1
    .next ((st.coresOf p).foldl (fun t c => (st.core c).slots.foldl (fun t x => if stops c x then t.setSlot c x.1 Slot.parkNow else t) t) st)

end Sys2Proof.Machine
end

