-- ==== Sys2Proof/Machine/Fp.lean ====
section
/-! DEFINITION. Fp: the scalar floating-point words, major 0x0A (08 R184 to R186). -/

namespace Sys2Proof.Machine

/-- The format of a .D or .S form (08 R184). -/
def fpFmt (single : Bool) : Fmt := if single then .f32 else .f64
/-- A source of a .D or .S form: f64, or bits [31:0] as f32 (08 R184). -/
def fpVal (single : Bool) (v : Word) : Val :=
  if single then Fmt.f32.decode false (fldW v 0 32) else Fmt.f64.decode false v.toNat
/-- The code of a source. -/
def fpCode (single : Bool) (v : Word) : Nat := if single then fldW v 0 32 else v.toNat

/-- The rounding state of the issuing context (08 R184): VT as it stands, element index 0 (04 R91). -/
def State.rnd (st : State) : Rnd := Rnd.ofVt (st.rc 3) (srbits (st.rc 6) st.me.icnt 0)
/-- The control registers a rounding word reads, at a declared distance (07 R165, R166): VT, and SEED in the stochastic mode. The
list of R165 does not name scalar FP words: DESIGN CHOICE, log entry 87. -/
def State.rndRegs (st : State) : List Nat := if fldW (st.me.ctrl.get 3) 12 3 = 5 then [ctlReg 3, ctlReg 6] else [ctlReg 3]

/-- A scalar FP result of latency L (0: interlocked) with its flags in lane 0 (08 R181). -/
def State.fpResult (st : State) (s : Fin 4) (d : Fin 32) (lat : Nat) (r : Nat × Flags) : Out :=
  .next (st.setMe fun c => ((c.raise 0 r.2).result d.val (word r.1) lat).advance s)

/-- A word that rounds an exact function of two sources (08 R184). -/
def State.fp2 (st : State) (s : Fin 4) (d a b : Fin 32) (p : Bool) (lat : Nat) (f : Rnd → Val → Val → Res) : Out :=
  st.checked ([a.val, b.val] ++ st.rndRegs) fun t =>
    let r := t.rnd
    t.fpResult s d lat ((fpFmt p).finish r (f r (fpVal p (t.rx a)) (fpVal p (t.rx b))))

/-- FADD (08 R184). -/
def execFadd (s : Fin 4) (d a b : Fin 32) (p : Bool) (st : State) : Out := st.fp2 s d a b p 4 fun r x y => x.add y r.rdn

/-- FSUB (08 R184). -/
def execFsub (s : Fin 4) (d a b : Fin 32) (p : Bool) (st : State) : Out := st.fp2 s d a b p 4 fun r x y => x.add y.neg r.rdn

/-- FMUL (08 R184). -/
def execFmul (s : Fin 4) (d a b : Fin 32) (p : Bool) (st : State) : Out := st.fp2 s d a b p 4 fun _ x y => x.mul y

/-- FMAC (08 R184, 04 R97): round(d + a·b), one rounding, d the old xd. -/
def execFmac (s : Fin 4) (d a b : Fin 32) (p : Bool) (st : State) : Out :=
  st.checked ([a.val, b.val, d.val] ++ st.rndRegs) fun t =>
    let r := t.rnd
    t.fpResult s d 4 ((fpFmt p).finish r (Val.fma (fpVal p (t.rx d)) (fpVal p (t.rx a)) (fpVal p (t.rx b)) r.rdn))

/-- FDIV (08 R184), interlocked. -/
def execFdiv (s : Fin 4) (d a b : Fin 32) (p : Bool) (st : State) : Out := st.fp2 s d a b p 1 fun _ x y => x.div y

/-- FSQRT (08 R184), interlocked. -/
def execFsqrt (s : Fin 4) (d a : Fin 32) (p : Bool) (st : State) : Out :=
  st.checked (a.val :: st.rndRegs) fun t => t.fpResult s d 1 ((fpFmt p).finish t.rnd (fpVal p (t.rx a)).sqrt)

/-- FMIN and FMAX (08 R185). -/
def State.fpMinMax (st : State) (s : Fin 4) (d a b : Fin 32) (p max : Bool) : Out :=
  st.checked [a.val, b.val] fun t =>
    let x := t.rx a
    let y := t.rx b
    t.fpResult s d 4 (minMaxCode (fpFmt p) max (fpVal p x) (fpVal p y) (fpCode p x) (fpCode p y))

/-- FMIN (08 R185). -/
def execFmin (s : Fin 4) (d a b : Fin 32) (p : Bool) (st : State) : Out := st.fpMinMax s d a b p false

/-- FMAX (08 R185). -/
def execFmax (s : Fin 4) (d a b : Fin 32) (p : Bool) (st : State) : Out := st.fpMinMax s d a b p true

/-- A comparison (08 R185): 0 when a source is NaN, NV for a signalling one, and for any NaN when `quiet` says so. -/
def State.fpCmp (st : State) (s : Fin 4) (d a b : Fin 32) (p quiet : Bool) (f : Val → Val → Bool) : Out :=
  st.checked [a.val, b.val] fun t =>
    let x := fpVal p (t.rx a)
    let y := fpVal p (t.rx b)
    let nan := x.isNan || y.isNan
    t.fpResult s d 4 (if !nan && f x y then 1 else 0, sigFlag [x, y] ||| flagIf (quiet && nan) NV)

/-- FCMP.EQ (08 R185). -/
def execFcmpEq (s : Fin 4) (d a b : Fin 32) (p : Bool) (st : State) : Out := st.fpCmp s d a b p false Val.eq

/-- FCMP.LT (08 R185). -/
def execFcmpLt (s : Fin 4) (d a b : Fin 32) (p : Bool) (st : State) : Out := st.fpCmp s d a b p true Val.lt

/-- FCMP.LE (08 R185). -/
def execFcmpLe (s : Fin 4) (d a b : Fin 32) (p : Bool) (st : State) : Out := st.fpCmp s d a b p true fun x y => !y.lt x

/-- FCLASS (08 R185). It raises nothing for a signalling NaN: DESIGN CHOICE, log entry 98. -/
def execFclass (s : Fin 4) (d a : Fin 32) (p : Bool) (st : State) : Out :=
  st.checked [a.val] fun t => t.fpResult s d 4 (classMask (fpFmt p) (fpVal p (t.rx a)), 0)

/-- FCVT (08 R186, 04 R93, R94): to i64, n64, f64 or f32. -/
def execFcvt (s : Fin 4) (d a : Fin 32) (t : Fmt) (p : Bool) (st : State) : Out :=
  st.checked (a.val :: st.rndRegs) fun u => u.fpResult s d 4 (convert (fpFmt p) t u.rnd (fpCode p (u.rx a)))

/-- FCVTI (08 R186, 04 R95): from i64, or with `n` from n64. -/
def execFcvti (s : Fin 4) (d a : Fin 32) (t : Fmt) (n : Bool) (st : State) : Out :=
  st.checked (a.val :: st.rndRegs) fun u => u.fpResult s d 4 (convert (if n then .n64 else .i64) t u.rnd (u.rx a).toNat)

end Sys2Proof.Machine
end

