-- ==== Sys2Proof/Machine/Words.lean ====
section
/-! DEFINITION. Words: the word of a queued vector operation, and the operation of a word (07 R159, R177): a save area
holds a queued word as its 32 bits (18 R342). -/

namespace Sys2Proof.Machine

/-- The word of a vector operation with its C and S; 0 for an operation that no word has. -/
def VOp.word (c : Nat) (s : Fin 4) : VOp → Nat
  | .int .add d a b => head c s 24 + 262144 * d.val + 8192 * a.val + 256 * b.val
  | .int .sub d a b => head c s 24 + 262144 * d.val + 8192 * a.val + 256 * b.val + 1
  | .int .mul d a b => head c s 24 + 262144 * d.val + 8192 * a.val + 256 * b.val + 2
  | .int .mulh d a b => head c s 24 + 262144 * d.val + 8192 * a.val + 256 * b.val + 3
  | .int .min d a b => head c s 24 + 262144 * d.val + 8192 * a.val + 256 * b.val + 4
  | .int .max d a b => head c s 24 + 262144 * d.val + 8192 * a.val + 256 * b.val + 5
  | .int .and d a b => head c s 24 + 262144 * d.val + 8192 * a.val + 256 * b.val + 6
  | .int .or d a b => head c s 24 + 262144 * d.val + 8192 * a.val + 256 * b.val + 7
  | .int .xor d a b => head c s 24 + 262144 * d.val + 8192 * a.val + 256 * b.val + 8
  | .int .andn d a b => head c s 24 + 262144 * d.val + 8192 * a.val + 256 * b.val + 9
  | .int .sll d a b => head c s 24 + 262144 * d.val + 8192 * a.val + 256 * b.val + 10
  | .int .srl d a b => head c s 24 + 262144 * d.val + 8192 * a.val + 256 * b.val + 11
  | .int .sra d a b => head c s 24 + 262144 * d.val + 8192 * a.val + 256 * b.val + 12
  | .int .adds d a b => head c s 24 + 262144 * d.val + 8192 * a.val + 256 * b.val + 13
  | .int .subs d a b => head c s 24 + 262144 * d.val + 8192 * a.val + 256 * b.val + 14
  | .int .avg d a b => head c s 24 + 262144 * d.val + 8192 * a.val + 256 * b.val + 15
  | .int .abs d a _ => head c s 24 + 262144 * d.val + 8192 * a.val + 16
  | .int .clz d a _ => head c s 24 + 262144 * d.val + 8192 * a.val + 17
  | .int .ffs d a _ => head c s 24 + 262144 * d.val + 8192 * a.val + 18
  | .int .popc d a _ => head c s 24 + 262144 * d.val + 8192 * a.val + 19
  | .intVs .add d a x => head c s 31 + 262144 * d.val + 8192 * a.val + 256 * x.val
  | .intVs .sub d a x => head c s 31 + 262144 * d.val + 8192 * a.val + 256 * x.val + 1
  | .intVs .mul d a x => head c s 31 + 262144 * d.val + 8192 * a.val + 256 * x.val + 2
  | .intVs .mulh d a x => head c s 31 + 262144 * d.val + 8192 * a.val + 256 * x.val + 3
  | .intVs .min d a x => head c s 31 + 262144 * d.val + 8192 * a.val + 256 * x.val + 4
  | .intVs .max d a x => head c s 31 + 262144 * d.val + 8192 * a.val + 256 * x.val + 5
  | .intVs .and d a x => head c s 31 + 262144 * d.val + 8192 * a.val + 256 * x.val + 6
  | .intVs .or d a x => head c s 31 + 262144 * d.val + 8192 * a.val + 256 * x.val + 7
  | .intVs .xor d a x => head c s 31 + 262144 * d.val + 8192 * a.val + 256 * x.val + 8
  | .intVs .andn d a x => head c s 31 + 262144 * d.val + 8192 * a.val + 256 * x.val + 9
  | .intVs .sll d a x => head c s 31 + 262144 * d.val + 8192 * a.val + 256 * x.val + 10
  | .intVs .srl d a x => head c s 31 + 262144 * d.val + 8192 * a.val + 256 * x.val + 11
  | .intVs .sra d a x => head c s 31 + 262144 * d.val + 8192 * a.val + 256 * x.val + 12
  | .intVs .adds d a x => head c s 31 + 262144 * d.val + 8192 * a.val + 256 * x.val + 13
  | .intVs .subs d a x => head c s 31 + 262144 * d.val + 8192 * a.val + 256 * x.val + 14
  | .intVs .avg d a x => head c s 31 + 262144 * d.val + 8192 * a.val + 256 * x.val + 15
  | .fp .add d a b => head c s 25 + 262144 * d.val + 8192 * a.val + 256 * b.val
  | .fp .sub d a b => head c s 25 + 262144 * d.val + 8192 * a.val + 256 * b.val + 1
  | .fp .mul d a b => head c s 25 + 262144 * d.val + 8192 * a.val + 256 * b.val + 2
  | .fp .mac d a b => head c s 25 + 262144 * d.val + 8192 * a.val + 256 * b.val + 3
  | .fp .nmac d a b => head c s 25 + 262144 * d.val + 8192 * a.val + 256 * b.val + 4
  | .fp .min d a b => head c s 25 + 262144 * d.val + 8192 * a.val + 256 * b.val + 5
  | .fp .max d a b => head c s 25 + 262144 * d.val + 8192 * a.val + 256 * b.val + 6
  | .fp .div d a b => head c s 25 + 262144 * d.val + 8192 * a.val + 256 * b.val + 9
  | .fp .abs d a _ => head c s 25 + 262144 * d.val + 8192 * a.val + 7
  | .fp .neg d a _ => head c s 25 + 262144 * d.val + 8192 * a.val + 8
  | .fp .sqrt d a _ => head c s 25 + 262144 * d.val + 8192 * a.val + 10
  | .fp .recip d a _ => head c s 25 + 262144 * d.val + 8192 * a.val + 11
  | .fp .exp2 d a _ => head c s 25 + 262144 * d.val + 8192 * a.val + 12
  | .fp .log2 d a _ => head c s 25 + 262144 * d.val + 8192 * a.val + 13
  | .fp .fclass d a _ => head c s 25 + 262144 * d.val + 8192 * a.val + 14
  | .fpVs .add d a x => head c s 32 + 262144 * d.val + 8192 * a.val + 256 * x.val
  | .fpVs .sub d a x => head c s 32 + 262144 * d.val + 8192 * a.val + 256 * x.val + 1
  | .fpVs .mul d a x => head c s 32 + 262144 * d.val + 8192 * a.val + 256 * x.val + 2
  | .fpVs .mac d a x => head c s 32 + 262144 * d.val + 8192 * a.val + 256 * x.val + 3
  | .fpVs .nmac d a x => head c s 32 + 262144 * d.val + 8192 * a.val + 256 * x.val + 4
  | .fpVs .min d a x => head c s 32 + 262144 * d.val + 8192 * a.val + 256 * x.val + 5
  | .fpVs .max d a x => head c s 32 + 262144 * d.val + 8192 * a.val + 256 * x.val + 6
  | .fpVs .div d a x => head c s 32 + 262144 * d.val + 8192 * a.val + 256 * x.val + 9
  | .cmp o m a b => head c s 26 + o.code + 262144 * m.val + 8192 * a.val + 256 * b.val
  | .fcmp o m a b => head c s 26 + o.code + 262144 * m.val + 8192 * a.val + 256 * b.val + 128
  | .slup d a x => head c s 27 + 262144 * d.val + 8192 * a.val + 8 * x.val
  | .sldn d a x => head c s 27 + 262144 * d.val + 8192 * a.val + 8 * x.val + 256
  | .dup d a x => head c s 27 + 262144 * d.val + 8192 * a.val + 8 * x.val + 1792
  | .comp d a => head c s 27 + 262144 * d.val + 8192 * a.val + 512
  | .exp d a => head c s 27 + 262144 * d.val + 8192 * a.val + 768
  | .trn d a p => head c s 27 + 262144 * d.val + 8192 * a.val + p.code + 1024
  | .iota d => head c s 27 + 262144 * d.val + 1280
  | .sel d a b => head c s 27 + 262144 * d.val + 8192 * a.val + 8 * b.val + 1536
  | .tbl d a h n f => head c s 27 + 262144 * d.val + 8192 * a.val + 256 * n.val + 2048 * bitNat h + f.toNat + 4096
  | .red .sum d a => head c s 28 + 262144 * d.val + 8192 * a.val
  | .red .max d a => head c s 28 + 262144 * d.val + 8192 * a.val + 1
  | .red .min d a => head c s 28 + 262144 * d.val + 8192 * a.val + 2
  | .red .and d a => head c s 28 + 262144 * d.val + 8192 * a.val + 3
  | .red .or d a => head c s 28 + 262144 * d.val + 8192 * a.val + 4
  | .red .xor d a => head c s 28 + 262144 * d.val + 8192 * a.val + 5
  | .scan d a => head c s 28 + 262144 * d.val + 8192 * a.val + 6
  | .cvt d a t => head c s 29 + 262144 * d.val + 8192 * a.val + 256 * t.code
  | .amul d a b => head c s 30 + 262144 * d.val + 8192 * a.val + 256 * b.val
  | .amac d a b => head c s 30 + 262144 * d.val + 8192 * a.val + 256 * b.val + 1
  | .aconj d a => head c s 30 + 262144 * d.val + 8192 * a.val + 2
  | .anorm d a => head c s 30 + 262144 * d.val + 8192 * a.val + 3
  | .ald j a => head c s 30 + 262144 * j.val + 8192 * a.val + 4
  | .scac d a k => head c s 30 + 262144 * d.val + 8192 * a.val + 256 * k.val + 5
  | .off true .mov d a _ dx dy dz => head c s 33 + 262144 * d.val + 8192 * a.val + 4 * dx.code + 16 * dy.code + 64 * dz.code
  | .off true .add d a b dx dy dz => head c s 33 + 262144 * d.val + 8192 * a.val + 4 * dx.code + 16 * dy.code + 64 * dz.code + 256 * b.val + 1
  | .off true .sub d a b dx dy dz => head c s 33 + 262144 * d.val + 8192 * a.val + 4 * dx.code + 16 * dy.code + 64 * dz.code + 256 * b.val + 2
  | .off true .mac d a b dx dy dz => head c s 33 + 262144 * d.val + 8192 * a.val + 4 * dx.code + 16 * dy.code + 64 * dz.code + 256 * b.val + 3
  | .off false .mov d a _ dx dy dz => head c s 34 + 262144 * d.val + 8192 * a.val + 4 * dx.code + 16 * dy.code + 64 * dz.code
  | .off false .add d a b dx dy dz => head c s 34 + 262144 * d.val + 8192 * a.val + 4 * dx.code + 16 * dy.code + 64 * dz.code + 256 * b.val + 1
  | .off false .sub d a b dx dy dz => head c s 34 + 262144 * d.val + 8192 * a.val + 4 * dx.code + 16 * dy.code + 64 * dz.code + 256 * b.val + 2
  | .off false .mac d a b dx dy dz => head c s 34 + 262144 * d.val + 8192 * a.val + 4 * dx.code + 16 * dy.code + 64 * dz.code + 256 * b.val + 3
  | .ld .space b a i => head c s 35 + 262144 * b.val + 8192 * a.val + 256 * i.val
  | .st .space b a i => head c s 35 + 262144 * b.val + 8192 * a.val + 256 * i.val + 1
  | .ld .lane b a i => head c s 36 + 262144 * b.val + 8192 * a.val + 256 * i.val
  | .st .lane b a i => head c s 36 + 262144 * b.val + 8192 * a.val + 256 * i.val + 1
  | .ld .cross b a i => head c s 37 + 262144 * b.val + 8192 * a.val + 256 * i.val
  | .st .cross b a i => head c s 37 + 262144 * b.val + 8192 * a.val + 256 * i.val + 1
  | .ldi b a i => head c s 38 + 262144 * b.val + 8192 * a.val + 256 * i.val
  | .sti b a i => head c s 38 + 262144 * b.val + 8192 * a.val + 256 * i.val + 1
  | .stia b a i => head c s 38 + 262144 * b.val + 8192 * a.val + 256 * i.val + 2
  | .lda b a i => head c s 39 + 262144 * b.val + 8192 * a.val + 256 * i.val
  | .gathb b a i m => head c s 39 + 262144 * b.val + 8192 * a.val + 256 * i.val + 32 * m.val + 1
  | .mask .and d a b => head c s 40 + 262144 * d.val + 8192 * a.val + 256 * b.val
  | .mask .or d a b => head c s 40 + 262144 * d.val + 8192 * a.val + 256 * b.val + 1
  | .mask .xor d a b => head c s 40 + 262144 * d.val + 8192 * a.val + 256 * b.val + 2
  | .mask .not d a _ => head c s 40 + 262144 * d.val + 8192 * a.val + 3
  | .mpopc d a => head c s 40 + 262144 * d.val + 8192 * a.val + 4
  | .mffs d a => head c s 40 + 262144 * d.val + 8192 * a.val + 5
  | .mset d a b => head c s 40 + 262144 * d.val + 8192 * a.val + 256 * b.val + 6
  | .mget d a b => head c s 40 + 262144 * d.val + 8192 * a.val + 256 * b.val + 7
  | .splat d x => head c s 41 + 262144 * d.val + 256 * x.val
  | .ext d a x => head c s 41 + 262144 * d.val + 8192 * a.val + 256 * x.val + 1
  | .ins d a x => head c s 41 + 262144 * d.val + 8192 * a.val + 256 * x.val + 2
  | .setl d a => head c s 41 + 262144 * d.val + 8192 * a.val + 3
  | .setb d a => head c s 41 + 262144 * d.val + 8192 * a.val + 4
  | .nbset d a b => head c s 42 + 262144 * d.val + 8192 * a.val + 256 * b.val
  | .nbget a b d => head c s 42 + 8192 * a.val + 256 * b.val + 262144 * d.val + 1
  | .waitv m a b x => head c s 42 + 32 * m.val + 262144 * a.val + 8192 * b.val + 256 * x.val + 2
  | .scld k a b => head c s 52 + 262144 * k.val + 8192 * a.val + 256 * b.val
  | _ => 0

/-- The vector operations of major 0x18. -/
def vop18 (w : Nat) : Option VOp :=
  if fld w 0 8 = 0 then
    some (.int .add (fin 32 (fld w 18 5)) (fin 32 (fld w 13 5)) (fin 32 (fld w 8 5)))
  else if fld w 0 8 = 1 then
    some (.int .sub (fin 32 (fld w 18 5)) (fin 32 (fld w 13 5)) (fin 32 (fld w 8 5)))
  else if fld w 0 8 = 2 then
    some (.int .mul (fin 32 (fld w 18 5)) (fin 32 (fld w 13 5)) (fin 32 (fld w 8 5)))
  else if fld w 0 8 = 3 then
    some (.int .mulh (fin 32 (fld w 18 5)) (fin 32 (fld w 13 5)) (fin 32 (fld w 8 5)))
  else if fld w 0 8 = 4 then
    some (.int .min (fin 32 (fld w 18 5)) (fin 32 (fld w 13 5)) (fin 32 (fld w 8 5)))
  else if fld w 0 8 = 5 then
    some (.int .max (fin 32 (fld w 18 5)) (fin 32 (fld w 13 5)) (fin 32 (fld w 8 5)))
  else if fld w 0 8 = 6 then
    some (.int .and (fin 32 (fld w 18 5)) (fin 32 (fld w 13 5)) (fin 32 (fld w 8 5)))
  else if fld w 0 8 = 7 then
    some (.int .or (fin 32 (fld w 18 5)) (fin 32 (fld w 13 5)) (fin 32 (fld w 8 5)))
  else if fld w 0 8 = 8 then
    some (.int .xor (fin 32 (fld w 18 5)) (fin 32 (fld w 13 5)) (fin 32 (fld w 8 5)))
  else if fld w 0 8 = 9 then
    some (.int .andn (fin 32 (fld w 18 5)) (fin 32 (fld w 13 5)) (fin 32 (fld w 8 5)))
  else if fld w 0 8 = 10 then
    some (.int .sll (fin 32 (fld w 18 5)) (fin 32 (fld w 13 5)) (fin 32 (fld w 8 5)))
  else if fld w 0 8 = 11 then
    some (.int .srl (fin 32 (fld w 18 5)) (fin 32 (fld w 13 5)) (fin 32 (fld w 8 5)))
  else if fld w 0 8 = 12 then
    some (.int .sra (fin 32 (fld w 18 5)) (fin 32 (fld w 13 5)) (fin 32 (fld w 8 5)))
  else if fld w 0 8 = 13 then
    some (.int .adds (fin 32 (fld w 18 5)) (fin 32 (fld w 13 5)) (fin 32 (fld w 8 5)))
  else if fld w 0 8 = 14 then
    some (.int .subs (fin 32 (fld w 18 5)) (fin 32 (fld w 13 5)) (fin 32 (fld w 8 5)))
  else if fld w 0 8 = 15 then
    some (.int .avg (fin 32 (fld w 18 5)) (fin 32 (fld w 13 5)) (fin 32 (fld w 8 5)))
  else if fld w 0 8 = 16 ∧ fld w 8 5 = 0 then
    some (.int .abs (fin 32 (fld w 18 5)) (fin 32 (fld w 13 5)) 0)
  else if fld w 0 8 = 17 ∧ fld w 8 5 = 0 then
    some (.int .clz (fin 32 (fld w 18 5)) (fin 32 (fld w 13 5)) 0)
  else if fld w 0 8 = 18 ∧ fld w 8 5 = 0 then
    some (.int .ffs (fin 32 (fld w 18 5)) (fin 32 (fld w 13 5)) 0)
  else if fld w 0 8 = 19 ∧ fld w 8 5 = 0 then
    some (.int .popc (fin 32 (fld w 18 5)) (fin 32 (fld w 13 5)) 0)
  else none

/-- The vector operations of major 0x19. -/
def vop19 (w : Nat) : Option VOp :=
  if fld w 0 8 = 0 then
    some (.fp .add (fin 32 (fld w 18 5)) (fin 32 (fld w 13 5)) (fin 32 (fld w 8 5)))
  else if fld w 0 8 = 1 then
    some (.fp .sub (fin 32 (fld w 18 5)) (fin 32 (fld w 13 5)) (fin 32 (fld w 8 5)))
  else if fld w 0 8 = 2 then
    some (.fp .mul (fin 32 (fld w 18 5)) (fin 32 (fld w 13 5)) (fin 32 (fld w 8 5)))
  else if fld w 0 8 = 3 then
    some (.fp .mac (fin 32 (fld w 18 5)) (fin 32 (fld w 13 5)) (fin 32 (fld w 8 5)))
  else if fld w 0 8 = 4 then
    some (.fp .nmac (fin 32 (fld w 18 5)) (fin 32 (fld w 13 5)) (fin 32 (fld w 8 5)))
  else if fld w 0 8 = 5 then
    some (.fp .min (fin 32 (fld w 18 5)) (fin 32 (fld w 13 5)) (fin 32 (fld w 8 5)))
  else if fld w 0 8 = 6 then
    some (.fp .max (fin 32 (fld w 18 5)) (fin 32 (fld w 13 5)) (fin 32 (fld w 8 5)))
  else if fld w 0 8 = 9 then
    some (.fp .div (fin 32 (fld w 18 5)) (fin 32 (fld w 13 5)) (fin 32 (fld w 8 5)))
  else if fld w 0 8 = 7 ∧ fld w 8 5 = 0 then
    some (.fp .abs (fin 32 (fld w 18 5)) (fin 32 (fld w 13 5)) 0)
  else if fld w 0 8 = 8 ∧ fld w 8 5 = 0 then
    some (.fp .neg (fin 32 (fld w 18 5)) (fin 32 (fld w 13 5)) 0)
  else if fld w 0 8 = 10 ∧ fld w 8 5 = 0 then
    some (.fp .sqrt (fin 32 (fld w 18 5)) (fin 32 (fld w 13 5)) 0)
  else if fld w 0 8 = 11 ∧ fld w 8 5 = 0 then
    some (.fp .recip (fin 32 (fld w 18 5)) (fin 32 (fld w 13 5)) 0)
  else if fld w 0 8 = 12 ∧ fld w 8 5 = 0 then
    some (.fp .exp2 (fin 32 (fld w 18 5)) (fin 32 (fld w 13 5)) 0)
  else if fld w 0 8 = 13 ∧ fld w 8 5 = 0 then
    some (.fp .log2 (fin 32 (fld w 18 5)) (fin 32 (fld w 13 5)) 0)
  else if fld w 0 8 = 14 ∧ fld w 8 5 = 0 then
    some (.fp .fclass (fin 32 (fld w 18 5)) (fin 32 (fld w 13 5)) 0)
  else none

/-- The vector operations of major 0x1A. -/
def vop1A (w : Nat) : Option VOp :=
  if fld w 7 1 = 0 ∧ fld w 3 4 = 0 ∧ fld w 21 2 = 0 then
    ((Cond.ofCode (fld w 0 3)).bind fun o => (if o = .un then none else some (.cmp o (fin 8 (fld w 18 3)) (fin 32 (fld w 13 5)) (fin 32 (fld w 8 5)))))
  else if fld w 7 1 = 1 ∧ fld w 3 4 = 0 ∧ fld w 21 2 = 0 then
    ((Cond.ofCode (fld w 0 3)).bind fun o => some (.fcmp o (fin 8 (fld w 18 3)) (fin 32 (fld w 13 5)) (fin 32 (fld w 8 5))))
  else none

/-- The vector operations of major 0x1B. -/
def vop1B (w : Nat) : Option VOp :=
  if fld w 12 1 = 0 ∧ fld w 8 4 = 0 ∧ fld w 0 3 = 0 then
    some (.slup (fin 32 (fld w 18 5)) (fin 32 (fld w 13 5)) (fin 32 (fld w 3 5)))
  else if fld w 12 1 = 0 ∧ fld w 8 4 = 1 ∧ fld w 0 3 = 0 then
    some (.sldn (fin 32 (fld w 18 5)) (fin 32 (fld w 13 5)) (fin 32 (fld w 3 5)))
  else if fld w 12 1 = 0 ∧ fld w 8 4 = 7 ∧ fld w 0 3 = 0 then
    some (.dup (fin 32 (fld w 18 5)) (fin 32 (fld w 13 5)) (fin 32 (fld w 3 5)))
  else if fld w 12 1 = 0 ∧ fld w 8 4 = 2 ∧ fld w 0 8 = 0 then
    some (.comp (fin 32 (fld w 18 5)) (fin 32 (fld w 13 5)))
  else if fld w 12 1 = 0 ∧ fld w 8 4 = 3 ∧ fld w 0 8 = 0 then
    some (.exp (fin 32 (fld w 18 5)) (fin 32 (fld w 13 5)))
  else if fld w 12 1 = 0 ∧ fld w 8 4 = 4 ∧ fld w 3 5 = 0 then
    ((Pair.ofCode (fld w 0 3)).bind fun p => some (.trn (fin 32 (fld w 18 5)) (fin 32 (fld w 13 5)) p))
  else if fld w 12 1 = 0 ∧ fld w 8 4 = 5 ∧ fld w 0 8 = 0 ∧ fld w 13 5 = 0 then
    some (.iota (fin 32 (fld w 18 5)))
  else if fld w 12 1 = 0 ∧ fld w 8 4 = 6 ∧ fld w 0 3 = 0 then
    some (.sel (fin 32 (fld w 18 5)) (fin 32 (fld w 13 5)) (fin 32 (fld w 3 5)))
  else if fld w 12 1 = 1 then
    some (.tbl (fin 32 (fld w 18 5)) (fin 32 (fld w 13 5)) (bit1 (fld w 11 1)) (fin 8 (fld w 8 3)) (BitVec.ofNat 8 (fld w 0 8)))
  else none

/-- The vector operations of major 0x1C. -/
def vop1C (w : Nat) : Option VOp :=
  if fld w 0 8 = 0 ∧ fld w 8 5 = 0 then
    some (.red .sum (fin 32 (fld w 18 5)) (fin 32 (fld w 13 5)))
  else if fld w 0 8 = 1 ∧ fld w 8 5 = 0 then
    some (.red .max (fin 32 (fld w 18 5)) (fin 32 (fld w 13 5)))
  else if fld w 0 8 = 2 ∧ fld w 8 5 = 0 then
    some (.red .min (fin 32 (fld w 18 5)) (fin 32 (fld w 13 5)))
  else if fld w 0 8 = 3 ∧ fld w 8 5 = 0 then
    some (.red .and (fin 32 (fld w 18 5)) (fin 32 (fld w 13 5)))
  else if fld w 0 8 = 4 ∧ fld w 8 5 = 0 then
    some (.red .or (fin 32 (fld w 18 5)) (fin 32 (fld w 13 5)))
  else if fld w 0 8 = 5 ∧ fld w 8 5 = 0 then
    some (.red .xor (fin 32 (fld w 18 5)) (fin 32 (fld w 13 5)))
  else if fld w 0 8 = 6 ∧ fld w 8 5 = 0 then
    some (.scan (fin 32 (fld w 18 5)) (fin 32 (fld w 13 5)))
  else none

/-- The vector operations of major 0x1D. -/
def vop1D (w : Nat) : Option VOp :=
  if fld w 0 8 = 0 then
    ((Fmt.ofCode (fld w 8 5)).bind fun t => some (.cvt (fin 32 (fld w 18 5)) (fin 32 (fld w 13 5)) t))
  else none

/-- The vector operations of major 0x1E. -/
def vop1E (w : Nat) : Option VOp :=
  if fld w 0 8 = 0 then
    some (.amul (fin 32 (fld w 18 5)) (fin 32 (fld w 13 5)) (fin 32 (fld w 8 5)))
  else if fld w 0 8 = 1 then
    some (.amac (fin 32 (fld w 18 5)) (fin 32 (fld w 13 5)) (fin 32 (fld w 8 5)))
  else if fld w 0 8 = 2 ∧ fld w 8 5 = 0 then
    some (.aconj (fin 32 (fld w 18 5)) (fin 32 (fld w 13 5)))
  else if fld w 0 8 = 3 ∧ fld w 8 5 = 0 then
    some (.anorm (fin 32 (fld w 18 5)) (fin 32 (fld w 13 5)))
  else if fld w 0 8 = 4 ∧ fld w 8 5 = 0 ∧ fld w 21 2 = 0 then
    some (.ald (fin 8 (fld w 18 3)) (fin 32 (fld w 13 5)))
  else if fld w 0 8 = 5 ∧ fld w 10 3 = 0 then
    some (.scac (fin 32 (fld w 18 5)) (fin 32 (fld w 13 5)) (fin 4 (fld w 8 2)))
  else none

/-- The vector operations of major 0x1F. -/
def vop1F (w : Nat) : Option VOp :=
  if fld w 0 8 = 0 then
    some (.intVs .add (fin 32 (fld w 18 5)) (fin 32 (fld w 13 5)) (fin 32 (fld w 8 5)))
  else if fld w 0 8 = 1 then
    some (.intVs .sub (fin 32 (fld w 18 5)) (fin 32 (fld w 13 5)) (fin 32 (fld w 8 5)))
  else if fld w 0 8 = 2 then
    some (.intVs .mul (fin 32 (fld w 18 5)) (fin 32 (fld w 13 5)) (fin 32 (fld w 8 5)))
  else if fld w 0 8 = 3 then
    some (.intVs .mulh (fin 32 (fld w 18 5)) (fin 32 (fld w 13 5)) (fin 32 (fld w 8 5)))
  else if fld w 0 8 = 4 then
    some (.intVs .min (fin 32 (fld w 18 5)) (fin 32 (fld w 13 5)) (fin 32 (fld w 8 5)))
  else if fld w 0 8 = 5 then
    some (.intVs .max (fin 32 (fld w 18 5)) (fin 32 (fld w 13 5)) (fin 32 (fld w 8 5)))
  else if fld w 0 8 = 6 then
    some (.intVs .and (fin 32 (fld w 18 5)) (fin 32 (fld w 13 5)) (fin 32 (fld w 8 5)))
  else if fld w 0 8 = 7 then
    some (.intVs .or (fin 32 (fld w 18 5)) (fin 32 (fld w 13 5)) (fin 32 (fld w 8 5)))
  else if fld w 0 8 = 8 then
    some (.intVs .xor (fin 32 (fld w 18 5)) (fin 32 (fld w 13 5)) (fin 32 (fld w 8 5)))
  else if fld w 0 8 = 9 then
    some (.intVs .andn (fin 32 (fld w 18 5)) (fin 32 (fld w 13 5)) (fin 32 (fld w 8 5)))
  else if fld w 0 8 = 10 then
    some (.intVs .sll (fin 32 (fld w 18 5)) (fin 32 (fld w 13 5)) (fin 32 (fld w 8 5)))
  else if fld w 0 8 = 11 then
    some (.intVs .srl (fin 32 (fld w 18 5)) (fin 32 (fld w 13 5)) (fin 32 (fld w 8 5)))
  else if fld w 0 8 = 12 then
    some (.intVs .sra (fin 32 (fld w 18 5)) (fin 32 (fld w 13 5)) (fin 32 (fld w 8 5)))
  else if fld w 0 8 = 13 then
    some (.intVs .adds (fin 32 (fld w 18 5)) (fin 32 (fld w 13 5)) (fin 32 (fld w 8 5)))
  else if fld w 0 8 = 14 then
    some (.intVs .subs (fin 32 (fld w 18 5)) (fin 32 (fld w 13 5)) (fin 32 (fld w 8 5)))
  else if fld w 0 8 = 15 then
    some (.intVs .avg (fin 32 (fld w 18 5)) (fin 32 (fld w 13 5)) (fin 32 (fld w 8 5)))
  else none

/-- The vector operations of major 0x20. -/
def vop20 (w : Nat) : Option VOp :=
  if fld w 0 8 = 0 then
    some (.fpVs .add (fin 32 (fld w 18 5)) (fin 32 (fld w 13 5)) (fin 32 (fld w 8 5)))
  else if fld w 0 8 = 1 then
    some (.fpVs .sub (fin 32 (fld w 18 5)) (fin 32 (fld w 13 5)) (fin 32 (fld w 8 5)))
  else if fld w 0 8 = 2 then
    some (.fpVs .mul (fin 32 (fld w 18 5)) (fin 32 (fld w 13 5)) (fin 32 (fld w 8 5)))
  else if fld w 0 8 = 3 then
    some (.fpVs .mac (fin 32 (fld w 18 5)) (fin 32 (fld w 13 5)) (fin 32 (fld w 8 5)))
  else if fld w 0 8 = 4 then
    some (.fpVs .nmac (fin 32 (fld w 18 5)) (fin 32 (fld w 13 5)) (fin 32 (fld w 8 5)))
  else if fld w 0 8 = 5 then
    some (.fpVs .min (fin 32 (fld w 18 5)) (fin 32 (fld w 13 5)) (fin 32 (fld w 8 5)))
  else if fld w 0 8 = 6 then
    some (.fpVs .max (fin 32 (fld w 18 5)) (fin 32 (fld w 13 5)) (fin 32 (fld w 8 5)))
  else if fld w 0 8 = 9 then
    some (.fpVs .div (fin 32 (fld w 18 5)) (fin 32 (fld w 13 5)) (fin 32 (fld w 8 5)))
  else none

/-- The vector operations of major 0x21. -/
def vop21 (w : Nat) : Option VOp :=
  if fld w 0 2 = 0 ∧ fld w 8 5 = 0 then
    ((Off.ofCode (fld w 2 2)).bind fun dx => ((Off.ofCode (fld w 4 2)).bind fun dy => ((Off.ofCode (fld w 6 2)).bind fun dz => some (.off true .mov (fin 32 (fld w 18 5)) (fin 32 (fld w 13 5)) 0 dx dy dz))))
  else if fld w 0 2 = 1 then
    ((Off.ofCode (fld w 2 2)).bind fun dx => ((Off.ofCode (fld w 4 2)).bind fun dy => ((Off.ofCode (fld w 6 2)).bind fun dz => some (.off true .add (fin 32 (fld w 18 5)) (fin 32 (fld w 13 5)) (fin 32 (fld w 8 5)) dx dy dz))))
  else if fld w 0 2 = 2 then
    ((Off.ofCode (fld w 2 2)).bind fun dx => ((Off.ofCode (fld w 4 2)).bind fun dy => ((Off.ofCode (fld w 6 2)).bind fun dz => some (.off true .sub (fin 32 (fld w 18 5)) (fin 32 (fld w 13 5)) (fin 32 (fld w 8 5)) dx dy dz))))
  else if fld w 0 2 = 3 then
    ((Off.ofCode (fld w 2 2)).bind fun dx => ((Off.ofCode (fld w 4 2)).bind fun dy => ((Off.ofCode (fld w 6 2)).bind fun dz => some (.off true .mac (fin 32 (fld w 18 5)) (fin 32 (fld w 13 5)) (fin 32 (fld w 8 5)) dx dy dz))))
  else none

/-- The vector operations of major 0x22. -/
def vop22 (w : Nat) : Option VOp :=
  if fld w 0 2 = 0 ∧ fld w 8 5 = 0 then
    ((Off.ofCode (fld w 2 2)).bind fun dx => ((Off.ofCode (fld w 4 2)).bind fun dy => ((Off.ofCode (fld w 6 2)).bind fun dz => some (.off false .mov (fin 32 (fld w 18 5)) (fin 32 (fld w 13 5)) 0 dx dy dz))))
  else if fld w 0 2 = 1 then
    ((Off.ofCode (fld w 2 2)).bind fun dx => ((Off.ofCode (fld w 4 2)).bind fun dy => ((Off.ofCode (fld w 6 2)).bind fun dz => some (.off false .add (fin 32 (fld w 18 5)) (fin 32 (fld w 13 5)) (fin 32 (fld w 8 5)) dx dy dz))))
  else if fld w 0 2 = 2 then
    ((Off.ofCode (fld w 2 2)).bind fun dx => ((Off.ofCode (fld w 4 2)).bind fun dy => ((Off.ofCode (fld w 6 2)).bind fun dz => some (.off false .sub (fin 32 (fld w 18 5)) (fin 32 (fld w 13 5)) (fin 32 (fld w 8 5)) dx dy dz))))
  else if fld w 0 2 = 3 then
    ((Off.ofCode (fld w 2 2)).bind fun dx => ((Off.ofCode (fld w 4 2)).bind fun dy => ((Off.ofCode (fld w 6 2)).bind fun dz => some (.off false .mac (fin 32 (fld w 18 5)) (fin 32 (fld w 13 5)) (fin 32 (fld w 8 5)) dx dy dz))))
  else none

/-- The vector operations of major 0x23. -/
def vop23 (w : Nat) : Option VOp :=
  if fld w 0 8 = 0 then
    some (.ld .space (fin 32 (fld w 18 5)) (fin 32 (fld w 13 5)) (fin 32 (fld w 8 5)))
  else if fld w 0 8 = 1 then
    some (.st .space (fin 32 (fld w 18 5)) (fin 32 (fld w 13 5)) (fin 32 (fld w 8 5)))
  else none

/-- The vector operations of major 0x24. -/
def vop24 (w : Nat) : Option VOp :=
  if fld w 0 8 = 0 then
    some (.ld .lane (fin 32 (fld w 18 5)) (fin 32 (fld w 13 5)) (fin 32 (fld w 8 5)))
  else if fld w 0 8 = 1 then
    some (.st .lane (fin 32 (fld w 18 5)) (fin 32 (fld w 13 5)) (fin 32 (fld w 8 5)))
  else none

/-- The vector operations of major 0x25. -/
def vop25 (w : Nat) : Option VOp :=
  if fld w 0 8 = 0 then
    some (.ld .cross (fin 32 (fld w 18 5)) (fin 32 (fld w 13 5)) (fin 32 (fld w 8 5)))
  else if fld w 0 8 = 1 then
    some (.st .cross (fin 32 (fld w 18 5)) (fin 32 (fld w 13 5)) (fin 32 (fld w 8 5)))
  else none

/-- The vector operations of major 0x26. -/
def vop26 (w : Nat) : Option VOp :=
  if fld w 0 8 = 0 then
    some (.ldi (fin 32 (fld w 18 5)) (fin 32 (fld w 13 5)) (fin 32 (fld w 8 5)))
  else if fld w 0 8 = 1 then
    some (.sti (fin 32 (fld w 18 5)) (fin 32 (fld w 13 5)) (fin 32 (fld w 8 5)))
  else if fld w 0 8 = 2 then
    some (.stia (fin 32 (fld w 18 5)) (fin 32 (fld w 13 5)) (fin 32 (fld w 8 5)))
  else none

/-- The vector operations of major 0x27. -/
def vop27 (w : Nat) : Option VOp :=
  if fld w 0 5 = 0 ∧ fld w 5 3 = 0 then
    some (.lda (fin 32 (fld w 18 5)) (fin 32 (fld w 13 5)) (fin 32 (fld w 8 5)))
  else if fld w 0 5 = 1 then
    some (.gathb (fin 32 (fld w 18 5)) (fin 32 (fld w 13 5)) (fin 32 (fld w 8 5)) (fin 8 (fld w 5 3)))
  else none

/-- The vector operations of major 0x28. -/
def vop28 (w : Nat) : Option VOp :=
  if fld w 0 8 = 0 ∧ fld w 21 2 = 0 ∧ fld w 16 2 = 0 ∧ fld w 11 2 = 0 then
    some (.mask .and (fin 8 (fld w 18 3)) (fin 8 (fld w 13 3)) (fin 8 (fld w 8 3)))
  else if fld w 0 8 = 1 ∧ fld w 21 2 = 0 ∧ fld w 16 2 = 0 ∧ fld w 11 2 = 0 then
    some (.mask .or (fin 8 (fld w 18 3)) (fin 8 (fld w 13 3)) (fin 8 (fld w 8 3)))
  else if fld w 0 8 = 2 ∧ fld w 21 2 = 0 ∧ fld w 16 2 = 0 ∧ fld w 11 2 = 0 then
    some (.mask .xor (fin 8 (fld w 18 3)) (fin 8 (fld w 13 3)) (fin 8 (fld w 8 3)))
  else if fld w 0 8 = 3 ∧ fld w 21 2 = 0 ∧ fld w 16 2 = 0 ∧ fld w 8 5 = 0 then
    some (.mask .not (fin 8 (fld w 18 3)) (fin 8 (fld w 13 3)) 0)
  else if fld w 0 8 = 4 ∧ fld w 16 2 = 0 ∧ fld w 8 5 = 0 then
    some (.mpopc (fin 32 (fld w 18 5)) (fin 8 (fld w 13 3)))
  else if fld w 0 8 = 5 ∧ fld w 16 2 = 0 ∧ fld w 8 5 = 0 then
    some (.mffs (fin 32 (fld w 18 5)) (fin 8 (fld w 13 3)))
  else if fld w 0 8 = 6 ∧ fld w 21 2 = 0 then
    some (.mset (fin 8 (fld w 18 3)) (fin 32 (fld w 13 5)) (fin 32 (fld w 8 5)))
  else if fld w 0 8 = 7 ∧ fld w 16 2 = 0 then
    some (.mget (fin 32 (fld w 18 5)) (fin 8 (fld w 13 3)) (fin 32 (fld w 8 5)))
  else none

/-- The vector operations of major 0x29. -/
def vop29 (w : Nat) : Option VOp :=
  if fld w 0 8 = 0 ∧ fld w 13 5 = 0 then
    some (.splat (fin 32 (fld w 18 5)) (fin 32 (fld w 8 5)))
  else if fld w 0 8 = 1 then
    some (.ext (fin 32 (fld w 18 5)) (fin 32 (fld w 13 5)) (fin 32 (fld w 8 5)))
  else if fld w 0 8 = 2 then
    some (.ins (fin 32 (fld w 18 5)) (fin 32 (fld w 13 5)) (fin 32 (fld w 8 5)))
  else if fld w 0 8 = 3 ∧ fld w 8 5 = 0 then
    some (.setl (fin 32 (fld w 18 5)) (fin 32 (fld w 13 5)))
  else if fld w 0 8 = 4 ∧ fld w 8 5 = 0 then
    some (.setb (fin 32 (fld w 18 5)) (fin 32 (fld w 13 5)))
  else none

/-- The vector operations of major 0x2A. -/
def vop2A (w : Nat) : Option VOp :=
  if fld w 0 5 = 0 ∧ fld w 5 3 = 0 then
    some (.nbset (fin 32 (fld w 18 5)) (fin 32 (fld w 13 5)) (fin 32 (fld w 8 5)))
  else if fld w 0 5 = 1 ∧ fld w 5 3 = 0 then
    some (.nbget (fin 32 (fld w 13 5)) (fin 32 (fld w 8 5)) (fin 32 (fld w 18 5)))
  else if fld w 0 5 = 2 then
    some (.waitv (fin 8 (fld w 5 3)) (fin 32 (fld w 18 5)) (fin 32 (fld w 13 5)) (fin 32 (fld w 8 5)))
  else none

/-- The vector operations of major 0x34. -/
def vop34 (w : Nat) : Option VOp :=
  if fld w 0 8 = 0 ∧ fld w 20 3 = 0 then
    some (.scld (fin 4 (fld w 18 2)) (fin 32 (fld w 13 5)) (fin 32 (fld w 8 5)))
  else none

/-- The vector operation of a word (07 R176), none for a word that is not one. -/
def VOp.ofWord (w : Nat) : Option VOp :=
  match fld w 23 6 with
  | 24 => vop18 w
  | 25 => vop19 w
  | 26 => vop1A w
  | 27 => vop1B w
  | 28 => vop1C w
  | 29 => vop1D w
  | 30 => vop1E w
  | 31 => vop1F w
  | 32 => vop20 w
  | 33 => vop21 w
  | 34 => vop22 w
  | 35 => vop23 w
  | 36 => vop24 w
  | 37 => vop25 w
  | 38 => vop26 w
  | 39 => vop27 w
  | 40 => vop28 w
  | 41 => vop29 w
  | 42 => vop2A w
  | 52 => vop34 w
  | _ => none

end Sys2Proof.Machine
end

