-- ==== Sys2Proof/Machine/Image.lean ====
section
/-! DEFINITION. Image: the save area (18 R340 to R342): a context's state as bytes, saving a thread (R335, R338) and
loading one, and the claim area (15 R282). -/

namespace Sys2Proof.Machine

/-! ### The layout -/

/-- Dwords as bytes. -/
def dwBytes (l : List Word) : List Byte := l.flatMap fun w => leBytes 8 w.toNat

/-- Whether a queued word has processed every group: such a word is not saved (18 R335). -/
def VEntry.complete (e : VEntry) : Bool := (e.started || e.resumed) && !e.op.solo && e.finished

/-- The code of a queue in a word entry (18 R342). -/
def VQ.code : VQ → Nat
  | .load => 0 | .arith => 1 | .store => 2

/-- Whether the scalar operand that a word captures in its first place is its xs, which a word entry holds in the second (18 R342). -/
def VOp.xsSecond : VOp → Bool
  | .intVs .. | .fpVs .. | .slup .. | .sldn .. | .dup .. | .splat .. | .ext .. | .waitv .. => true
  | _ => false

/-- A word entry (18 R342), 128 bytes. -/
def VEntry.bytesOf (e : VEntry) : List Byte :=
  let head := e.op.word (if e.cv then 1 else 0) e.s + e.q.code * 2 ^ 32 + (if e.started || e.resumed then 2 ^ 34 else 0) +
    e.prog % 8 * 2 ^ 35 + (if e.cv then 2 ^ 39 else 0)
  let (p, q) := if e.op.xsSecond then (e.xb, e.xa) else (e.xa, e.xb)
  dwBytes [word head, e.addr, p, q, e.xi, e.ctl.vl, e.ctl.vm, e.ctl.vs, e.ctl.vt, e.ctl.vmt, e.ctl.vf, e.ctl.seed, e.icnt, 0, 0, 0]

/-- The words of an area: those not complete, 48 at most. -/
def savedWords (l : List VEntry) : List VEntry := (l.filter fun e => !e.complete).take 48

/-- The words of an area as its 6,144 bytes. -/
def wordsBytes (l : List VEntry) : List Byte :=
  (savedWords l).flatMap (·.bytesOf) ++ List.replicate (6144 - 128 * (savedWords l).length) 0

/-- The offset of the claim area from CSA (15 R278), and the size of an image. -/
def claimOff : Nat := 0x14000
def imageBytes : Nat := 0x14000

/-- The regions marked V (18 R340), by offset. -/
def Ctx.vRegions (k : Ctx) (words : List VEntry) : List (Nat × List Byte) :=
  [(0x0, (List.range 32).flatMap fun n => leBytes 2048 (k.brick n).toNat),
   (0x10000, (List.range 8).flatMap fun n => leBytes 512 (k.mask n).toNat),
   (0x11000, (List.range 4).flatMap fun n => leBytes 512 (k.scale n).toNat),
   (0x11C00, (List.range 32).flatMap fun n => dwBytes [(k.link n).1, (k.link n).2]),
   (0x11E00, (List.range 32).map fun n => BitVec.ofNat 8 (k.land n).toNat),
   (0x12400, wordsBytes words)]

/-- A system register of context scope (15 R277), 0 for a number that names none. -/
def Sys.get (y : Sys) (r : Nat) : Word :=
  if r = 0 then word (y.cpl.code + 4 * y.ppl.code + 16 * y.mppl.code)
  else if r = 2 then y.epc
  else if r = 3 then y.ecause
  else if 8 ≤ r && r < 16 then y.frec.dw (r - 8)
  else if r = 0x10 then y.ssa
  else if r = 0x11 then y.ssb
  else if r = 0x12 then y.csa
  else if r = 0x31 then y.mepc
  else if r = 0x32 then y.mcause
  else if 0x38 ≤ r && r < 0x40 then y.mfrec.dw (r - 0x38)
  else 0

/-- A user control register as it stands (03 R58), 0 for a number that names none. -/
def State.ctlAny (st : State) (c r : Nat) : Word :=
  if ctlRW r then (st.ctx c).ctrl.get r else if ctlRO r then st.ctlLive c r else 0

/-- The thread-state block (18 R341) of a whole image. -/
def Ctx.stateBlock (k : Ctx) (c slots : Nat) (words : List VEntry) : List Byte :=
  dwBytes [word ((savedWords words).length * 2 ^ 28 + c * 2 ^ 18 + 2 ^ 16 + 0x5A17), k.pc, k.icnt, word slots, word k.sptr, k.waited, 0, 0]

/-- The image of context c's thread (18 R340), whose slots of its core are `slots`. -/
def State.imageOf (st : State) (c slots : Nat) (t : Thread) : List (Nat × List Byte) :=
  let k := st.ctx c
  k.vRegions k.vq ++
  [(0x11800, dwBytes ((List.range 32).map k.rx)),
   (0x11900, dwBytes ((List.range 32).map (st.ctlAny c))),
   (0x11A00, dwBytes ((List.range 64).map k.sys.get)),
   (0x11E20, dwBytes [word k.clock.c0, word k.clock.c1, word k.clock.c2, word k.clock.c3]),
   (0x11E40, k.stateBlock c slots k.vq),
   (0x11E80, dwBytes t.r.list),
   (0x11EC0, List.replicate 64 0),
   (0x11F00, (List.range 64).map fun s => BitVec.ofNat 8 (k.lane s).toNat),
   (0x11F40, List.replicate 192 0),
   (0x12000, (List.range 7).flatMap fun j => leBytes 72 (k.table (j + 1)).toNat),
   (0x121F8, List.replicate 520 0),
   (0x13C00, List.replicate 1024 0)]

/-- Bytes written to an area at physical addresses, with no translation (15 R282). -/
def State.writeArea (st : State) (c pa : Nat) (l : List (Nat × List Byte)) : State :=
  l.foldl (fun t x => t.deviceWrite (dieOf (coreOf c)) (span (pa + x.1) x.2.length) x.2 (st.ctx c).clock) st

/-! ### Reading an area -/

/-- The number n bytes of an area hold, and a dword of it. -/
def State.areaNat (st : State) (pa n : Nat) : Nat := leNat ((span pa n).map st.peek)
def State.areaWord (st : State) (pa : Nat) : Word := word (st.areaNat pa 8)

/-- A word as its entry in an area has it, served with the thread's clock `clk` from then on (18 R342); what the image does not hold
is as the device kept it (log entry 28). -/
def State.wordAt (st : State) (clk : Clock) (pa : Nat) (e : VEntry) : Option VEntry :=
  let h := st.areaWord pa
  let d := fun (i : Nat) => st.areaWord (pa + 8 * i)
  (VOp.ofWord (fldW h 0 32)).map fun op =>
    let (xa, xb) := if op.xsSecond then (d 3, d 2) else (d 2, d 3)
    { e with op := op, s := Fin.ofNat 4 (fldW h 29 2), q := op.queue, cv := bitW h 39, started := false, resumed := bitW h 34
             prog := fldW h 35 3 + (if bitW h 38 then 8 else 0), addr := d 1, xa := xa, xb := xb, xi := d 4, clock := e.clock.join clk
             ctl := ⟨d 5, d 6, d 7, d 8, d 9, d 10, d 11⟩, icnt := d 12 }

/-- The words of an area, by those the device keeps: a complete one stays as it is, and each other one takes the next
entry. -/
def State.wordsAt (st : State) (clk : Clock) (pa : Nat) : List VEntry → Nat → List VEntry
  | [], _ => []
  | e :: t, n =>
    if e.complete || 48 ≤ n then e :: st.wordsAt clk pa t n
    else match st.wordAt clk (pa + 0x12400 + 128 * n) e with
      | some x => x :: st.wordsAt clk pa t (n + 1)
      | none => st.wordsAt clk pa t (n + 1)

/-- The regions marked V loaded from an area, but for the words. A link can hold no value that R71 refuses: images that hold one
are not taken, as NBSET does not take them, and the links stay (log entry 57). -/
def State.loadV (st : State) (pa : Nat) (k : Ctx) : Ctx :=
  let links := fun (k : Ctx) (n : Nat) =>
    let xa := st.areaWord (pa + 0x11C00 + 16 * n)
    let xb := st.areaWord (pa + 0x11C08 + 16 * n)
    if linksOkA xa xb && linksOkB xb then k.setLink n (xa, xb &&& 0xFFFFFFFFFFF) else k
  let k := (List.range 32).foldl (fun k n =>
    (links (k.setBrick n (BitVec.ofNat 16384 (st.areaNat (pa + 2048 * n) 2048))) n).setLand n
      (BitVec.ofNat 8 (st.peek (pa + 0x11E00 + n)).toNat)) k
  let k := (List.range 8).foldl (fun k n => k.setMask n (BitVec.ofNat 4096 (st.areaNat (pa + 0x10000 + 512 * n) 512))) k
  (List.range 4).foldl (fun k n => k.setScale n (BitVec.ofNat 4096 (st.areaNat (pa + 0x11000 + 512 * n) 512))) k

/-- User control registers loaded from an area: a value that CRW refuses is not taken. -/
def State.loadCtl (st : State) (pa : Nat) (rs : List Nat) (k : Ctrl) : Ctrl :=
  rs.foldl (fun k r =>
    let v := st.areaWord (pa + 0x11900 + 8 * r)
    if ctlRefused r v then k else k.put r (ctlKeep r v)) k

/-- The RW control registers (03 R58), and those CLAIM saves (15 R282). -/
def ctlAll : List Nat := (List.range 0x1C).filter ctlRW
def ctlClaimed : List Nat := List.range 7

/-- The system registers of context scope loaded from an area. A level coded 10 is never held (15 R275): U stands for it. -/
def State.loadSys (st : State) (pa : Nat) : Sys :=
  let d := fun (r : Nat) => st.areaWord (pa + 0x11A00 + 8 * r)
  let lvl := fun (lo : Nat) => (Level.ofCode (fldW (d 0) lo 2)).getD .u
  { cpl := lvl 0, ppl := lvl 2, mppl := lvl 4, epc := d 2, ecause := d 3 &&& 0xE0FF
    frec := Rec8.ofList ((List.range 8).map fun i => d (8 + i)), ssa := d 0x10, ssb := d 0x11, csa := d 0x12 &&& 0x0000FFFFFFFFF000
    mepc := d 0x31, mcause := d 0x32 &&& 0xE0FF, mfrec := Rec8.ofList ((List.range 8).map fun i => d (0x38 + i)) }

/-- What a core meets in the storage of an area (17 R325, 18 R345, R347): the first line that cannot be reached or rebuilt, as a trap code
with its detail, whose address is the physical one (DESIGN CHOICE, log entry 104). -/
def State.areaFails (st : State) (core pa n : Nat) : Option (Nat × Detail) :=
  match st.brokenLink core (linesOf pa n) with
  | some l => some (Code.link, { d0 := word l })
  | none => ((linesOf pa n).find? st.unreadable).map fun a => (Code.eccUncorr, { va := word a })
/-- The lines of an area that a core's read rebuilds are reported (17 R325). -/
def State.areaRead (st : State) (core pa n : Nat) : State := st.rebuildFor core (linesOf pa n)

/-! ### CLAIM's area -/

/-- Whether a write of a stopped store waits for something that a frozen side does not do: an earlier load of its own thread (07 R170), or
what another stopped store has still to write (log entry 27). -/
def State.stoodOff (st : State) (w : Write) (p : WPart) : Bool :=
  let pas := p.locs.map st.visible
  st.readFirst w.ctx w.id pas || st.stoppedAhead w.ctx (some w.die.val) w.clock pas
/-- Whether the element writes of the groups that a context's stopped stores have completed are applied (18 R335), those that stand off
apart, with what follows them to the same bytes. -/
def State.storesRest (st : State) (c : Nat) : Bool :=
  let off := (st.writes.filter fun w => w.ctx = c).flatMap fun w => (w.parts.filter (st.stoodOff w)).flatMap fun p => p.locs.map st.visible
  st.writes.all fun w => w.ctx ≠ c || !w.growing || w.parts.all fun p => overlaps (p.locs.map st.visible) off

/-- Whether the vector side of a context is quiescent but for its queued words (15 R282, 18 R335, 03 R78): nothing has still to land,
what its stores have completed is applied, and no REMOTE read that another context's running convoy has resolved to it is unserved. -/
def State.quiescent (st : State) (c : Nat) : Bool :=
  (st.ctx c).landing = [] && st.storesRest c && st.ctxs.all fun k => k.1 = c || k.2.vq.all fun e =>
    !e.started || e.res.all fun x => match x.2 with
      | .reg s r i => s ≠ c || e.served.any fun v => v.ctx = s && v.reg = r && v.group = i / groupElems e.w
      | _ => true

/-- The claim area of a context written (15 R282). -/
def State.claimArea (st : State) (c : Nat) (csa : Word) : State :=
  let k := st.ctx c
  st.writeArea c (csa.toNat + claimOff)
    (k.vRegions (resumeWords k.vq) ++ ctlClaimed.map fun r => (0x11900 + 8 * r, dwBytes [k.ctrl.get r]))

/-- A context with everything CLAIM saved loaded again (15 R283). -/
def State.reclaim (st : State) (csa : Word) (words : List VEntry) (k : Ctx) : Ctx :=
  let pa := csa.toNat + claimOff
  { (st.loadV pa k) with ctrl := st.loadCtl pa ctlClaimed k.ctrl, vq := st.wordsAt k.clock pa words 0 }

/-! ### Saving a thread -/

/-- Whether a thread that is to be saved stands at its boundary (18 R335, R338): inside a handler only PARK saves it; its
loose writes and the additions of its VSTIA are performed, no status of a push is on its way, and the vector side is
quiescent. A thread whose launch is cancelled is not saved: it ends (02 R37, 15 R292). -/
def State.saveReady (st : State) (c : Nat) : Bool :=
  let k := st.ctx c
  match k.saving, k.thread with
  | some r, some t =>
    !(st.launch t.part t.lid).cancelled && (r.park || !k.inTrap) && st.quiescent c && k.loose = [] && k.reads = [] && (match k.wait with | some (.push _ _) => false | _ => true) &&
      st.writes.all fun w => w.ctx ≠ c || w.parts.all fun p => p.rmw.isNone
  | _, _ => false

/-- The context as its image has it: a convoy that has not issued whole is issued again, words in flight have progress
indices, and the time waited is kept (18 R336, R339, R341, log entry 17). -/
def State.stopped (st : State) (c : Nat) : Ctx :=
  let k := st.ctx c
  let open_ := fun (e : VEntry) => !e.numbered || st.writes.any fun w => w.ctx = c && w.id = e.stores && w.growing
  let tidy := fun (l : List VEntry) => l.map fun e => if open_ e then e else { e with stores := 0 }
  let k := match k.opened with
    | [] => k
    | e :: _ => { k with opened := [], pc := e.addr, icnt := e.icnt }
  { k with
    vq := tidy (resumeWords k.vq)
    claims := tidy k.claims
    mclaims := tidy k.mclaims
    waited := if k.wait.isSome then k.waited + Config.cycles st.tick c else k.waited
    wait := none }

/-- The thread of context c is saved (18 R338): its image is written, its slots are held for it (02 R48), and the context
is free. Stores that it has still to perform stay counted in the context's WIC (03 R59, log entry 29). -/
def State.saveThread (st : State) (c : Nat) : State :=
  match (st.ctx c).saving, (st.ctx c).thread with
  | some r, some t =>
    let pa := match r.pool with | some i => (st.part t.part).ppb.toNat + imageBytes * i | none => r.pa
    let mine := st.ownSlots c
    let held := mine.map fun e => (e.1, e.2.1)
    let slots := held.foldl (fun n e => if e.1 = coreOf c && e.2 < 64 then n + 2 ^ e.2 else n) 0
    let k := st.stopped c
    let st := st.setCtx c fun _ => k
    let st := st.writeArea c pa (st.imageOf c slots t)
    let st := st.setPart t.part fun q => { q with images := q.images ++ [{
      pa := pa, ctx := c, lid := t.lid, pool := r.pool, park := r.park
      holds := k.holds, eff := t.r.pri, uid := t.uid, words := k.vq, held := held, claims := k.claims, mclaims := k.mclaims
      fences := k.fences, clock := k.clock.join k.vclock }] }
    let st := held.foldl (fun t e => t.setSlot e.1 e.2 fun x => { x with saved := true }) st
    { st.setCtx c fun k => { k with vq := [], opened := [], claims := [], mclaims := [] }.freed none with
      writes := st.writes.map fun (w : Write) => if w.ctx = c && w.growing then { w with ctx := 1000 + t.uid } else w }
  | _, _ => st

/-! ### Loading a thread -/

/-- A thread's image loaded into its context (15 R289, R291, 16 R304): all the image holds, and its slots. The context's clock is
never lowered (05 R118). -/
def State.loadImage (st : State) (p : Nat) (i : Image) : State :=
  let pa := i.pa
  let st := st.areaRead (coreOf i.ctx) pa imageBytes
  let r := Rec8.ofList ((List.range 8).map fun j => st.areaWord (pa + 0x11E80 + 8 * j))
  let k0 := st.ctx i.ctx
  let clk := k0.clock.join ⟨(st.areaWord (pa + 0x11E20)).toNat, (st.areaWord (pa + 0x11E28)).toNat, (st.areaWord (pa + 0x11E30)).toNat, (st.areaWord (pa + 0x11E38)).toNat⟩
  let words := st.wordsAt clk pa i.words 0
  let d := fun (j : Nat) => st.areaWord (pa + 0x11E40 + 8 * j)
  let k := st.loadV pa { k0.break with landing := [], opened := [] }
  let k := { k with
    x := (List.range 32).foldl (fun t n => if n = 0 then t else tset 0 t n (st.areaWord (pa + 0x11800 + 8 * n))) []
    ctrl := st.loadCtl pa ctlAll {}
    sys := st.loadSys pa
    clock := clk
    tabs := (List.range 7).foldl (fun t j =>
      let b : BitVec 576 := BitVec.ofNat 576 (st.areaNat (pa + 0x12000 + 72 * j) 72)
      if badTable b then t else tset (resetTable (j + 1)) t (j + 1) b) []
    flags := (List.range 64).foldl (fun t s => tset 0 t s (BitVec.ofNat 7 (st.peek (pa + 0x11F00 + s)).toNat)) []
    pc := d 1, icnt := d 2, sptr := fldW (d 4) 0 6, waited := d 5
    vq := words, claims := i.claims, mclaims := i.mclaims, holds := i.holds, fences := i.fences
    thread := some ⟨r, p, r.lid, (st.launch p r.lid).job, i.uid⟩
    prev := none, wait := none, saving := none, yielded := false, vstep := 0 }
  let st := st.setCtx i.ctx fun _ => k
  let st := { st with writes := st.writes.map fun (w : Write) => if w.ctx = 1000 + i.uid then { w with ctx := i.ctx } else w }
  let st := i.held.foldl (fun t e => t.setSlot e.1 e.2 fun x => if x.saved && x.owner = some i.ctx then { x with saved := false } else x) st
  st.setPart p fun q => { q with images := q.images.filter fun j => j ≠ i }

/-- The image is marked spent (15 R289, 18 R341). -/
def State.markSpent (st : State) (c pa : Nat) : State :=
  st.deviceWrite (dieOf (coreOf c)) [pa + 0x11E42] [st.peek (pa + 0x11E42) ||| 2] {}

/-- A thread resumed by the device itself, from the pre-emption pool or a park: one whose area has lost a line traps ECC_UNCORR before its
first word, or LINK (17 R325, 18 R345, R347; log entry 104). -/
def State.resumeImage (st : State) (p : Nat) (i : Image) : State :=
  let t := (st.loadImage p i).markSpent i.ctx i.pa
  match st.areaFails (coreOf i.ctx) i.pa imageBytes with
  | some (code, det) => t.trapWord i.ctx code det (t.ctx i.ctx).pc (t.ctx i.ctx).pc false
  | none => t

/-- Whether an image in memory is one that may be loaded into context c (18 R341). -/
def State.imageValid (st : State) (p c pa : Nat) : Bool :=
  let h := st.areaWord (pa + 0x11E40)
  let r := Rec8.ofList ((List.range 8).map fun j => st.areaWord (pa + 0x11E80 + 8 * j))
  fldW h 0 16 = 0x5A17 && bitW h 16 && !bitW h 17 && fldW h 18 10 = c && st.alive p r.lid

end Sys2Proof.Machine
end

