-- ==== Sys2Proof/Machine/System.lean ====
section
/-! DEFINITION. System: the words of major 0x3E (15 R275 to R293): CLAIM and TRET, the system registers, TLBI, BSET, moving
threads, HALT, PARK, PCAN and SEQR; and PART (19 R354). -/

namespace Sys2Proof.Machine

/-! ### Levels -/

/-- The common part of a system word (15 R275): it traps PRIV at U, and below M where it needs M; then its distances are
checked (07 R162, R166). `w` is the word. -/
def State.system (st : State) (w : Word) (needM : Bool) (srcs : List Nat) (f : State → Out) : Out :=
  if st.me.sys.cpl = .u || (needM && st.me.sys.cpl ≠ .m) then .next (st.trap Code.priv { d0 := w })
  else st.checked srcs f

/-- The word of a system instruction of three registers. -/
def sysWord (s : Fin 4) (d a b fn : Nat) : Word := xrWord 0x3E s d a b fn

/-! ### CLAIM and TRET -/

/-- The cause register of the current level. -/
def Ctx.cause (k : Ctx) : Word := if k.sys.cpl = .m then k.sys.mcause else k.sys.ecause

/-- Whether CLAIM has something to save (15 R282). -/
def Ctx.claimable (k : Ctx) : Bool := bitW k.cause 15 && !bitW k.cause 14

/-- CLAIM, once the vector side is quiescent (15 R282): the claim area is written, CLM is set, and the queues are empty. -/
def State.claimDone (st : State) (s : Fin 4) (d : Fin 32) : Out :=
  if !st.me.claimable then .next (st.interlocked s d 1)
  else
    let st := st.claimArea st.cur st.me.sys.csa
    .next ((st.setMe fun k =>
      let ws := resumeWords k.vq
      if k.sys.cpl = .m then { k with vq := [], mclaims := ws, sys := { k.sys with mcause := k.sys.mcause ||| 0x4000 } }
      else { k with vq := [], claims := ws, sys := { k.sys with ecause := k.sys.ecause ||| 0x4000 } }).interlocked s d 0)

/-- CLAIM (15 R282). -/
def execClaim (s : Fin 4) (d : Fin 32) (st : State) : Out :=
  st.system (sysWord s d.val 0 0 0) false [] fun t =>
    if !t.me.claimable || t.quiescent t.cur then t.claimDone s d else .next (t.block s (.claim d))

/-- A system register of context scope as a word reads it (15 R279, 07 R166). -/
def State.rs (st : State) (r : Nat) : Word := st.choose (sysReg r) (st.me.sys.get r)

/-- The level that TRET returns to. -/
def State.retLevel (st : State) : Level :=
  (Level.ofCode (fldW (st.rs 0) (if st.me.sys.cpl = .m then 4 else 2) 2)).getD .u
/-- Where TRET returns to. -/
def State.retAddr (st : State) : Word := st.rs (if st.me.sys.cpl = .m then 0x31 else 2)

/-- Whether the handler's own vector words are done (15 R283): it has some only once it has claimed. -/
def State.tretReady (st : State) : Bool :=
  !bitW st.me.cause 14 || (st.me.vq = [] && st.me.opened = [] && st.me.landing = [])

/-- What TRET meets in the claim area that it loads (17 R325, 18 R345). -/
def State.reclaimFails (st : State) : Option (Nat × Detail) :=
  if bitW st.me.cause 14 then st.areaFails (coreOf st.cur) (st.me.sys.csa.toNat + claimOff) imageBytes else none

/-- TRET, when its wait is over (15 R283). -/
def State.tretDone (st : State) : Out :=
  let prev := st.retLevel
  let ret := st.retAddr
  let m := st.me.sys.cpl = .m
  match st.reclaimFails with
  | some (code, det) => .next (st.trap code det)
  | none =>
  let st := if bitW st.me.cause 14 then st.areaRead (coreOf st.cur) (st.me.sys.csa.toNat + claimOff) imageBytes else st
  .next (st.setMe fun k =>
    let k := if bitW k.cause 14 then
        (if m then { st.reclaim k.sys.csa k.mclaims k with mclaims := [] } else { st.reclaim k.sys.csa k.claims k with claims := [] })
      else k
    k.returnFrom prev ret)

/-- TRET (15 R283): with no active handler it is an illegal operand, and a misaligned return address traps ALIGN. -/
def execTret (s : Fin 4) (st : State) : Out :=
  st.system (sysWord s 0 0 0 1) false [sysReg 0, sysReg (if st.me.sys.cpl = .m then 0x31 else 2)] fun t =>
    if !bitW t.me.cause 15 then .next (t.illop 0)
    else if fldW t.retAddr 0 2 ≠ 0 then .next (t.trap Code.align { va := t.retAddr })
    else if t.tretReady then t.tretDone
    else .next (t.block s .tret)

/-! ### System registers -/

/-- Whether a number is that of a system register (15 R277). -/
def isSysReg (r : Nat) : Bool :=
  r = 0 || r = 1 || r = 2 || r = 3 || (8 ≤ r && r < 16) || r = 0x10 || r = 0x11 || r = 0x12 || r = 0x20 || r = 0x21 || r = 0x22 ||
    r = 0x30 || r = 0x31 || r = 0x32 || (0x38 ≤ r && r < 0x40)
/-- Whether a system register is of M (15 R277), for SRR and for SRW. -/
def sysNeedsM (r : Nat) (write : Bool) : Bool := (isSysReg r && 0x30 ≤ r) || (write && r = 0x22)

/-- PART as the issuing context reads it: its partition's composition; outside every partition 0 (log entry 6). -/
def State.partReg (st : State) : Word :=
  let p := st.myPart
  if 40 ≤ p then 0 else word ((st.part p).qmask.toNat * 256 + p)

/-- The value of a system register (15 R277, R278). -/
def State.sysRead (st : State) (r : Nat) : Word :=
  let q := st.part st.myPart
  match r with
  | 1 => q.tvec | 0x20 => q.ttb | 0x21 => q.lqopen | 0x22 => st.partReg | 0x30 => st.mvec
  | _ => st.rs r

/-- SRR (15 R277). -/
def execSrr (s : Fin 4) (d : Fin 32) (r : Fin 1024) (st : State) : Out :=
  st.system (sysWord s d.val 0 0 2 + word (r.val * 256)) (sysNeedsM r.val false) [sysReg r.val] fun t =>
    if !isSysReg r.val then .next (t.illop 1) else .next (t.interlocked s d (t.sysRead r.val))

/-- A core made clean as it changes partitions (19 R354): its contexts hold no previous task, and one that had stopped stays
halted (R355). The context of CONFIG's firmware runs on. -/
def State.cleanCore (st : State) (core : Nat) : State :=
  let lo := windowAddr core 0
  let inside := fun (pa : Nat) => decide (lo ≤ pa && pa < lo + 0x400000)
  let st := { st with
    mem := st.mem.filter fun e => !inside e.1
    hist := st.hist.filter fun e => !inside e.1
    parts := st.parts.map fun (e : Nat × Part) => (e.1, { e.2 with ring1 := tset 0 e.2.ring1 core 0 }) }
  st.setCore core fun k => { k with
    slots := (List.range 64).foldl (fun t i => let x := tget ({} : Slot) k.slots i; tput t i ({ gen := nextGen x.gen } : Slot)) []
    queue := [], ring := [], joinBuf := [], steal := none
    halted := k.halted || k.stopped, stopped := false
    chunks := BitVec.allOnes 6144, acc := [], holder := none, holderJob := 0, tlb := [] }

/-- Whether a core counts as halted for PART (15 R290, 19 R355): core 0 does while it runs the firmware of CONFIG. -/
def State.isHalted (st : State) (core : Nat) : Bool :=
  let k := st.core core
  k.halted || k.stopped || (core = 0 && st.woad.boot = .config)

/-- The contexts of a clean core: no thread, and nothing queued. Each counted store is acknowledged, but for those still in flight and
those that the images of saved threads hold (03 R59). -/
def State.cleanCtxs (st : State) (core : Nat) : State :=
  (ctxsOf core).foldl (fun t x =>
    if x = 0 && t.woad.boot = .config then t
    else { t.setCtx x fun k => { ({} : Ctx) with wic := k.wic, wdc := k.wic - (t.writes.filter fun w => w.ctx = x).length - t.savedStores x, clock := k.clock } with
      writes := t.writes.map fun (w : Write) => if w.ctx = x then { w with growing := false } else w }) st

/-- The quads of a mask, and their cores. -/
def quadsOf (m : BitVec 40) : List Nat := (List.range 40).filter fun q => m.getLsbD q
def coresOfQuads (m : BitVec 40) : List Nat := (quadsOf m).flatMap fun q => span (4 * q) 4

/-- Whether SRW of PART refuses a value (15 R279, 18 R344, 19 R354): a PID above 39 or one in use, a quad of another
partition, or a quad that moves with a core that is not halted. -/
def State.partRefused (st : State) (own : Nat) (v : Word) : Bool :=
  let p := fldW v 0 6
  let m : BitVec 40 := BitVec.ofNat 40 (fldW v 8 40)
  let q := st.part p
  let old : BitVec 40 := if q.composed then q.qmask else 0
  40 ≤ p || (p ≠ own && (st.pstate p = 1 || st.pstate p = 2)) || st.pstate p = 2 ||
    (st.parts.any fun e => e.1 ≠ p && e.2.composed && e.2.qmask &&& m ≠ 0) || (coresOfQuads (m ^^^ old)).any fun c => !st.isHalted c

/-- The composition of a partition changed (19 R353, R354): every core of a quad that moves is clean; a partition whose
last quad goes is empty. -/
def State.partSet (st : State) (v : Word) : State :=
  let p := fldW v 0 6
  let m : BitVec 40 := BitVec.ofNat 40 (fldW v 8 40)
  let q := st.part p
  let old : BitVec 40 := if q.composed then q.qmask else 0
  let st := (coresOfQuads (m ^^^ old)).foldl (fun t c => (t.cleanCore c).cleanCtxs c) st
  st.setPart p fun q => { q with
    composed := m ≠ 0, qmask := m, stopped := q.stopped && m ≠ 0, errStop := q.errStop && m ≠ 0
    lastInQueue := if old = 0 then [] else q.lastInQueue, lastEnds := if old = 0 then [] else q.lastEnds }

/-- A value of PRV as SRW writes it (15 R278): PPL, and MPPL at M. -/
def Sys.putPrv (y : Sys) (v : Word) (m : Bool) : Sys :=
  { y with ppl := (Level.ofCode (fldW v 2 2)).getD y.ppl, mppl := if m then (Level.ofCode (fldW v 4 2)).getD y.mppl else y.mppl }

/-- Whether SRW refuses a value (15 R279). -/
def State.sysRefused (st : State) (r : Nat) (v : Word) : Bool :=
  let q := st.part st.myPart
  match r with
  | 0 => fldW v 2 2 = 2 || (st.me.sys.cpl = .m && fldW v 4 2 = 2)
  | 0x12 => !q.inCarve (fldW v 12 36 * 4096) 163840
  | 0x20 => !q.inCarve (fldW v 16 40 * 65536) 65536
  | 0x22 => st.partRefused st.myPart v
  | _ => false

/-- A register of context scope written (15 R278, R279), with latency 2; RO registers are not. -/
def Ctx.sysPut (k : Ctx) (r : Nat) (v : Word) : Ctx :=
  let k' := k.shade (sysReg r) (k.sys.get r) 2
  match r with
  | 0 => { k' with sys := k.sys.putPrv v (k.sys.cpl = .m) }
  | 2 => { k' with sys := { k.sys with epc := v } }
  | 0x10 => { k' with sys := { k.sys with ssa := v } }
  | 0x11 => { k' with sys := { k.sys with ssb := v } }
  | 0x12 => { k' with sys := { k.sys with csa := v &&& 0x0000FFFFFFFFF000 } }
  | 0x31 => { k' with sys := { k.sys with mepc := v } }
  | _ => k

/-- A system register written, its value having been accepted (15 R278, R279). -/
def State.sysWrite (st : State) (r : Nat) (v : Word) : State :=
  let p := st.myPart
  match r with
  | 1 => st.setPart p fun q => { q with tvec := v &&& 0x00FFFFFFFFFFF000 }
  | 0x20 => st.setPart p fun q => { q with ttb := v &&& 0x00FFFFFFFFFF0000 }
  | 0x21 => st.setPart p fun q => { q with lqopen := v }
  | 0x22 => st.partSet v
  | 0x30 => { st with mvec := v &&& 0x00FFFFFFFFFFF000 }
  | _ => st.setMe fun k => k.sysPut r v

/-- SRW (15 R277, R279). -/
def execSrw (s : Fin 4) (r : Fin 1024) (b : Fin 32) (st : State) : Out :=
  st.system (sysWord s 0 0 b.val 3 + word (r.val * 8192)) (sysNeedsM r.val true) [b.val] fun t =>
    if !isSysReg r.val then .next (t.illop 0)
    else if t.sysRefused r.val (t.rx b) then .next (t.illop 1)
    else .next ((t.sysWrite r.val (t.rx b)).setMe fun k => k.advance s)

/-- PART_WRITE (19 R354): the SRW of PART by context c, as an event of its own: only at M, by a context whose core runs, which none does
in SAFE (R360). -/
def execPartWrite (c : Nat) (v : BitVec 64) (st : State) : Out :=
  let k := st.core (coreOf c)
  .next (if noCtx ≤ c || (st.woad.boot ≠ .config && st.woad.boot ≠ .run) || (st.ctx c).sys.cpl ≠ .m || k.halted || k.stopped || st.partRefused (st.partOf (coreOf c)) v then st else st.partSet v)

/-! ### TLBI -/

/-- The cores TLBI names (15 R285). -/
def State.tlbiCores (st : State) (kind : Nat) : List Nat := if kind = 2 then List.range 160 else st.coresOf st.myPart

/-- Cached translations removed (15 R285). -/
def State.dropTlb (st : State) (kind : Nat) (va : Word) : State :=
  let p := st.myPart
  (st.tlbiCores kind).foldl (fun t c => t.setCore c fun k => { k with
    tlb := k.tlb.filter fun x => !(match kind with | 0 => x.part = p && x.base ≤ va.toNat && va.toNat < x.base + x.size | 1 => x.part = p | _ => true) }) st

/-- Whether a vector word, a step of an operation or another access of a core has resolved translations that it has still to use; a word
that a trap has frozen probes afresh (18 R337), and WAITV translates at each read. The stores of saved threads that their groups have begun
are among them. -/
def State.translating (st : State) (core : Nat) : Bool :=
  ((st.core core).slots.any fun x => x.2.pending && x.2.st ≠ .parked && (x.2.op.held ≠ [] || x.2.op.kept ≠ [])) ||
  (st.parts.any fun p => p.2.images.any fun i => coreOf i.ctx = core && st.writes.any fun w => w.ctx = 1000 + i.uid && w.parts ≠ []) ||
  (ctxsOf core).any fun c =>
    let k := st.ctx c
    k.landing ≠ [] || k.loose ≠ [] || k.reads ≠ [] || (st.writes.any fun w => w.ctx = c && w.parts ≠ []) || (match k.wait with | some w => w.locs ≠ [] | none => false) ||
      (!k.frozen && k.vq.any fun e => e.started && e.op.isMem && !e.finished && !e.op.holdsIssue)

/-- Whether TLBI can complete (15 R285). -/
def State.tlbiReady (st : State) (kind : Nat) : Bool :=
  st.quiet && (st.tlbiCores kind).all fun c => (st.core c).stopped || !st.translating c

/-- TLBI completes. -/
def State.tlbiDone (st : State) (s : Fin 4) (d : Fin 32) (kind : Nat) (va : Word) : Out :=
  .next ((st.dropTlb kind va).interlocked s d 0)

/-- TLBI (15 R285): kind 2 is M's, and traps PRIV before its distances are checked (07 R162). -/
def execTlbi (s : Fin 4) (d a b : Fin 32) (st : State) : Out :=
  st.system (sysWord s d.val a.val b.val 4) (decide (fldW (st.rx b) 0 2 = 2)) [a.val, b.val] fun t =>
    let v := t.rx b
    let kind := fldW v 0 2
    if fldW v 2 62 ≠ 0 || kind = 3 then .next (t.illop 2)
    else if t.tlbiReady kind then t.tlbiDone s d kind (t.rx a)
    else .next (t.block s (.tlbi d kind (t.rx a)))

/-! ### BSET -/

/-- Whether a BSET write is refused (15 R287). -/
def State.badBuf (st : State) (p : Nat) (l : List Word) : Bool :=
  let d := fun (i : Nat) => l.getD i 0
  let size := (d 1).toNat
  let q := st.part p
  fldW (d 0) 56 8 ≠ 0 || fldW (d 0) 3 13 ≠ 0 || size % 65536 ≠ 0 || size < 65536 || 2 ^ 40 < size ||
    (d 2).toNat % 65536 ≠ 0 || (d 3).toNat % 65536 ≠ 0 || !q.inCarve (d 2).toNat size || !q.inCarve (d 3).toNat size ||
    rangesMeet (d 2).toNat size (d 3).toNat size

/-- Whether entry i of a partition's buffer table has a writer or a PUBLISH that has not ended (15 R287). -/
def State.bufBusy (st : State) (p i : Nat) : Bool :=
  (st.coresOf p).any fun c => (st.core c).slots.any fun x =>
    x.2.pending && x.2.op.part = p && ((x.2.op.kind = .publish && x.2.op.xa.toNat = i) || st.writesBuf c x.2.op i)

/-- Whether a range overlaps that of another valid entry (15 R287). -/
def Part.bufMeets (q : Part) (i base size : Nat) : Bool := q.bufs.any fun e => e.1 ≠ i && rangesMeet base size e.2.vbase e.2.size

/-- What accesses in flight have resolved, changed by f. -/
def Wait.mapLocs (f : Loc → Loc) : Wait → Wait
  | .read d acc va l q => .read d acc va (l.map f) q
  | .amo d r n va l v old q rel => .amo d r n va (l.map f) v old q rel
  | .release n l v => .release n (l.map f) v
  | .store n l v => .store n (l.map f) v
  | w => w
def VEntry.mapLocs (f : Loc → Loc) (e : VEntry) : VEntry := { e with locs := e.locs.map fun (x : Nat × List Loc) => (x.1, x.2.map f) }
def WPart.mapLocs (f : Loc → Loc) (p : WPart) : WPart := { p with locs := p.locs.map f }
def Ctx.mapLocs (f : Loc → Loc) (k : Ctx) : Ctx := { k with
  wait := k.wait.map (Wait.mapLocs f), vq := k.vq.map (VEntry.mapLocs f), loose := k.loose.map fun (l : Loose) => { l with part := l.part.mapLocs f }
  reads := k.reads.map fun (d : Deferred) => { d with locs := d.locs.map f }
  landing := k.landing.map fun (l : Landing) => { l with
    entry := l.entry.mapLocs f, got := l.got.map fun (x : List Loc × Nat) => (x.1.map f, x.2) } }

/-- Accesses in flight to entry i of a partition's buffer table are served wholly under the mapping they have met (15 R287): on the
backing that was visible. -/
def State.settleBuf (st : State) (p i : Nat) : State :=
  let f := fun (l : Loc) => match l with | .buf q j off => if q = p && j = i then .phys (st.visible (.buf q j off)) else l | l => l
  { st with
    ctxs := st.ctxs.map fun (e : Nat × Ctx) => (e.1, e.2.mapLocs f)
    writes := st.writes.map fun (w : Write) => { w with parts := w.parts.map (WPart.mapLocs f) } }

/-- The translations of a range are dropped in every core of a partition (17 R322), and no die holds a read copy of its backings
(15 R287). -/
def State.dropRange (st : State) (p base size : Nat) (backings : List Nat) : State :=
  { st with
    cores := st.cores.map fun (e : Nat × Core) => (e.1, { e.2 with tlb := e.2.tlb.filter fun t => !(t.part = p && rangesMeet t.base t.size base size) })
    cuts := st.cuts ++ backings.map fun a => (a, size, st.time) }

/-- A descriptor written to entry i (15 R287). -/
def State.bsetWrite (st : State) (s : Fin 4) (d : Fin 32) (i : Nat) (l : List Word) : Out :=
  let p := st.myPart
  let w := fun (j : Nat) => l.getD j 0
  let base := fldW (w 0) 16 40 * 65536
  let size := (w 1).toNat
  let v := bitW (w 0) 0
  if st.badBuf p l then .next (st.illop 2)
  else if st.bufBusy p i then .next (st.interlocked s d 1)
  else if v && (st.part p).bufMeets i base size then .next (st.interlocked s d 2)
  else
    let old := (st.part p).bufs.filter (·.1 = i)
    let st := old.foldl (fun t (b : Nat × Buf) => (t.settleBuf p i).dropRange p b.2.vbase b.2.size [b.2.pa, b.2.pb]) st
    let st := if v then st.dropRange p base size [(w 2).toNat, (w 3).toNat] else st
    .next ((st.setPart p fun q => { q with
      bufs := if v then tput q.bufs i ⟨base, size, (w 2).toNat, (w 3).toNat, false, false⟩ else tdel q.bufs i }).interlocked s d 0)

/-- The descriptor of an entry as BSET reads it (15 R286, R287). -/
def Part.bufDwords (q : Part) (i : Nat) : List Word :=
  if thas q.bufs i then
    let b := tget ⟨0, 0, 0, 0, false, false⟩ q.bufs i
    [word (b.vbase + (if b.void then 4 else 0) + (if b.vis then 2 else 0) + 1), word b.size, word b.pa, word b.pb]
  else [0, 0, 0, 0]

/-- Entry i written to the descriptor at an address (15 R287). -/
def State.bsetRead (st : State) (s : Fin 4) (d : Fin 32) (i : Nat) (a : Word) : Out :=
  match st.locate (coreOf st.cur) st.myPart st.me.sys.cpl .write true a 32 with
  | .inr (t, va) => st.pageTrap t va .write 2
  | .inl locs =>
    if st.isMmio locs then st.pageTrap .access a .write 2
    else match st.brokenLink (coreOf st.cur) (locs.map st.visible) with
    | some l => .next (st.trap Code.link { d0 := word l })
    | none =>
      let st := st.fillAt (coreOf st.cur) st.myPart a 32
      .next ((st.deviceWrite (dieOf (coreOf st.cur)) (locs.map st.visible) (dwBytes ((st.part st.myPart).bufDwords i)) st.me.clock).interlocked s d 0)

/-- BSET (15 R286, R287): a misaligned descriptor traps ALIGN. -/
def execBset (s : Fin 4) (d a b : Fin 32) (st : State) : Out :=
  st.system (sysWord s d.val a.val b.val 10) false [a.val, b.val] fun t =>
    let v := t.rx a
    let at_ := t.rx b
    if fldW v 9 55 ≠ 0 then .next (t.illop 1)
    else if at_.toNat % 8 ≠ 0 then .next (t.trap Code.align { va := at_ })
    else if bitW v 8 then t.bsetRead s d (fldW v 0 8) at_
    else match t.fetchDwords at_ 4 with
      | .fault e va => t.pageTrap e va .read 2
      | .hard code det => .next (t.trap code det)
      | .later => .next (t.block s .retry)
      | .vals l t => t.bsetWrite s d (fldW v 0 8) l

/-! ### CTXSV and CTXLD -/

/-- Whether the operands of CTXSV and CTXLD are refused (15 R288). -/
def State.badTarget (st : State) (a b : Word) : Option Nat :=
  if 640 ≤ a.toNat || a.toNat = st.cur || !(st.coresOf st.myPart).contains (coreOf a.toNat) then some 1
  else if b.toNat % 4096 ≠ 0 || !(st.part st.myPart).inCarve b.toNat imageBytes then some 2
  else none

/-- The number of the thread on a context; 0 is none. -/
def Ctx.uid (k : Ctx) : Nat := match k.thread with | some t => t.uid | none => 0

/-- CTXSV of thread `uid` finds or makes a request (15 R288): a context that the thread has left gives 1; a thread that nobody saves
yet is asked to stop. -/
def State.ctxsvTry (st : State) (s : Fin 4) (d : Fin 32) (target uid pa : Nat) : Out :=
  let k := st.ctx target
  if k.thread.isNone || k.uid ≠ uid then .next (st.interlocked s d 1)
  else if k.saving.isNone then
    .next ((st.setCtx target fun k => { k with saving := some { pa := pa, by_ := some st.cur } }).block s (.ctxsv d target uid pa))
  else .next (st.block s (.ctxsv d target uid pa))

/-- Whether a waiting CTXSV has something to do: its thread has left the target, or nobody saves it. -/
def State.ctxsvReady (st : State) (target uid : Nat) : Bool :=
  (st.ctx target).thread.isNone || (st.ctx target).uid ≠ uid || (st.ctx target).saving.isNone

/-- CTXSV (15 R288). -/
def execCtxsv (s : Fin 4) (d a b : Fin 32) (st : State) : Out :=
  st.system (sysWord s d.val a.val b.val 5) false [a.val, b.val] fun t =>
    match t.badTarget (t.rx a) (t.rx b) with
    | some k => .next (t.illop k)
    | none => t.ctxsvTry s d (t.rx a).toNat (t.ctx (t.rx a).toNat).uid (t.rx b).toNat

/-- CTXLD (15 R289). The device knows an image by its address until it is loaded or discarded. -/
def execCtxld (s : Fin 4) (d a b : Fin 32) (st : State) : Out :=
  st.system (sysWord s d.val a.val b.val 6) false [a.val, b.val] fun t =>
    let c := (t.rx a).toNat
    let pa := (t.rx b).toNat
    match t.badTarget (t.rx a) (t.rx b) with
    | some k => .next (t.illop k)
    | none =>
      if (t.ctx c).thread.isSome then .next (t.interlocked s d 1)
      else match (t.part t.myPart).images.find? fun i => i.pa = pa && i.ctx = c with
        | none => .next (t.interlocked s d 2)
        | some i =>
          match t.areaFails (coreOf t.cur) pa imageBytes with
          | some (code, det) => .next (t.trap code det)
          | none =>
          if !t.imageValid t.myPart c pa then .next (t.interlocked s d 2)
          else .next (((t.loadImage t.myPart i).markSpent t.cur pa).interlocked s d 0)

/-! ### HALT -/

/-- Whether a core that is to halt has nothing left (15 R290): no thread, no record, no lend on its way, every slot FREE. -/
def State.haltReady (st : State) (core : Nat) : Bool :=
  let k := st.core core
  (ctxsOf core).all (fun c => (st.ctx c).thread.isNone) && k.queue = [] && k.ring = [] && k.joinBuf = [] && k.steal.isNone &&
    k.slots.all fun e => e.2.st = .free

/-- HALT completes: the core is halted. -/
def State.haltDone (st : State) (s : Fin 4) (d : Fin 32) (core : Nat) : Out :=
  .next ((st.setCore core fun k => { k with halted := true, halting := false }).interlocked s d 0)

/-- HALT (15 R290). -/
def execHalt (s : Fin 4) (d a b : Fin 32) (st : State) : Out :=
  st.system (sysWord s d.val a.val b.val 8) true [a.val, b.val] fun t =>
    let core := (t.rx a).toNat
    let down := (t.core core).halted || (t.core core).stopped
    if 160 ≤ core then .next (t.illop 1)
    else if fldW (t.rx b) 1 63 ≠ 0 then .next (t.illop 2)
    else if bitW (t.rx b) 0 then
      (if (t.core core).halted && !(t.core core).stopped then
        .next ((t.setCore core fun k => { k with halted := false }).interlocked s d 0)
      else .next (t.interlocked s d 1))
    else if down then .next (t.interlocked s d 1)
    else
      let t := t.setCore core fun k => { k with halting := true }
      if t.haltReady core then t.haltDone s d core else .next (t.block s (.halt d core))

/-! ### PARK and PCAN -/

/-- The contexts of a partition that hold a thread. -/
def State.residents (st : State) (p : Nat) : List Nat :=
  (st.coresOf p).flatMap fun c => (ctxsOf c).filter fun x => (st.ctx x).thread.isSome

/-- PARK's signal (15 R291, 18 R343): every resident thread but the issuer's is to be saved at its own CSA; operations that
wait are PARKED at once. -/
def State.parkSignal (st : State) (p : Nat) : State :=
  let st := st.setPart p fun q => { q with parking := true, drained := false }
  let st := ((st.residents p).filter (· ≠ st.cur)).foldl (fun t c => t.setCtx c fun k =>
    { k with saving := some { pa := k.sys.csa.toNat, park := true } }) st
  (st.coresOf p).foldl (fun t c => (t.core c).slots.foldl (fun t e =>
    if e.2.pending && e.2.st ≠ .parked && e.2.phase = .waiting then t.setSlot c e.1 Slot.parkNow else t) t) st

/-- Whether a park is complete (15 R291): no other thread is resident, and no operation is running or waiting. -/
def State.parkReady (st : State) (p : Nat) : Bool :=
  (st.residents p).all (· = st.cur) && (st.coresOf p).all fun c => (st.core c).slots.all fun e => !e.2.pending || e.2.st = .parked

/-- A park is complete. -/
def State.parkDone (st : State) (s : Fin 4) (d : Fin 32) (p : Nat) : Out :=
  .next ((st.setPart p fun q => { q with parked := true, parking := false, drained := false }).interlocked s d 0)

/-- An operation returns to the state it left (02 R41): an orphaned one is orphaned again. -/
def Slot.unpark (t : Slot) : Slot := if t.owner.isNone then { t with st := .orphaned } else { t with st := t.left }

/-- A resume (15 R291): every parked thread is in its own context again, and every PARKED operation goes on. -/
def State.unpark (st : State) (p : Nat) : State :=
  let st := ((st.part p).images.filter (·.park)).foldl (fun t i => t.resumeImage p i) st
  let st := (st.coresOf p).foldl (fun t c => (t.core c).slots.foldl (fun t e =>
    if e.2.st = .parked then t.setSlot c e.1 Slot.unpark else t) t) st
  st.setPart p fun q => { q with parked := false }

/-- PARK (15 R291). -/
def execPark (s : Fin 4) (d a b : Fin 32) (st : State) : Out :=
  st.system (sysWord s d.val a.val b.val 7) true [a.val, b.val] fun t =>
    let p := (t.rx a).toNat
    if 40 ≤ p then .next (t.illop 1)
    else if fldW (t.rx b) 1 63 ≠ 0 then .next (t.illop 2)
    else if bitW (t.rx b) 0 then
      (if (t.part p).parked then .next ((t.unpark p).interlocked s d 0) else .next (t.interlocked s d 1))
    else if (t.part p).parked then .next (t.interlocked s d 1)
    else
      let t := t.parkSignal p
      if t.parkReady p then t.parkDone s d p else .next (t.block s (.park d p))

/-- Whether a partition holds work (15 R292): a launch that is not complete, or an image. -/
def State.hasWork (st : State) (p : Nat) : Bool :=
  st.liveLaunches p (fun _ => true) ≠ [] || (st.part p).images ≠ []

/-- Every level of a partition is cancelled (15 R292): its launches, its images and its PARKED operations. -/
def State.cancelAll (st : State) (p : Nat) : State :=
  let st := (st.liveLaunches p fun _ => true).foldl (fun t lid => t.cancelLevel p (.launch lid)) st
  let st := (st.part p).images.foldl (fun t i => t.dropImage p i) st
  let st := st.setPart p fun q => { q with images := [] }
  (st.coresOf p).foldl (fun t c => (t.core c).slots.foldl (fun t e =>
    if e.2.st = .parked then t.cancelOp c e.1 0x27 else t) t) st

/-- PCAN (15 R292): a thread of the partition that issues it ends at once. -/
def execPcan (s : Fin 4) (d a : Fin 32) (st : State) : Out :=
  st.system (sysWord s d.val a.val 0 9) true [a.val] fun t =>
    let p := (t.rx a).toNat
    if 40 ≤ p then .next (t.illop 1)
    else if !t.hasWork p then .next (t.interlocked s d 1)
    else
      let mine : Bool := match t.me.thread with | some x => x.part = p | none => false
      let t := t.cancelAll p
      .next (if mine then t.killThread t.cur else t.interlocked s d 0)

/-! ### SEQR -/

/-- SEQR (15 R293). -/
def execSeqr (s : Fin 4) (d a : Fin 32) (st : State) : Out :=
  st.system (sysWord s d.val a.val 0 11) false [a.val] fun t =>
    let v := t.rx a
    let core := fldW v 0 8
    let unit := fldW v 8 3
    if 160 ≤ core || 6 ≤ unit || fldW v 11 53 ≠ 0 then .next (t.illop 1)
    else if t.me.sys.cpl = .s && !(t.coresOf t.myPart).contains core then .next (t.interlocked s d (BitVec.allOnes 64))
    else .next (t.interlocked s d (word (tget 0 (t.core core).seqs unit)))

end Sys2Proof.Machine
end

