-- ==== Sys2Proof/Machine/Waits.lean ====
section
/-! DEFINITION. Waits: the events that end a thread's wait (02 R52): READ_SERVE, WAIT_SATISFIED, WAIT_TIMEOUT, and the arrival
of a pushed record (08 R197, 20 R364). -/

namespace Sys2Proof.Machine

/-- Whether the scalar core of a context goes on: its core runs, no save has been asked for that stops it (18 R338), and a
partition stopped by an error runs only its handlers at M (R345). -/
def State.ctxRuns (st : State) (c : Nat) : Bool :=
  let k := st.ctx c
  let core := st.core (coreOf c)
  !core.stopped && !core.halted && !(match k.saving with | some r => r.park || !k.inTrap | none => false) &&
    (!(st.part (st.partOf (coreOf c))).errStop || k.sys.cpl = .m)

/-! ### Reads -/

/-- The first load that the issuing context has gone past is performed (05 R116, R120): its register is written. -/
def State.serveDeferred (st : State) (d : Deferred) : State :=
  let pas := d.locs.map st.visible
  let done := fun (t : State) => t.setMe fun k => { k with reads := k.reads.drop 1 }
  match st.hardError (coreOf st.cur) d.va pas with
  | some (code, det) => (done st).trapWord st.cur code det d.addr st.me.resumeAt false
  | none =>
    let vs := st.threadRead st.cur st.me.clock (st.addr0 d.locs) pas 1024
    (done ((st.rebuild pas).observe st.cur pas vs)).setMe fun k => k.result d.dst.val (extend d.acc (leNat (vs.map (·.val)))) 1

/-- READ_SERVE (05 R120, R122): the read or atomic that a thread waits for, or the first load that it has gone past, is performed at its
home. -/
def execReadServe (c : Nat) (st : State) : Out :=
  if !st.ctxRuns c then .next st
  else match (st.ctx c).wait with
  | some (.read d acc va locs acq) =>
    st.as c fun t => if t.readReady locs then t.readDone t.me.ws d acc va locs acq else .next t
  | some (.amo d f size va locs v old acq rel) =>
    st.as c fun t => if t.amoReady f size locs old rel then t.amoDone t.me.ws d f size va locs v old acq rel else .next t
  | _ => match (st.ctx c).reads with
    | [] => .next st
    | d :: _ => st.as c fun t => .next (if t.readReady d.locs then t.serveDeferred d else t)

/-! ### WAITV -/

/-- A read of a flag of WAITV (10 R248): met, with the clock of what it read; unmet; or a trap for a failed cell or link (18 R345,
R347). -/
inductive FlagRead where
  | met (acq : Clock) (pas : List Nat) (vs : List Ver)
  | unmet
  | trap (code : Nat) (d : Detail)
deriving DecidableEq, Repr

/-- A flag read by the WAITV at the head of the issuing context's queues: each read translates anew, so that a page that leaves main
memory in the wait traps, with the element (10 R248). -/
def State.readFlag (st : State) (e : VEntry) (f : Flag) : FlagRead :=
  match st.locate (coreOf st.cur) (st.partOf (coreOf st.cur)) e.level .read true f.va 8 with
  | .inr (.moving, _) => .unmet
  | .inr (t, va) => .trap t.code ((t.detail va .read 1).atElem t.code f.elem)
  | .inl locs =>
  let pas := locs.map st.visible
  match st.hardError (coreOf st.cur) f.va pas with
  | some (code, d) => .trap code d
  | none =>
    if !st.entryReads st.cur e pas then .unmet
    else
      let vs := st.threadRead st.cur e.clock f.va.toNat pas (16384 + 16 * f.elem + 2 ^ 20 * e.icnt.toNat)
      if word (leNat (vs.map (·.val))) = f.expect then .met (vs.foldl (fun (k : Clock) v => k.join v.clock) {}) pas vs else .unmet

/-- What reading every unmet flag comes to: the flags, with the state; or the first trap and its element. -/
def State.readFlags (st : State) (e : VEntry) : List Flag → Sum (List Flag × State) (Nat × Detail)
  | [] => .inl ([], st)
  | f :: t =>
    if f.met then
      match st.readFlags e t with
      | .inl (l, s) => .inl (f :: l, s)
      | x => x
    else match st.readFlag e f with
      | .trap code d => .inr (code, d)
      | .unmet => match st.readFlags e t with
        | .inl (l, s) => .inl (f :: l, s)
        | x => x
      | .met acq pas vs =>
        let st := ((st.rebuild pas).fillAt (coreOf st.cur) (st.partOf (coreOf st.cur)) f.va 8).setMe fun k => { k with seen := raiseSeen k.seen pas vs }
        match st.readFlags e t with
        | .inl (l, s) => .inl ({ f with met := true, acq := acq } :: l, s)
        | x => x

/-- WAITV ends (10 R248): dm marks the flags not met, each met flag is an acquire, and the word leaves its queue. -/
def State.flagsDone (st : State) (m : Fin 8) (fs : List Flag) (ctl : VCtl) : State :=
  let w := (fmtOf ctl.vt).width
  let late := (fs.filter fun f => !f.met).map (·.elem)
  st.setMe fun k =>
    let k := { k with
      clock := fs.foldl (fun (c : Clock) (f : Flag) => if f.met then c.join f.acq else c) k.clock
      looseFrom := if fs.any (·.met) then st.time else k.looseFrom
      vq := k.vq.drop 1, wait := none, waited := 0 }
    k.setMask m.val (((List.range (brickElems w)).filter (inVL w ctl.vl)).foldl (fun b i => setMaskBit b i (i ∈ late)) (k.mask m.val))

/-- The WAITV at the head reads its unmet flags again (10 R248). -/
def State.flagsTry (st : State) (m : Fin 8) (fs : List Flag) (ctl : VCtl) (icnt timeout : Word) : Out :=
  match st.me.vq with
  | [] => .next st
  | e :: _ => match st.readFlags e fs with
    | .inr (code, d) => .next (st.trapWord st.cur code d e.addr st.me.resumeAt true)
    | .inl (l, s) =>
      if l.all (·.met) then .next (s.flagsDone m l ctl)
      else .next (s.setMe fun k => { k with wait := some (.flags m l ctl icnt timeout) })

/-! ### WAIT_SATISFIED -/

/-- The wait of the issuing context ends with its word to be issued again. -/
def State.reissue (st : State) : Out := .next (st.setMe fun k => { k with wait := none })

/-- A wait of the issuing context whose condition holds completes its word; otherwise nothing changes. -/
def State.endWait (st : State) (s : Fin 4) : Wait → Out
  | .read .. | .amo .. | .push _ _ => .next st
  | .release _ l v => if st.performed then st.releaseDone s l v else .next st
  | .store _ l v => if st.storeReady l then st.storeDone s l v else .next st
  | .token d core slot gen _ => if st.tokenReady core slot gen then st.tokenDone s d core slot gen else .next st
  | .any d m _ => if st.anyReady m then st.anyDone s d m else .next st
  | .all d m _ => if st.allReady m then st.allDone s d m else .next st
  | .ffr d m _ => if st.anyReady m then st.ffrDone s d m else .next st
  | .chunks d first count _ => if st.chunksReady first count then st.chunksDone s d first count else .next st
  | .flags m fs ctl icnt t => st.flagsTry m fs ctl icnt t
  | .pop => if st.popReady then st.popDone s else .next st
  | .tryPop d => if st.tryReady then st.tryDone s d else .next st
  | .pwait d => if st.pwaitReady then st.pwaitDone s d else .next st
  | .endTask => if st.endReady then st.endDone else .next st
  | .join d a => if st.joinReady then st.joinDone s d a else .next st
  | .launch d a b => st.lnch s d a b
  | .queue full => if full.all fun q => !st.me.queueFull q then st.reissue else .next st
  | .vl => if !st.me.vlPending then st.reissue else .next st
  | .ald => if !st.me.loadingTable then st.reissue else .next st
  | .stall => if st.stallReady then .next (st.setMe fun c => c.advance s) else .next st
  | .bricks => if !st.me.writing then st.reissue else .next st
  | .slot => if st.freeSlots (coreOf st.cur) ≠ [] || st.slotsStuck (coreOf st.cur) then st.reissue else .next st
  | .retry => st.reissue
  | .claim d => if st.quiescent st.cur then st.claimDone s d else .next st
  | .tret => if st.tretReady then st.tretDone else .next st
  | .tlbi d kind va => if st.tlbiReady kind then st.tlbiDone s d kind va else .next st
  | .ctxsv d t u pa => if st.ctxsvReady t u then st.ctxsvTry s d t u pa else .next st
  | .halt d core => if st.haltReady core then st.haltDone s d core else .next st
  | .park d p => if st.parkReady p then st.parkDone s d p else .next st

/-- WAIT_SATISFIED (02 R52): what the context waits for holds; its FENCEs go on as well (05 R126). -/
def execWaitSatisfied (c : Nat) (st : State) : Out :=
  let st := st.settleFences c
  if !st.ctxRuns c then .next st
  else match (st.ctx c).wait with
  | some w => st.as c fun t => t.endWait t.me.ws w
  | none => .next st

/-! ### WAIT_TIMEOUT -/

/-- A timed wait of the issuing context runs out (08 R203 to R208, 10 R248): it must have a limit, and must not have been
satisfied. -/
def State.expire (st : State) (s : Fin 4) : Wait → State
  | .token d core slot gen t => if t ≠ 0 && !st.tokenReady core slot gen then st.interlocked s d 3 else st
  | .any d m t => if t ≠ 0 && !st.anyReady m then st.interlocked s d 64 else st
  | .ffr d m t => if t ≠ 0 && !st.anyReady m then st.interlocked s d 64 else st
  | .all d m t => if t ≠ 0 && !st.allReady m then st.interlocked s d 2 else st
  | .chunks d first count t => if t ≠ 0 && !st.chunksReady first count then st.interlocked s d 1 else st
  | .flags m fs ctl _ t => if t ≠ 0 && !fs.all (·.met) then st.flagsDone m fs ctl else st
  | _ => st

/-- WAIT_TIMEOUT (08 R203). -/
def execWaitTimeout (c : Nat) (st : State) : Out :=
  if !st.ctxRuns c then .next st
  else match (st.ctx c).wait with
  | some w => st.as c fun t => .next (t.expire t.me.ws w)
  | none => .next st

/-! ### PUSH_ARRIVAL -/

/-- What the word of a context that waits for the push of a record comes to. -/
def State.answer (st : State) (v : Travel) (f : State → State) : State :=
  match (st.ctx v.ctx).wait with
  | some (.push _ id) => if id = v.id then { f { st with cur := v.ctx } with cur := st.cur } else st
  | _ => st

/-- PUSH_ARRIVAL (08 R197, 20 R364): the record stands at the tail of its core's FIFO order, or is refused, and the status
returns to the pusher. A core that is halted or halting takes none (15 R290). Where the dies of the two cores have no link, the word traps
LINK (01 R17, 18 R347). -/
def execPushArrival (i : Nat) (st : State) : Out :=
  match st.travel[i]? with
  | none => .next st
  | some v =>
    let st := { st with travel := dropAt st.travel i }
    let down := (st.core v.core).halting || (st.core v.core).halted
    let link := dieLink (dieOf (coreOf v.ctx)) (dieOf v.core)
    let ends := fun (x : Word) (t : State) => t.interlocked t.me.ws v.dst x
    if dieOf (coreOf v.ctx) ≠ dieOf v.core && (tget ({} : Link) st.links link).failed then
      .next (st.answer v fun t => t.trap Code.link { d0 := word link })
    else match (if down then none else st.pushTo v.core v.e) with
    | some t => .next ((if v.gone then st else t).answer v (ends 0))
    | none => .next (st.answer v (ends 1))

end Sys2Proof.Machine
end

