-- ==== Sys2Proof/Machine/Sched.lean ====
section
/-! DEFINITION. Sched: the dispatcher and the task queues (16 R302 to R309, 02 R29, R49, R53): taking a task, generating a
block, pre-emption, ageing, refill and the join buffer. -/

namespace Sys2Proof.Machine

/-! ### Contexts and columns -/

/-- Whether the tasks of a partition may be placed: the part is in RUN, and the partition is neither parked, nor being
parked, nor stopped (15 R291, 18 R345, 19 R355). -/
def State.partRuns (st : State) (p : Nat) : Bool :=
  let q := st.part p
  st.woad.boot = .run && q.composed && q.qmask ≠ 0 && !q.stopped && !q.parked && !q.parking && !q.errStop

/-- Whether a context of a core waits for a stolen record (16 R311). -/
def State.reserved (st : State) (c : Nat) : Bool :=
  match (st.core (coreOf c)).steal with
  | some (.acked _ _ x _) | some (.accepted _ _ x _) => x = c
  | _ => false

/-- Whether a context can take a task: no thread, none on its way, its core running. -/
def State.freeCtx (st : State) (c : Nat) : Bool :=
  let k := st.core (coreOf c)
  (st.ctx c).thread.isNone && !st.reserved c && !k.halted && !k.stopped

/-- Resident threads of a core. -/
def State.threadsOn (st : State) (core : Nat) : Nat := ((ctxsOf core).filter fun c => (st.ctx c).thread.isSome).length

/-- The cores of a partition in a column (16 R305, 01 R19). -/
def State.column (st : State) (p col : Nat) : List Nat := (st.coresOf p).filter fun c => c % 5 = col
/-- The resident threads of a column. -/
def State.colThreads (st : State) (p col : Nat) : Nat := ((st.column p col).map st.threadsOn).foldl (· + ·) 0

/-- Whether every column's occupancy is 3.0 or more (16 R305). -/
def State.allFull (st : State) (p : Nat) : Bool := (List.range 5).all fun col => 3 * (st.column p col).length ≤ st.colThreads p col

/-- Whether R305 lets work of an effective priority take a free context. -/
def State.permits (st : State) (p eff : Nat) : Bool := !st.allFull p || 3 ≤ eff

/-- The first of the least by a measure. -/
def leastBy {α : Type} (lt : α → α → Bool) : List α → Option α
  | [] => none
  | a :: t => match leastBy lt t with
    | none => some a
    | some b => if lt b a then some b else some a

/-- The context on which the dispatcher places a generated record (16 R305). -/
def State.place (st : State) (p : Nat) : Option Nat :=
  let free := fun (core : Nat) => !(st.core core).halting && (ctxsOf core).any st.freeCtx
  let cols := (List.range 5).filter fun col => (st.column p col).any free
  (leastBy (fun a b => st.colThreads p a * (st.column p b).length < st.colThreads p b * (st.column p a).length) cols).bind fun col =>
    (leastBy (fun a b => st.threadsOn a < st.threadsOn b) ((st.column p col).filter free)).bind fun core =>
      (ctxsOf core).find? st.freeCtx

/-! ### Launches -/

/-- The priority of a queue (16 R295). -/
def State.queuePri (st : State) (p q : Nat) : Nat := (tget 0 (st.part p).qctl q).toNat % 4

/-- The predecessor of a launch that has not completed (02 R50). -/
def State.runningPred (st : State) (p lid : Nat) : Option Nat := (st.launch p lid).pred.filter fun x => x ≠ lid && st.alive p x

/-- Whether a launch is eligible (16 R302, R303, 02 R49). -/
def State.eligible (st : State) (p lid : Nat) : Bool :=
  let l := st.launch p lid
  st.alive p lid && !l.cancelled && l.made < l.blocks && match st.runningPred p lid with
    | none => true
    | some x => let m := st.launch p x; m.early && m.blocks ≤ m.made

/-- Whether work of launch x of partition p could be placed on context c (02 R49): a record that is not held and that R305
permits, or a thread saved in the pool that left this context. -/
def State.workFor (st : State) (p x c : Nat) : Bool :=
  let mine := fun (core : Nat) (e : QEntry) => e.r.lid = x && !st.held core e && !st.heldSaved core e && st.permits p e.eff
  ((st.part p).images.any fun i => i.pool.isSome && i.lid = x && i.ctx = c) ||
    (st.coresOf p).any fun core => ((st.core core).fifo ++ (st.core core).joinBuf).any (mine core)

/-- Whether a task of a launch that runs early must leave context c to work of its predecessor (02 R49). -/
def State.yields (st : State) (p lid c : Nat) : Bool :=
  match st.runningPred p lid with
  | some x => st.workFor p x c
  | none => false

/-- The eligible launches of a partition, ascending. -/
def State.eligibles (st : State) (p : Nat) : List Nat := ((st.part p).launches.map (·.1)).filter (st.eligible p)

/-- The launch the dispatcher serves next (16 R303): the highest effective priority, and among equals the next id in turn. -/
def State.nextLaunch (st : State) (p : Nat) : Option Nat :=
  let es := st.eligibles p
  let eff := fun (l : Nat) => (st.launch p l).eff
  let top := es.filter fun l => es.all fun m => eff m ≤ eff l
  match top.find? fun l => tget 0 (st.part p).lastServed (eff l) < l with
  | some l => some l
  | none => top.head?

/-! ### Taking a task -/

/-- A thread saved in the pool that left this context, of the highest effective priority (16 R304). -/
def State.poolFor (st : State) (p c : Nat) : Option Image :=
  leastBy (fun (a b : Image) => b.eff < a.eff) ((st.part p).images.filter fun i =>
    i.pool.isSome && i.ctx = c && !(st.launch p i.lid).cancelled && !st.yields p i.lid c)

/-- The record of its own core's FIFO order that a context may take (16 R304, R305, 20 R365): the first that is neither held nor lent, and
does not yield the context to work of its launch's predecessor (02 R49). -/
def State.recordFor (st : State) (p c : Nat) : Option (Nat × QEntry) :=
  let core := coreOf c
  let l := (st.core core).fifo
  match findIdx (fun (e : QEntry) => e.lent.isNone && !st.held core e && !st.heldSaved core e && !st.yields p e.r.lid c) l with
  | some i => (l[i]?).bind fun e => if st.permits p e.eff then some (i, e) else none
  | none => none

/-- The effective priority of the dispatcher's next generated record, for context c. -/
def State.generatedFor (st : State) (p c : Nat) : Option Nat :=
  match st.nextLaunch p with
  | some l => let e := (st.launch p l).eff; if st.permits p e && !st.yields p l c && !(st.core (coreOf c)).halting then some e else none
  | none => none

/-- Whether one effective priority, where there is one, is at most another. -/
def atMost : Option Nat → Nat → Bool
  | none, _ => true
  | some a, b => a ≤ b

/-- TASK_TAKE (16 R304): a free context takes the thread it was pre-empted of, or the first record of its own core that it
may take, once that record's stamp is met (02 R33). -/
def execTaskTake (c : Nat) (st : State) : Out :=
  let p := st.partOf (coreOf c)
  if !st.partRuns p || !st.freeCtx c then .next st
  else
    let rec_ := st.recordFor p c
    let gen := st.generatedFor p c
    let take := match rec_ with
      | some (i, e) =>
        if atMost gen e.eff && st.stampMet e then (st.setCore (coreOf c) fun k => k.dropFifo i).startThread c e else st
      | none => st
    match st.poolFor p c with
    | some i =>
      if atMost (rec_.map (·.2.eff)) i.eff && atMost gen i.eff then .next (st.resumeImage p i)
      else .next take
    | none => .next take

/-! ### Generating a block -/

/-- The record of block n of a launch (02 R27, 16 R303). -/
def Launch.block (l : Launch) (lid pri n : Nat) : Rec8 :=
  ⟨l.desc.d0, l.desc.d1, 0, word (pri * 2 ^ 34 + 2 ^ 32 + lid), word (n % l.gx), word (n / l.gx % l.gy), word (n / l.gx / l.gy), word n⟩

/-- The next block of a launch generated onto context c. -/
def State.generate (st : State) (p lid c : Nat) : State :=
  let l := st.launch p lid
  let pri := st.queuePri p l.queue
  let st := st.startThread c ⟨l.block lid pri l.made, noCtx, 0, l.clock, none, pri⟩
  (st.setLaunch p lid fun l => { l with made := l.made + 1, counter := l.counter + 1, eff := pri }).setPart p fun q => { q with lastServed := tput q.lastServed l.eff lid }

/-- DISPATCH_GENERATE (16 R303 to R305): the next block of the launch that is served next, onto the context R305 names,
unless that context has a thread or a record to take first. -/
def execDispatchGenerate (p lid : Nat) (st : State) : Out :=
  if !st.partRuns p || st.nextLaunch p ≠ some lid then .next st
  else match st.place p with
  | none => .next st
  | some c =>
    let eff := (st.launch p lid).eff
    let own := match st.recordFor p c with | some (_, e) => eff ≤ e.eff | none => false
    let back := match st.poolFor p c with | some i => eff ≤ i.eff | none => false
    if !st.permits p eff || st.yields p lid c || own || back then .next st else .next (st.generate p lid c)

/-! ### Pre-emption -/

/-- The number of the first area of the pre-emption pool that holds no thread and is promised to none (16 R296). -/
def State.freeArea (st : State) (p : Nat) : Option Nat :=
  let q := st.part p
  (List.range q.ppc.toNat).find? fun i =>
    !(q.images.any fun x => x.pool = some i) &&
      !((st.coresOf p).any fun c => (ctxsOf c).any fun x => match (st.ctx x).saving with | some r => r.pool = some i | none => false)

/-- The threads of PRI 0 and 1 of a column that nobody saves yet, in ascending order of context (16 R306). -/
def State.victims (st : State) (p col : Nat) : List Nat :=
  (st.column p col).flatMap fun core => (ctxsOf core).filter fun c =>
    (st.ctx c).saving.isNone && match (st.ctx c).thread with | some t => t.r.pri < 2 | none => false

/-- The thread that the dispatcher pre-empts (16 R306). -/
def State.victim (st : State) (p : Nat) : Option Nat :=
  let pri := fun (c : Nat) => match (st.ctx c).thread with | some t => t.r.pri | none => 0
  (leastBy (fun a b => (st.victims p b).length < (st.victims p a).length) ((List.range 5).filter fun col => st.victims p col ≠ [])).bind fun col =>
    leastBy (fun a b => pri a < pri b) (st.victims p col)

/-- DISPATCH_PREEMPT (16 R306): a thread is asked to stop for the next block of a launch of a queue of PRI 3. -/
def execDispatchPreempt (p lid : Nat) (st : State) : Out :=
  let l := st.launch p lid
  let asked := (st.coresOf p).any fun c => (ctxsOf c).any fun x => match (st.ctx x).saving with | some r => r.next = some lid | none => false
  let free := (st.coresOf p).any fun c => (ctxsOf c).any st.freeCtx
  if !st.partRuns p || !st.eligible p lid || st.queuePri p l.queue ≠ 3 || !st.allFull p || free || asked then .next st
  else match st.victim p, st.freeArea p with
  | some c, some i =>
    -- the context would go to work of its predecessor (02 R49)
    let back : Bool := match (st.ctx c).thread with | some t => st.runningPred p lid = some t.lid | none => false
    if back || st.yields p lid c then .next st else
    .next (st.setCtx c fun k => { k with saving := some { pool := some i, next := some lid } })
  | _, _ => .next st

/-- The result of CTXSV for the context that waits for this save (15 R288); none for one of a core that has stopped (19 R355). -/
def State.savedFor (st : State) (c : Nat) : Option Nat → State
  | none => st
  | some b => match (st.ctx b).wait with
    | some (.ctxsv d t _ _) => if t = c && !(st.core (coreOf b)).stopped then { ({ st with cur := b } : State).interlocked (st.ctx b).ws d 0 with cur := st.cur } else st
    | _ => st

/-- THREAD_SAVE (18 R338): a thread at its boundary is saved; the block that the dispatcher saved it for takes the context
(16 R306) unless work of its predecessor waits for it (02 R49), and a CTXSV that waits for it returns. -/
def execThreadSave (c : Nat) (st : State) : Out :=
  if !st.saveReady c then .next st
  else
    let req := (st.ctx c).saving
    let p := st.partOf (coreOf c)
    let st := (st.saveThread c).savedFor c (req.bind (·.by_))
    match req.bind (·.next) with
    | some lid => .next (if st.partRuns p && st.eligible p lid && st.freeCtx c && !(st.core (coreOf c)).halting && !st.yields p lid c then st.generate p lid c else st)
    | none => .next st

/-! ### Ageing (02 R53) -/

/-- The entry with its effective priority a level higher. -/
def QEntry.aged (e : QEntry) : QEntry := { e with eff := min 3 (e.eff + 1) }

/-- TASK_PRIORITY_AGE (02 R53): numbers 0 to 63 name a waiting command of the matrix array by its slot, later ones a record
of the core in FIFO order, then one of its join buffer, and then a thread that the dispatcher pre-empted from the core. -/
def execTaskPriorityAge (core i : Nat) (st : State) : Out :=
  let k := st.core core
  let p := st.partOf core
  let n := k.queue.length
  let m := n + k.ring.length
  let j := m + k.joinBuf.length
  if i < 64 then
    (if (st.slot core i).wantsArray && (st.slot core i).pending then .next (st.setSlot core i fun t => { t with eff := min 3 (t.eff + 1) }) else .next st)
  else if i < 64 + n then .next (st.setCore core fun k => { k with queue := mapAt QEntry.aged k.queue (i - 64) })
  else if i < 64 + m then .next (st.setCore core fun k => { k with ring := mapAt QEntry.aged k.ring (i - 64 - n) })
  else if i < 64 + j then .next (st.setCore core fun k => { k with joinBuf := mapAt QEntry.aged k.joinBuf (i - 64 - m) })
  else match ((st.part p).images.filter fun x => x.pool.isSome && coreOf x.ctx = core)[i - 64 - j]? with
    | some x => .next (st.setPart p fun q => { q with images := q.images.map fun y => if y = x then { y with eff := min 3 (y.eff + 1) } else y })
    | none => .next st

/-- LAUNCH_PRIORITY_AGE (16 R303). -/
def execLaunchPriorityAge (p lid : Nat) (st : State) : Out :=
  .next (if st.eligible p lid then st.setLaunch p lid fun l => { l with eff := min 3 (l.eff + 1) } else st)

/-! ### Refill -/

/-- RING_REFILL (16 R308): a pop, which waits for the record's stamp (02 R33). -/
def execRingRefill (core : Nat) (st : State) : Out :=
  let k := st.core core
  match k.ring with
  | [] => .next st
  | e :: t => .next (if k.queue.length < 32 && st.stampMet e then st.setCore core fun k => { k with queue := k.queue ++ [e], ring := t } else st)

/-- JOIN_BUFFER_DRAIN (02 R35). -/
def execJoinBufferDrain (core : Nat) (st : State) : Out :=
  match (st.core core).joinBuf with
  | [] => .next st
  | e :: t => .next (((st.setCore core fun k => { k with joinBuf := t }).pushTo core e).getD st)

end Sys2Proof.Machine
end

