-- ==== Sys2Proof/Machine/Steal.lean ====
section
/-! DEFINITION. Steal: the lend protocol (16 R310, R311) between an idle core, the thief, and its victim. -/

namespace Sys2Proof.Machine

/-- The core of a partition asked after core c by a thief (16 R310): ascending, wrapping, and never the thief. -/
def State.askAfter (st : State) (thief c : Nat) : Option Nat :=
  let l := st.coresOf (st.partOf thief)
  let next := (l.filter (c < ·)) ++ l.filter (· ≤ c)
  match next.head? with
  | some x => if x = thief then none else some x
  | none => none

/-- Whether a context is free, with nothing to take under the first two cases of R304: no thread that left it, no record of its core,
and no generated record waiting for it. -/
def State.wantsSteal (st : State) (p c : Nat) : Bool :=
  st.partRuns p && st.freeCtx c && (st.poolFor p c).isNone && (st.recordFor p c).isNone && (st.generatedFor p c).isNone

/-- Whether a core has a free context and nothing to take but by stealing (16 R310). -/
def State.idleCore (st : State) (core : Nat) : Bool :=
  !(st.core core).halting && (ctxsOf core).any (st.wantsSteal (st.partOf core))

/-- STEAL_ASK (16 R310). -/
def execStealAsk (core : Nat) (st : State) : Out :=
  if (st.core core).steal.isSome || !st.idleCore core then .next st
  else match st.askAfter core core with
  | some v => .next (st.setCore core fun k => { k with steal := some (.ask v) })
  | none => .next st

/-- Whether the dies of two cores have no link (01 R17, 18 R347). -/
def State.apart (st : State) (a b : Nat) : Bool :=
  dieOf a ≠ dieOf b && (tget ({} : Link) st.links (dieLink (dieOf a) (dieOf b))).failed

/-- STEAL_LEND (16 R310): the victim lends its first record that is neither lent nor held, or answers that it has none; a core that cannot be
reached counts as one that has none (log entry 88). -/
def execStealLend (victim thief : Nat) (st : State) : Out :=
  match (st.core thief).steal with
  | some (.ask v) =>
    if v ≠ victim then .next st
    else match (if st.apart victim thief then none else st.takeable victim) with
    | none => .next (st.setCore thief fun k => { k with steal := some (.none victim) })
    | some (i, e) =>
      let seq := ((st.core victim).lendSeq + 1) % 65536
      let st := st.setCore victim fun k => { k.setFifo (mapAt (fun e => { e with lent := some (thief, seq) }) k.fifo i) with lendSeq := seq }
      .next (st.setCore thief fun k => { k with steal := some (.copy victim seq e) })
  | _ => .next st

/-- STEAL_ANSWER (16 R310, R311): the thief asks the next core when there is no record; with a copy, it acknowledges once one
of its contexts is free to take the record and has nothing to take before it (R304). -/
def execStealAnswer (thief : Nat) (st : State) : Out :=
  let p := st.partOf thief
  match (st.core thief).steal with
  | some (.none v) => .next (st.setCore thief fun k => { k with steal := (st.askAfter thief v).map .ask })
  | some (.copy v seq e) =>
    (match (ctxsOf thief).find? fun c => st.wantsSteal p c && st.permits p e.eff && !st.yields p e.r.lid c with
      | some c => .next (st.setCore thief fun k => { k with steal := some (.acked v seq c e) })
      | none => .next st)
  | _ => .next st

/-- LEND_ACKNOWLEDGE (16 R311): the victim removes the entry that is still lent under the number, or refuses; it keeps one that has come to
be held since (20 R365). An acknowledgement does not pass a link that has failed, and the lend then expires. -/
def execLendAcknowledge (thief : Nat) (st : State) : Out :=
  match (st.core thief).steal with
  | some (.acked v seq c e) =>
    (match findIdx (fun (x : QEntry) => x.lent = some (thief, seq)) (st.core v).fifo with
      | some i =>
        let kept := match (st.core v).fifo[i]? with | some x => st.held v x || st.heldSaved v x | none => false
        if st.apart v thief then .next st
        else if kept then .next (st.setCore thief fun k => { k with steal := some .refused })
        else .next ((st.setCore v fun k => k.dropFifo i).setCore thief fun k => { k with steal := some (.accepted v seq c e) })
      | none => .next (st.setCore thief fun k => { k with steal := some .refused }))
  | _ => .next st

/-- LEND_ANSWER (16 R311): the record is delivered, with its stamp and clock (02 R33, R34), or the copy discarded. -/
def execLendAnswer (thief : Nat) (st : State) : Out :=
  match (st.core thief).steal with
  | some (.accepted _ _ c e) =>
    if (st.ctx c).thread.isNone && st.partRuns (st.partOf thief) && st.stampMet e then
      .next ((st.setCore thief fun k => { k with steal := none }).startThread c e)
    else .next st
  | some .refused => .next (st.setCore thief fun k => { k with steal := none })
  | _ => .next st

/-- LEND_EXPIRY (16 R311): the entry is unlent in its place. -/
def execLendExpiry (victim seq : Nat) (st : State) : Out :=
  .next (st.setCore victim fun k => k.setFifo (k.fifo.map fun e => match e.lent with
    | some (_, n) => if n = seq then { e with lent := none } else e
    | none => e))

end Sys2Proof.Machine
end

