-- ==== Sys2Proof/Machine/Launches.lean ====
section
/-! DEFINITION. Launches: cancelled threads, the completion of launches, graphs, phases and jobs (02 R31, R36, R37, R50, 16
R300, R301), gang launches (R312 to R314), and what Woad does with a core that stops (19 R355). -/

namespace Sys2Proof.Machine

/-! ### Completion -/

/-- CANCEL_REACHES_THREAD (02 R37, 15 R284): a running thread of a cancelled launch stops and its context is free. -/
def execCancelReachesThread (c : Nat) (st : State) : Out :=
  match (st.ctx c).thread with
  | some t => .next (if (st.launch t.part t.lid).cancelled then st.killThread c else st)
  | none => .next st

/-- The dispatcher's core: the lowest of the partition (16 R294). -/
def State.dispatcherCore (st : State) (p : Nat) : Nat := (st.coresOf p).headD 0

/-- Whether a dword of a launch lies in a page that is in a move, which the device waits for (17 R271). -/
def State.wordMoves (st : State) (p lid : Nat) (a : Word) : Bool :=
  match st.locate (st.dispatcherCore p) p (st.launch p lid).level .atomic true a 8 with | .inr (.moving, _) => true | _ => false

/-- A dword that the device writes on a launch's behalf, through the partition's translation at the launch's level (02 R31):
its old value goes through f. An access that the translation refuses, or that storage or a link fails, is dropped, with telemetry. -/
def State.launchWord (st : State) (p lid : Nat) (a : Word) (f : Nat → Nat) (clk : Clock) : State :=
  let l := st.launch p lid
  let core := st.dispatcherCore p
  match st.locate core p l.level .atomic true a 8 with
  | .inr (t, va) => st.telemetry core 0 t.code { d0 := word lid, va := va }
  | .inl locs =>
    if st.isMmio locs then st.telemetry core 0 Code.pageAccess { d0 := word lid, va := a }
    else
      let pas := locs.map st.visible
      match st.hardError core a pas with
      | some (code, det) => st.telemetry core 0 code det
      | none =>
      let st := (st.rebuildFor core pas).fillAt core p a 8
      st.deviceWrite (dieOf core) pas (leBytes 8 (f (leNat (pas.map fun pa => (st.last pa).val)))) clk

/-- A completion word with STAT (02 R31): bits 63:16 are zero, the flags stay. -/
def statWord (stat old : Nat) : Nat := old % 256 + stat * 256

/-- The slots of a launch's detached and orphaned operations (02 R42), all terminal. -/
def State.looseSlots (st : State) (p lid : Nat) : List (Nat × Nat) :=
  (st.coresOf p).flatMap fun c => ((st.core c).slots.filter fun e =>
    e.2.st ≠ .free && e.2.op.part = p && e.2.op.lid = lid && (e.2.detached || e.2.owner.isNone) && e.2.st.terminal).map fun e => (c, e.1)

/-- A launch as launch lid becomes complete (02 R50): itself, or one whose predecessor lid is. -/
def Launch.hearsOf (l : Launch) (self : Bool) (lid stat : Nat) (clk : Clock) : Launch :=
  if self then { l with done := true, stat := stat, stores := clk }
  else if l.pred = some lid && l.live then { l with pred := none, predStat := stat, predClock := clk }
  else l

/-- A launch is complete, with its STAT (02 R31, R36, R50, 16 R300): its detached and orphaned slots are released, STAT is
written as a release that covers its stores, and its successors learn of it. -/
def State.finishLaunch (st : State) (p lid stat : Nat) : State :=
  let ls := st.looseSlots p lid
  let clk := ls.foldl (fun k e => k.join (st.slot e.1 e.2).clock) (st.launch p lid).stores
  let st := ls.foldl (fun t e => t.setSlot e.1 e.2 Slot.release) st
  let st := st.launchWord p lid (st.launch p lid).cword (statWord stat) clk
  let l := st.launch p lid
  let st := st.setPart p fun q => 
    let q := { q with launches := q.launches.map (fun x => (x.1, x.2.hearsOf (decide (x.1 = lid)) lid stat clk)) }
    if thas q.lastInQueue l.queue && tget 0 q.lastInQueue l.queue = lid then
      { q with lastInQueue := tdel q.lastInQueue l.queue, lastEnds := tput q.lastEnds l.queue (stat, clk) }
    else q
  match l.gang with
  | some g => if g.initiator then st else st.emit (st.portOf g.home) (.gangReport p lid st.modNum.toNat (stat ≠ 1))
  | none => st

/-- Whether a launch has nothing left (02 R36, R50): its counter is 0, its predecessor's completion word has been written,
the homes know the stores that STAT releases (05 R119, R125), and its own word's page is not in a move (17 R271). -/
def State.drained (st : State) (p lid : Nat) : Bool :=
  let l := st.launch p lid
  st.alive p lid && st.launchCount p lid = 0 && (st.runningPred p lid).isNone && [0, 1, 2, 3].all fun d => l.stores.le (st.knownAt d)
    && !st.wordMoves p lid l.cword

/-- Whether the members of a gang let its initiator's launch complete (16 R313). -/
def Launch.gangDone (l : Launch) (self : Nat) : Bool :=
  match l.gang with
  | some g => !g.initiator || ((g.members.all (· ∈ g.acked)) && (g.members.all fun m => m = self || m ∈ g.finished) && !g.anyCancelled)
  | none => true

/-- LAUNCH_COMPLETE (16 R300): every block is generated and the counter is 0. -/
def execLaunchComplete (p lid : Nat) (st : State) : Out :=
  let l := st.launch p lid
  .next (if st.drained p lid && !l.cancelled && l.blocks ≤ l.made && l.gangDone st.modNum.toNat then st.finishLaunch p lid 1 else st)

/-- The STAT of a cancelled launch: 3 at the initiator of a gang that has failed (16 R314). -/
def Launch.cancelStat (l : Launch) : Nat :=
  match l.gang with
  | some g => if g.initiator && g.failed.isSome then 3 else 2
  | none => 2

/-- Whether every other member that has acknowledged a gang launch has reported the end of its copy, once the initiator has cancelled
it (16 R314). -/
def Launch.reportsIn (l : Launch) (self : Nat) : Bool :=
  match l.gang with
  | some g => !g.initiator || g.acked.all fun m => m = self || m ∈ g.finished
  | none => true

/-- CANCEL_DRAINED (02 R37, 16 R314). -/
def execCancelDrained (p lid : Nat) (st : State) : Out :=
  let l := st.launch p lid
  .next (if st.drained p lid && l.cancelled && l.reportsIn st.modNum.toNat then st.finishLaunch p lid l.cancelStat else st)

/-- Groups without one. -/
def dropGroup (gs : List Group) (job id : Nat) : List Group := gs.filter fun g => !(g.job = job && g.id = id)

/-- GRAPH_COMPLETE (16 R301). -/
def execGraphComplete (p job g : Nat) (st : State) : Out :=
  .next (if st.graphOver p job g then
    st.setPart p fun q => { q with graphs := dropGroup q.graphs job g } else st)

/-- PHASE_COMPLETE (02 R36, 16 R301). -/
def execPhaseComplete (p job ph : Nat) (st : State) : Out :=
  .next (if st.phaseOver p job ph then
    st.setPart p fun q => { q with phases := dropGroup q.phases job ph } else st)

/-- JOB_COMPLETE (16 R301): every QJOB that holds the id is 0, and the id may be used again. -/
def execJobComplete (p job : Nat) (st : State) : Out :=
  .next (if job ∈ (st.part p).closedJobs && st.jobCount p job = 0 then
    st.setPart p fun q => { q with
      closedJobs := q.closedJobs.filter (· ≠ job)
      qjob := q.qjob.filter fun e => e.2.toNat ≠ job }
  else st)

/-! ### Gangs -/

/-- A launch's gang changed. -/
def State.setGang (st : State) (p lid : Nat) (f : Gang → Gang) : State := st.setLaunch p lid fun l => { l with gang := l.gang.map f }

/-- The gang of a launch whose initiator this module is, while the launch lives. -/
def State.myGang (st : State) (p lid : Nat) : Option Gang :=
  if st.alive p lid then (st.launch p lid).gang.filter (·.initiator) else none

/-- A member's copy was cancelled and every member has acknowledged: every copy is cancelled (16 R313). -/
def State.gangSettle (st : State) (p lid : Nat) : State :=
  match st.myGang p lid with
  | some g => if g.anyCancelled && g.members.all (· ∈ g.acked) && !(st.launch p lid).cancelled then st.cancelLevel p (.launch lid) else st
  | none => st

/-- The first failure of a gang (16 R314): the launch is cancelled on every member, and FAIL names the failed one, once its page is not in a
move. -/
def State.gangFail (st : State) (p lid m : Nat) : State :=
  match st.myGang p lid with
  | some g =>
    if g.failed.isSome || (st.launch p lid).cancelled || m ∉ g.members || m ∈ g.acked || st.wordMoves p lid (st.launch p lid).desc.d7 then st
    else
      let st := (st.cancelLevel p (.launch lid)).setGang p lid fun g => { g with failed := some m }
      st.launchWord p lid (st.launch p lid).desc.d7 (fun old => old % 2 ^ 48 + m % 65536 * 2 ^ 48) (st.launch p lid).stores
  | none => st

/-- GANG_LAUNCH_RECEIVE (16 R313): the copy enters the queue of the same number, or the member refuses. `desc` holds the
descriptor, the window table and the code of the level. -/
def execGangLaunchReceive (p q from_ : Nat) (desc : List (BitVec 64)) (st : State) : Out :=
  if !(st.pstate p = 1 || st.pstate p = 2) || 64 ≤ q || !st.accepts p q then .next (st.emit (st.portOf from_) (.gangAck p q from_ false))
  else
    let d := Rec8.ofList desc
    let l : Launch := { desc := d, windows := (desc.drop 8).take 16, level := (Level.ofCode (desc.getD 24 0).toNat).getD .u
                        gx := fldW d.d2 0 32, gy := fldW d.d2 32 32, gz := fldW d.d3 0 32
                        gang := some { home := from_ }, moment := st.time }
    let (_, st) := st.makeLaunch p q l
    .next (st.emit (st.portOf from_) (.gangAck p q from_ true))

/-- GANG_ACK (16 R313, R314): an acknowledgement after a failure has its copy cancelled all the same. -/
def execGangAck (p lid m : Nat) (st : State) : Out :=
  match st.myGang p lid with
  | some g =>
    if m ∉ g.members || m ∈ g.acked then .next st
    else
      let st := st.setGang p lid fun g => { g with acked := m :: g.acked }
      .next (if (st.launch p lid).cancelled then st.emit (st.portOf m) (.gangCancel p lid m) else st.gangSettle p lid)
  | none => .next st

/-- GANG_REFUSAL (16 R314). -/
def execGangRefusal (p lid m : Nat) (st : State) : Out := .next (st.gangFail p lid m)

/-- GANG_ACK_TIMEOUT (16 R314): 2^20 cycles have passed with no acknowledgement. -/
def execGangAckTimeout (p lid m : Nat) (st : State) : Out := .next (st.gangFail p lid m)

/-- GANG_MEMBER_REPORT (16 R313). -/
def execGangMemberReport (p lid m : Nat) (cancelled : Bool) (st : State) : Out :=
  match st.myGang p lid with
  | some g =>
    if m ∉ g.members || m ∈ g.finished then .next st
    else .next ((st.setGang p lid fun g => { g with finished := m :: g.finished, anyCancelled := g.anyCancelled || cancelled }).gangSettle p lid)
  | none => .next st

/-- GANG_CANCEL (16 R314): a member's copy is cancelled as HCAN cancels it. -/
def execGangCancel (p lid : Nat) (st : State) : Out :=
  match (st.launch p lid).gang with
  | some g => .next (if st.alive p lid && !g.initiator && !(st.launch p lid).cancelled then st.cancelLevel p (.launch lid) else st)
  | none => .next st

/-! ### A core that stops -/

/-- WOAD_CORE_STOP (19 R355): Woad records the M record, cancels the partition and marks it stopped; the core stays halted. -/
def execWoadCoreStop (core : Nat) (st : State) : Out :=
  let k := st.core core
  if !k.stopped || k.halted then .next st
  else
    let p := st.partOf core
    let st := (st.tell k.stopRec).cancelAll p
    .next ((st.setPart p fun q => { q with stopped := true }).setCore core fun k => { k with halted := true })

/-- STATE_PARITY_ERROR (18 R345): the partition stops issuing, and every context of it that runs traps ECC_UNCORR to M. -/
def execStateParityError (p unit : Nat) (st : State) : Out :=
  if 6 ≤ unit || st.pstate p = 0 || (st.part p).errStop then .next st
  else
    let st := st.telemetry (st.dispatcherCore p) unit Code.eccUncorr { d0 := word unit }
    let st := st.setPart p fun q => { q with errStop := true }
    -- of a core that has stopped no register changes (19 R355)
    .next (((st.residents p).filter fun c => !(st.core (coreOf c)).stopped).foldl (fun t c =>
      let k := t.ctx c
      let (r, t) := t.record c unit Code.eccUncorr { d0 := word unit } k.pc
      let at_ := match k.opened with | [] => k.pc | e :: _ => e.addr
      let t := t.setCtx c fun k => match k.opened with | [] => k | e :: _ => { k with opened := [], icnt := e.icnt }
      t.takeTrap c Code.eccUncorr r at_ false true) st)

end Sys2Proof.Machine
end

