-- ==== Sys2Proof/Machine/HostLink.lean ====
section
/-! DEFINITION. HostLink: traffic from outside: host requests over Dorog Link and their flits (19 R348 to R351), fabric traffic
(R352), and migration data (R349). -/

namespace Sys2Proof.Machine

/-- The numbers of the links (18 R330). -/
def isLink (n : Nat) : Bool := n < 6 || (16 ≤ n && n < 33)

/-- Link n changed. -/
def State.setLinkState (st : State) (n : Nat) (f : Link → Link) : State := { st with links := tput st.links n (f (tget {} st.links n)) }

/-- A flit has been delivered in order (19 R348, R350): its number is acknowledged, and the next one is expected. What arrives out of order
is `State.arrive`'s. -/
def State.delivered (st : State) (n : Nat) : State :=
  ({ st with out := st.out ++ [.acknowledge n (tget {} st.links n).expect] } : State).setLinkState n fun l =>
    { l with expect := (l.expect + 1) % 2 ^ 32, replayAsked := none, asks := 0 }

/-- Payload bytes of a flit at most (19 R349). -/
def maxPayload : Nat := 232

/-- The types of flits (19 R349): every other value is discarded as a CRC failure. -/
def flitTypes : List Nat := [0x01, 0x02, 0x03, 0x04, 0x05, 0x10, 0x20]

/-- One step of the CRC-64 of ECMA-182 over a byte (19 R349): most significant bit first, from 0. -/
def crcByte (c : BitVec 64) (b : Byte) : BitVec 64 :=
  (List.range 8).foldl (fun (c : BitVec 64) _ => if c.msb then (c <<< 1) ^^^ 0x42F0E1EBA9EA3693 else c <<< 1) (c ^^^ (b.setWidth 64 <<< 56))
/-- The CRC-64 of a flit's bytes. -/
def crc64 (bytes : List Byte) : BitVec 64 := bytes.foldl crcByte 0

/-- A flit as its 256 bytes (19 R349). -/
def flitBytes (seq ty pid addr : Nat) (payload : List Byte) : List Byte :=
  let b := leBytes 4 seq ++ [BitVec.ofNat 8 ty, BitVec.ofNat 8 pid] ++ leBytes 2 payload.length ++ leBytes 8 addr ++ payload ++
    List.replicate (maxPayload - payload.length) 0
  b ++ leBytes 8 (crc64 b).toNat

/-- Whether a receiver takes 256 bytes for a flit (19 R348, R349): the CRC holds over bytes 0 to 247, and the type is one of the list.
What it does not take is a FLIT_CORRUPT. -/
def flitTaken (bytes : List Byte) : Bool :=
  bytes.length = 256 && leNat (bytes.drop 248) = (crc64 (bytes.take 248)).toNat && (bytes.getD 4 0).toNat ∈ flitTypes

/-- Whether a host request reaches the host port (19 R350, R351, R356, R360): the link stands; in CONFIG and RUN a partition
of weight 0 has no turn. -/
def State.hostReaches (st : State) (p : Nat) : Bool :=
  !(tget {} st.links 32).failed && match st.woad.boot with
    | .config | .run => 40 ≤ p || (st.part p).hlw ≠ 0
    | .safe => true
    | _ => false

/-- Whether the host port accepts a range for a partition (19 R351, R360). -/
def State.hostAccepts (st : State) (p pa n : Nat) : Bool :=
  st.woad.boot ≠ .safe && p < 40 && n ≤ maxPayload &&
    ((region pa = .main && (st.part p).inCarve pa (max 1 n)) || st.inWindow p pa (max 1 n))

/-- The first core of the die that a link from outside ends on: die 0 for the host port, and four fabric ports on each die (01 R12, R17;
ports 4d to 4d + 3 on die d: DESIGN CHOICE, log entry 88). -/
def portCore (link : Nat) : Nat := if 16 ≤ link ∧ link < 32 then 40 * ((link - 16) / 4) else 0

/-- A byte as a request from outside, on the die of `core`, reads it (19 R351): the last value at its home. One that the storage has lost is
free (log entry 30), and so is one of another die whose link has failed, for which no completion is named (18 R347; DESIGN CHOICE,
log entry 88). -/
def State.outsideByte (st : State) (core pa : Nat) : Byte :=
  if st.unreadable pa || (st.brokenLink core [pa]).isSome then Config.remoteByte st.tick 1024 pa else (st.last pa).val

/-- What a request from outside reads (19 R351), with the lines that the read rebuilds reported (17 R325). -/
def State.outsideRead (st : State) (core pa n : Nat) : List Byte × State :=
  ((span pa n).map (st.outsideByte core), st.rebuildFor core ((span pa n).filter fun a => (st.brokenLink core [a]).isNone))

/-- HOST_READ_REQUEST (19 R351): the completion carries the number of the request's flit. Bytes of dies 1 to 3 whose link from die 0 has
failed come with status 0 and free values (DESIGN CHOICE, log entry 88: no rule names a completion for them). -/
def execHostReadRequest (p pa len : Nat) (st : State) : Out :=
  if !st.hostReaches p then .next st
  else
    let tag := (tget {} st.links 32).expect
    let st := st.delivered 32
    if st.hostAccepts p pa len then
      let (b, st) := st.outsideRead 0 pa len
      .next (st.emit 32 (.completion tag 0 b))
    else .next (st.emit 32 (.completion tag 2 []))

/-- Bytes from an address as parts, one for each aligned 8-byte unit (19 R351). -/
def unitParts (pa : Nat) (bytes : List Byte) : List WPart :=
  if bytes = [] then [] else (span (pa / 8) ((pa + bytes.length + 7) / 8 - pa / 8)).map fun u =>
    let lo := max pa (8 * u)
    let hi := min (pa + bytes.length) (8 * u + 8)
    { locs := (span lo (hi - lo)).map .phys, bytes := (bytes.drop (lo - pa)).take (hi - lo) }

/-- HOST_WRITE (19 R351): one numbered write on die 0, whose clock is die 0's frontier vector; its completion follows its
acknowledgement. A unit whose home is reached over a failed link is lost (DESIGN CHOICE, log entry 88). -/
def execHostWrite (p pa : Nat) (bytes : List (BitVec 8)) (st : State) : Out :=
  if !st.hostReaches p then .next st
  else
    let tag := (tget {} st.links 32).expect
    let st := st.delivered 32
    if st.hostAccepts p pa bytes.length then
      let n := st.issued.at 0 + 1
      .next { st with
        issued := st.issued.set 0 n
        writes := st.writes ++ [⟨0, n, (st.knownAt 0).set 0 n, noCtx, (unitParts pa bytes).filter fun u =>
          (st.brokenLink 0 (u.locs.map st.visible)).isNone, false, tag + 1⟩] }
    else .next (st.emit 32 (.completion tag 2 []))

/-- FABRIC_REQUEST (19 R352): a read or write by another module, at the homes, when this module has composed the partition
and the range lies in its carve; otherwise it is refused. A write is applied at each home with a number of its die, and acknowledged
once every die knows the numbers (05 R137). The request comes in on its port's die; a write to another die whose link has failed is refused
(DESIGN CHOICE, log entry 88). -/
def execFabricRequest (port p pa : Nat) (wr : Bool) (bytes : List (BitVec 8)) (st : State) : Out :=
  let l := tget {} st.links (16 + port)
  if 16 ≤ port || l.failed || !l.up || maxPayload < bytes.length || !(st.woad.boot = .run || st.woad.boot = .config) then .next st
  else
    let st := st.delivered (16 + port)
    let core := portCore (16 + port)
    let ok := p < 40 && st.pstate p ≠ 0 && region pa = .main && (st.part p).inCarve pa bytes.length &&
      (!wr || (st.brokenLink core (span pa bytes.length)).isNone)
    if !ok then .next (st.emit (16 + port) (.fabric port 2 []))
    else if wr then
      let r := (unitParts pa bytes).foldl (fun (a : Clock × State) u =>
        let pas := u.locs.map a.2.visible
        let die := homeDie (pas.headD 0)
        let t := a.2.deviceWrite die pas u.bytes (a.2.knownAt die)
        (a.1.set die (t.issued.at die), t)) (({} : Clock), st)
      .next { r.2 with fabric := r.2.fabric ++ [(port, r.1)] }.ackFabric
    else
      let (b, st) := st.outsideRead core pa bytes.length
      .next (st.emit (16 + port) (.fabric port 0 b))

/-- A train of another module arrives (05 R137, 10 R269): each element is translated by the paired partition's tables at U, and applied at its
home with a number of its home's die, of the frontiers known there. It is acknowledged once every die knows the numbers. A tail whose count
disagrees, and a train with an element that its home refuses, are refused whole, and nothing is applied (log entry 40). -/
def State.trainArrives (st : State) (port p : Nat) (elems : List (Nat × List Byte)) (count : Nat) : Out :=
  let l := tget ({} : Link) st.links (16 + port)
  if 16 ≤ port || l.failed || !l.up || !(st.woad.boot = .run || st.woad.boot = .config) then .next st
  else
    let core := portCore (16 + port)
    let found := elems.map fun x => (st.locate core p .u .write false (word x.1) x.2.length, x.2)
    let bad := fun (x : Sum (List Loc) (Tr × Word) × List Byte) => match x.1 with
      | .inl locs =>
        st.isMmio locs || (st.brokenLink core (locs.map st.hidden)).isSome ||
          locs.any fun l => match l with | .buf q i _ => (tget ⟨0, 0, 0, 0, false, false⟩ (st.part q).bufs i).void | _ => false
      | .inr _ => true
    if found.any fun x => match x.1 with | .inr (.moving, _) => true | _ => false then .next st
    else
      let st := st.delivered (16 + port)
      if 40 ≤ p || st.pstate p = 0 || count ≠ elems.length || found.any bad then .next (st.emit (16 + port) (.fabric port 2 []))
      else
        let r := found.foldl (fun (a : Clock × State) x =>
          let pas := match x.1 with | .inl locs => locs.map a.2.hidden | .inr _ => []
          let die := homeDie (pas.headD 0)
          let t := a.2.deviceWrite die pas x.2 (a.2.knownAt die)
          (a.1.set die (t.issued.at die), t)) (({} : Clock), st)
        .next { r.2 with fabric := r.2.fabric ++ [(port, r.1)] }.ackFabric

/-- The first byte of an operation's step in progress that lies on a module reached by a port: its operand, its location and its
address. A write that awaits its acknowledgement comes before a read; of an operation that is to start it is the team descriptor. -/
def State.remotePart (st : State) (core slot port : Nat) : Option (Nat × Nat × Word) :=
  let t := st.slot core slot
  let o := t.op
  let n := t.prog + 1
  let by_ := fun (kind : Kind) (a : Word) => match st.reach core o kind a with | .there m _ => decide (st.portOf m = port) | _ => false
  let loc := fun (off : Nat) => if o.kind = .grows then off / o.rb else if o.kind.isColl then o.teamSelf else off / 512
  let offs := if o.kind.isColl then span (4096 * (n - 1)) (min 4096 (o.rb - 4096 * (n - 1))) else o.stepOffsets n
  if t.phase = .waiting then (if (o.kind.isColl || o.kind = .train) && st.mayStart core t && by_ .read o.ctm then some (2, 0, o.ctm) else none)
  else if o.unacked ≠ 0 then
    (if o.kind = .migrOut || o.kind = .migrIn then some (1, t.prog, o.xb &&& 0x00FFFFFFFFFFFF00#64)
    else if o.kind = .train then
      ((o.dests.filter fun x => x.1 ∈ o.rows).find? fun x => by_ .write (word (fld o.brickA.toNat (64 * x.1) 56))).map fun x =>
        (0, x.1, word (fld o.brickA.toNat (64 * x.1) 56))
    else if o.kind = .copyf && o.started then some (2, 0, o.xa1)
    else ((o.stepOffsets n).find? fun off => by_ .write (o.dstAt off)).map fun off => (1, loc off, o.dstAt off))
  else if o.kind.moves || (o.kind.isColl && o.kind ≠ .cbar) then
    (offs.find? fun off => by_ .read (o.srcAt off)).map fun off => (0, loc off, o.srcAt off)
  else none

/-- LINK_COMPLETION (19 R349, R352): a completion for a request of this part's; `tag` names the operation as slot + 64 · core. It
acknowledges a write (05 R137); another module that refuses a transfer makes it fault COPY_ACCESS (17 R319). -/
def execLinkCompletion (link tag status : Nat) (st : State) : Out :=
  if !isLink link || (tget {} st.links link).failed then .next st
  else
    let core := tag / 64
    let slot := tag % 64
    let t := st.slot core slot
    let st := st.delivered link
    if !(16 ≤ link && link < 32 && core < 160 && (t.phase = .running || t.phase = .waiting) && t.pending) then .next st
    else if status = 0 then .next (st.setOp core slot fun o => { o with unacked := o.unacked - 1 })
    else match st.remotePart core slot link with
      | some (k, loc, a) => .next ((st.setSlot core slot Slot.run).faultOp core slot 0x21 k loc (t.prog + 1) a 0)
      | none => .next st

/-- A link is failed, and Woad records it (19 R348). -/
def State.failLink (st : State) (link : Nat) : State := (st.setLinkState link fun l => { l with failed := true }).tellOwn Code.link (word link)

/-- Whether number a is b or follows it within the window, modulo 2^32 (19 R350). -/
def seqFrom (a b : Nat) : Bool := (a + 2 ^ 32 - b) % 2 ^ 32 < 2 ^ 16

/-- How often a flit is replayed before its link is failed (19 R348). -/
def maxReplays : Nat := 8

/-- LINK_ACKNOWLEDGEMENT (19 R348): the held flits up to the number are freed, and what waited for room leaves. -/
def execLinkAcknowledgement (link seq : Nat) (st : State) : Out :=
  .next (if isLink link && !(tget {} st.links link).failed then
    (st.setLinkState link fun l => { l with held := l.held.filter fun h => !seqFrom seq h.seq }).drainLink link else st)

/-- LINK_REPLAY_REQUEST (19 R348): every held flit from the number on is sent again, unchanged. When one of them has already been replayed
8 times without acknowledgement, the link is failed. -/
def execLinkReplayRequest (link seq : Nat) (st : State) : Out :=
  let l := tget {} st.links link
  let again := l.held.filter fun h => seqFrom h.seq seq
  .next (if !isLink link || l.failed then st
  else if again.any fun h => maxReplays ≤ h.times then st.failLink link
  else ({ st with out := st.out ++ again.map (·.msg) } : State).setLinkState link fun l =>
    { l with held := l.held.map fun h => if seqFrom h.seq seq then { h with times := h.times + 1 } else h })

/-- FLIT_CORRUPT (19 R348): the flit is discarded, with every later one, and replay asked for from the first that is lacking. -/
def execFlitCorrupt (link : Nat) (st : State) : Out :=
  let l := tget {} st.links link
  .next (if isLink link && !l.failed then
    ({ st with out := st.out ++ [.replay link l.expect] } : State).setLinkState link fun l => { l with replayAsked := some l.expect, asks := l.asks + 1 } else st)

/-- Whether a link's replay is exhausted (19 R348): a flit of this end, or the one this end waits for, has been replayed 8 times. The flits
of the die-to-die links stand in no field, so theirs may be at any time (log entry 93). -/
def Link.exhausted (l : Link) (link : Nat) : Bool := link < 16 || maxReplays ≤ l.asks || l.held.any fun h => maxReplays ≤ h.times

/-- LINK_FAIL (19 R348): a link whose replay is exhausted is failed, and Woad records it. -/
def execLinkFail (link : Nat) (st : State) : Out :=
  let l := tget {} st.links link
  .next (if isLink link && !l.failed && l.exhausted link then st.failLink link else st)

/-- MIGRATION_DATA (19 R349): a flit of a compressed page is delivered; the page's move is MIGR_PAGE_MOVE's. -/
def execMigrationData (p _ta : Nat) (bytes : List (BitVec 8)) (st : State) : Out :=
  .next (if p < 40 && bytes.length ≤ maxPayload && !(tget {} st.links 32).failed then st.delivered 32 else st)

end Sys2Proof.Machine
end

