-- ==== Sys2Proof/Machine/Issue.lean ====
section
/-! DEFINITION. Issue: the fetch of a word (07 R158, R162), words that are not instructions and the rules of a convoy
(R161, R171), and which contexts may issue (02 R53, 07 R163). -/

namespace Sys2Proof.Machine

/-! ### Words that are not instructions -/

/-- Whether a word of majors 0x30 to 0x34 and 0x3E is an instruction (07 R161, R177, R178). -/
def engineWord (w : Nat) : Bool :=
  fld w 31 1 = 0 && match fld w 23 6, fld w 0 7, fld w 0 8 with
  | 0x30, 0, _ => true
  | 0x30, 1, _ => fld w 13 1 = 0 && fld w 8 1 = 0
  | 0x30, 2, _ | 0x30, 3, _ => fld w 13 1 = 0
  | 0x30, 4, _ => fld w 8 5 = 0
  | 0x31, 0, _ | 0x31, 1, _ => true
  | 0x31, 2, _ => fld w 8 10 = 0
  | 0x31, 3, _ => fld w 8 5 = 0
  | 0x32, m, _ => m ≤ 5 || m = 8 || m = 9 || m = 16 || (m = 10 && fld w 8 10 = 0)
  | 0x33, m, _ => m ≤ 1
  | 0x34, _, f => f = 0 && fld w 20 3 = 0
  | 0x3E, _, 0 => fld w 8 10 = 0
  | 0x3E, _, 1 => fld w 8 15 = 0
  | 0x3E, _, 9 | 0x3E, _, 11 => fld w 8 5 = 0
  | 0x3E, _, f => f ≤ 8 || f = 10
  | _, _, _ => false

/-- Whether a word is an instruction whose major lies outside 0x18..0x2A (07 R161). -/
def scalarWord (w : Nat) : Bool :=
  match fld w 23 6 with
  | 1 => (decode01 w).isSome | 2 => (decode02 w).isSome | 3 => (decode03 w).isSome | 4 => (decode04 w).isSome
  | 5 => (decode05 w).isSome | 6 => (decode06 w).isSome | 7 => (decode07 w).isSome | 8 => (decode08 w).isSome
  | 9 => (decode09 w).isSome | 10 => (decode0A w).isSome | 11 => (decode0B w).isSome | 12 => (decode0C w).isSome
  | 13 => (decode0D w).isSome | 14 => (decode0E w).isSome | 15 => (decode0F w).isSome | 16 => (decode10 w).isSome
  | 17 => (decode11 w).isSome | 18 => (decode12 w).isSome | 19 => (decode13 w).isSome | 20 => (decode14 w).isSome
  | 21 => (decode15 w).isSome | 22 => (decode16 w).isSome
  | _ => engineWord w

/-- Whether the major of a word lies in 0x18..0x2A, the majors of the words of a convoy (07 R171). -/
def vectorMajor (w : Nat) : Bool := 0x18 ≤ fld w 23 6 && fld w 23 6 ≤ 0x2A

/-- The word at the pc of the issuing context is not an instruction (07 R161, 18 R330). -/
def State.illegal (st : State) (w : Word) : State := st.trap Code.illegal { d0 := w }

/-- The word at the pc of the issuing context follows a word with C = 1 and belongs to no convoy (07 R171). -/
def State.convoyTrap (st : State) : State :=
  st.trap Code.convoy { d0 := (st.me.opened.head?.map fun e => e.addr).getD st.me.pc }

/-- ILLEGAL_WORD (07 R161): the issuing context issues a word that is not an instruction, or a scalar or engine word after
a word with C = 1. Any other word makes no such event. -/
def execIllegalWord (w : BitVec 32) (st : State) : Out :=
  if scalarWord w.toNat then .next (if st.me.opened = [] then st else st.convoyTrap)
  else if vectorMajor w.toNat && (VOp.ofWord w.toNat).isSome then .next st
  else .next (st.illegal (w.setWidth 64))

/-! ### Fetch -/

/-- The word at an address, for the issuing context (07 R158), with the state that has translated it; or what the fetch comes to:
a trap (R162), or a wait until the read may be served (05 R120). A fetch is a read of the thread. -/
def State.fetchAt (st : State) (pc : Word) : Sum (Nat × State) Out :=
  let core := coreOf st.cur
  let trap := fun (code : Nat) (d : Detail) => (Sum.inr (.next (st.trapWord st.cur code d pc st.me.pc false)) : Sum (Nat × State) Out)
  match st.locate core (st.partOf core) st.me.sys.cpl .fetch true pc 4 with
  | .inr (.moving, _) => .inr (.next st)
  | .inr (t, _) => trap t.code (t.detail pc .fetch 0)
  | .inl locs =>
    let pas := locs.map st.visible
    if st.isMmio locs then trap Code.pageAccess { va := pc, d0 := word Kind.fetch.code }
    else match st.hardError core pc pas with
    | some (code, d) => trap code d
    | none =>
      if !st.servable st.me.clock pas || overlaps pas (st.pending st.cur) then .inr (.next st)
      else
        let vs := st.threadRead st.cur st.me.clock pc.toNat pas 768
        .inl (leNat (vs.map (·.val)), (st.rebuild pas).fillAt core (st.partOf core) pc 4)

/-- The word at the pc of the issuing context. -/
def State.fetch (st : State) : Sum (Nat × State) Out := st.fetchAt st.me.pc

/-- Whether a word says that its convoy goes on (07 R159, R171). -/
def goesOn (w : Nat) : Bool := vectorMajor w && fld w 31 1 = 1

/-- The words of a convoy from an address on, up to n of them (07 R162: it is fetched whole before any of its words issues): the
run ends with the first word that does not go on. -/
def State.fetchRun (st : State) (pc : Word) : Nat → List (Word × Nat) → Sum (List (Word × Nat) × State) Out
  | 0, ws => .inl (ws, st)
  | n + 1, ws => match st.fetchAt pc with
    | .inr o => .inr o
    | .inl (w, t) => if goesOn w then t.fetchRun (pc + 4) n (ws ++ [(pc, w)]) else .inl (ws ++ [(pc, w)], t)

/-! ### Ready contexts -/

/-- The scalar registers that a queued word has still to write (07 R165). -/
def VOp.scalarDests : VOp → List Nat
  | .ext x _ _ | .mpopc x _ | .mffs x _ | .mget x _ _ => [x.val]
  | .nbget x y _ => [x.val, y.val]
  | _ => []

/-- The scalar registers that the word w reads or writes, by its format (07 R159, R177, R178). -/
def wordRegs (w : Nat) : List Nat :=
  let d := fld w 18 5
  let a := fld w 13 5
  let b := fld w 8 5
  let fn := fld w 0 8
  match fld w 23 6 with
  | 0x01 | 0x11 => [d, a, b]
  | 0x0A => if 0x16 ≤ fn && fn ≤ 0x19 then [d, a] else [d, a, b]
  | 0x02 | 0x03 | 0x04 | 0x05 | 0x06 | 0x07 | 0x0E | 0x0F | 0x10 | 0x16 => [d, a]
  | 0x08 | 0x09 => [d]
  | 0x0B => [fld w 15 5, fld w 10 5]
  | 0x0D => [1]
  | 0x12 => if 1 ≤ fn && fn ≤ 8 then [d, a, b] else []
  | 0x13 => if fn ≤ 3 then [d, a] ++ span 8 8 else [d, a, b]
  | 0x14 => if fn = 7 then [d, a] ++ span 24 8 else [d, a, b]
  | 0x15 => if fld w 11 2 = 0 then [d] else if fld w 11 2 = 1 then [a] else []
  | 0x30 => match fld w 0 7 with
    | 0 => [d, a, b] | 1 => [d, a, a + 1, b, b + 1] | 2 => [d, a, a + 1, b] | 3 => [d, a, a + 1] | _ => [d, a]
  | 0x31 | 0x33 => [d, a, b]
  | 0x32 => if fld w 0 7 = 0x10 then [d] else [d, a, b]
  | 0x34 => [a, b]
  | 0x3E => if fn = 2 then [d] else if fn = 3 then [b] else [d, a, b]
  | _ => match VOp.ofWord w with
    | some op => op.srcs.filter (· < 32) ++ op.scalarDests ++ (match op with | .setl x _ | .setb x _ => [x.val] | _ => [])
    | none => []

/-- The scalar registers that a context has still to receive: of queued vector words, and of loads that it has gone past. -/
def Ctx.owed (k : Ctx) : List Nat :=
  (if k.frozen then [] else k.vq.flatMap fun e => e.op.scalarDests) ++ k.reads.map (·.dst.val)

/-- Whether the word w waits before it issues: for a register that it reads or writes (07 R165), or for loads that the context has gone
past, which only arithmetic, branches, control registers and the loose words pass (05 R116, log entry 96). -/
def Ctx.owes (k : Ctx) (w : Nat) : Bool :=
  (wordRegs w).any (fun r => r ≠ 0 && r ∈ k.owed) ||
    (k.reads ≠ [] && !(fld w 23 6 ≤ 0x0E || fld w 23 6 = 0x15 || fld w 23 6 = 0x25))

/-- Whether a context is ready (02 R52, R53): it has a thread, or is the firmware thread of CONFIG (19 R357), that runs and
waits for nothing. -/
def State.ready (st : State) (c : Nat) : Bool :=
  let k := st.ctx c
  c < 640 && st.ctxRuns c && k.wait.isNone && (k.frozen || !k.vq.any fun e => e.op.holdsIssue) &&
    !st.landStalled c &&
    match st.woad.boot with
    | .run => k.thread.isSome
    | .config => c = 0 && !k.ended
    | _ => false

/-- The contexts that are ready, those after the current one first (02 R53). -/
def State.readyList (st : State) : List Nat :=
  let l := (st.ctxs.map (·.1)).filter st.ready
  l.filter (st.cur < ·) ++ l.filter (· ≤ st.cur)

/-- Whether a context passes its turn: it has yielded, and another context of its core is ready (08 R194). -/
def State.passes (st : State) (c : Nat) : Bool := (st.ctx c).yielded && st.readyList.any fun x => x ≠ c && coreOf x = coreOf c

/-- The next context that issues, with those before it in turn, which pass theirs by YIELD (08 R194). -/
def State.nextReady (st : State) : Option (List Nat × Nat) :=
  let l := st.readyList
  match l.find? fun c => !st.passes c with
  | some c => some (l.takeWhile st.passes, c)
  | none => l.head?.map fun c => ([], c)

end Sys2Proof.Machine
end

