-- ==== Sys2Proof/Machine/Lanes.lean ====
section
/-! DEFINITION. Lanes: the meanings of the vector words, majors 0x18 to 0x2A and 0x34 (07 R163): each one issues its
operation, which `Solo` and `Group` perform. -/

namespace Sys2Proof.Machine

/-- VADD (R212): queued, and performed by the sequencer. -/
def execVadd (c : Bool) (s : Fin 4) (d : Fin 32) (a : Fin 32) (b : Fin 32) (st : State) : Out :=
  st.vec c s (.int .add d a b)

/-- VSUB (R212): queued, and performed by the sequencer. -/
def execVsub (c : Bool) (s : Fin 4) (d : Fin 32) (a : Fin 32) (b : Fin 32) (st : State) : Out :=
  st.vec c s (.int .sub d a b)

/-- VMUL (R212): queued, and performed by the sequencer. -/
def execVmul (c : Bool) (s : Fin 4) (d : Fin 32) (a : Fin 32) (b : Fin 32) (st : State) : Out :=
  st.vec c s (.int .mul d a b)

/-- VMULH (R212): queued, and performed by the sequencer. -/
def execVmulh (c : Bool) (s : Fin 4) (d : Fin 32) (a : Fin 32) (b : Fin 32) (st : State) : Out :=
  st.vec c s (.int .mulh d a b)

/-- VMIN (R212): queued, and performed by the sequencer. -/
def execVmin (c : Bool) (s : Fin 4) (d : Fin 32) (a : Fin 32) (b : Fin 32) (st : State) : Out :=
  st.vec c s (.int .min d a b)

/-- VMAX (R212): queued, and performed by the sequencer. -/
def execVmax (c : Bool) (s : Fin 4) (d : Fin 32) (a : Fin 32) (b : Fin 32) (st : State) : Out :=
  st.vec c s (.int .max d a b)

/-- VAND (R212): queued, and performed by the sequencer. -/
def execVand (c : Bool) (s : Fin 4) (d : Fin 32) (a : Fin 32) (b : Fin 32) (st : State) : Out :=
  st.vec c s (.int .and d a b)

/-- VOR (R212): queued, and performed by the sequencer. -/
def execVor (c : Bool) (s : Fin 4) (d : Fin 32) (a : Fin 32) (b : Fin 32) (st : State) : Out :=
  st.vec c s (.int .or d a b)

/-- VXOR (R212): queued, and performed by the sequencer. -/
def execVxor (c : Bool) (s : Fin 4) (d : Fin 32) (a : Fin 32) (b : Fin 32) (st : State) : Out :=
  st.vec c s (.int .xor d a b)

/-- VANDN (R212): queued, and performed by the sequencer. -/
def execVandn (c : Bool) (s : Fin 4) (d : Fin 32) (a : Fin 32) (b : Fin 32) (st : State) : Out :=
  st.vec c s (.int .andn d a b)

/-- VSLL (R212): queued, and performed by the sequencer. -/
def execVsll (c : Bool) (s : Fin 4) (d : Fin 32) (a : Fin 32) (b : Fin 32) (st : State) : Out :=
  st.vec c s (.int .sll d a b)

/-- VSRL (R212): queued, and performed by the sequencer. -/
def execVsrl (c : Bool) (s : Fin 4) (d : Fin 32) (a : Fin 32) (b : Fin 32) (st : State) : Out :=
  st.vec c s (.int .srl d a b)

/-- VSRA (R212): queued, and performed by the sequencer. -/
def execVsra (c : Bool) (s : Fin 4) (d : Fin 32) (a : Fin 32) (b : Fin 32) (st : State) : Out :=
  st.vec c s (.int .sra d a b)

/-- VADDS (R212): queued, and performed by the sequencer. -/
def execVadds (c : Bool) (s : Fin 4) (d : Fin 32) (a : Fin 32) (b : Fin 32) (st : State) : Out :=
  st.vec c s (.int .adds d a b)

/-- VSUBS (R212): queued, and performed by the sequencer. -/
def execVsubs (c : Bool) (s : Fin 4) (d : Fin 32) (a : Fin 32) (b : Fin 32) (st : State) : Out :=
  st.vec c s (.int .subs d a b)

/-- VAVG (R212): queued, and performed by the sequencer. -/
def execVavg (c : Bool) (s : Fin 4) (d : Fin 32) (a : Fin 32) (b : Fin 32) (st : State) : Out :=
  st.vec c s (.int .avg d a b)

/-- VABS (R212): queued, and performed by the sequencer. -/
def execVabs (c : Bool) (s : Fin 4) (d : Fin 32) (a : Fin 32) (st : State) : Out :=
  st.vec c s (.int .abs d a 0)

/-- VCLZ (R212): queued, and performed by the sequencer. -/
def execVclz (c : Bool) (s : Fin 4) (d : Fin 32) (a : Fin 32) (st : State) : Out :=
  st.vec c s (.int .clz d a 0)

/-- VFFS (R212): queued, and performed by the sequencer. -/
def execVffs (c : Bool) (s : Fin 4) (d : Fin 32) (a : Fin 32) (st : State) : Out :=
  st.vec c s (.int .ffs d a 0)

/-- VPOPC (R212): queued, and performed by the sequencer. -/
def execVpopc (c : Bool) (s : Fin 4) (d : Fin 32) (a : Fin 32) (st : State) : Out :=
  st.vec c s (.int .popc d a 0)

/-- VADD (R216): queued, and performed by the sequencer. -/
def execVaddVs (c : Bool) (s : Fin 4) (d : Fin 32) (a : Fin 32) (x : Fin 32) (st : State) : Out :=
  st.vec c s (.intVs .add d a x)

/-- VSUB (R216): queued, and performed by the sequencer. -/
def execVsubVs (c : Bool) (s : Fin 4) (d : Fin 32) (a : Fin 32) (x : Fin 32) (st : State) : Out :=
  st.vec c s (.intVs .sub d a x)

/-- VMUL (R216): queued, and performed by the sequencer. -/
def execVmulVs (c : Bool) (s : Fin 4) (d : Fin 32) (a : Fin 32) (x : Fin 32) (st : State) : Out :=
  st.vec c s (.intVs .mul d a x)

/-- VMULH (R216): queued, and performed by the sequencer. -/
def execVmulhVs (c : Bool) (s : Fin 4) (d : Fin 32) (a : Fin 32) (x : Fin 32) (st : State) : Out :=
  st.vec c s (.intVs .mulh d a x)

/-- VMIN (R216): queued, and performed by the sequencer. -/
def execVminVs (c : Bool) (s : Fin 4) (d : Fin 32) (a : Fin 32) (x : Fin 32) (st : State) : Out :=
  st.vec c s (.intVs .min d a x)

/-- VMAX (R216): queued, and performed by the sequencer. -/
def execVmaxVs (c : Bool) (s : Fin 4) (d : Fin 32) (a : Fin 32) (x : Fin 32) (st : State) : Out :=
  st.vec c s (.intVs .max d a x)

/-- VAND (R216): queued, and performed by the sequencer. -/
def execVandVs (c : Bool) (s : Fin 4) (d : Fin 32) (a : Fin 32) (x : Fin 32) (st : State) : Out :=
  st.vec c s (.intVs .and d a x)

/-- VOR (R216): queued, and performed by the sequencer. -/
def execVorVs (c : Bool) (s : Fin 4) (d : Fin 32) (a : Fin 32) (x : Fin 32) (st : State) : Out :=
  st.vec c s (.intVs .or d a x)

/-- VXOR (R216): queued, and performed by the sequencer. -/
def execVxorVs (c : Bool) (s : Fin 4) (d : Fin 32) (a : Fin 32) (x : Fin 32) (st : State) : Out :=
  st.vec c s (.intVs .xor d a x)

/-- VANDN (R216): queued, and performed by the sequencer. -/
def execVandnVs (c : Bool) (s : Fin 4) (d : Fin 32) (a : Fin 32) (x : Fin 32) (st : State) : Out :=
  st.vec c s (.intVs .andn d a x)

/-- VSLL (R216): queued, and performed by the sequencer. -/
def execVsllVs (c : Bool) (s : Fin 4) (d : Fin 32) (a : Fin 32) (x : Fin 32) (st : State) : Out :=
  st.vec c s (.intVs .sll d a x)

/-- VSRL (R216): queued, and performed by the sequencer. -/
def execVsrlVs (c : Bool) (s : Fin 4) (d : Fin 32) (a : Fin 32) (x : Fin 32) (st : State) : Out :=
  st.vec c s (.intVs .srl d a x)

/-- VSRA (R216): queued, and performed by the sequencer. -/
def execVsraVs (c : Bool) (s : Fin 4) (d : Fin 32) (a : Fin 32) (x : Fin 32) (st : State) : Out :=
  st.vec c s (.intVs .sra d a x)

/-- VADDS (R216): queued, and performed by the sequencer. -/
def execVaddsVs (c : Bool) (s : Fin 4) (d : Fin 32) (a : Fin 32) (x : Fin 32) (st : State) : Out :=
  st.vec c s (.intVs .adds d a x)

/-- VSUBS (R216): queued, and performed by the sequencer. -/
def execVsubsVs (c : Bool) (s : Fin 4) (d : Fin 32) (a : Fin 32) (x : Fin 32) (st : State) : Out :=
  st.vec c s (.intVs .subs d a x)

/-- VAVG (R216): queued, and performed by the sequencer. -/
def execVavgVs (c : Bool) (s : Fin 4) (d : Fin 32) (a : Fin 32) (x : Fin 32) (st : State) : Out :=
  st.vec c s (.intVs .avg d a x)

/-- VFADD (R213): queued, and performed by the sequencer. -/
def execVfadd (c : Bool) (s : Fin 4) (d : Fin 32) (a : Fin 32) (b : Fin 32) (st : State) : Out :=
  st.vec c s (.fp .add d a b)

/-- VFSUB (R213): queued, and performed by the sequencer. -/
def execVfsub (c : Bool) (s : Fin 4) (d : Fin 32) (a : Fin 32) (b : Fin 32) (st : State) : Out :=
  st.vec c s (.fp .sub d a b)

/-- VFMUL (R213): queued, and performed by the sequencer. -/
def execVfmul (c : Bool) (s : Fin 4) (d : Fin 32) (a : Fin 32) (b : Fin 32) (st : State) : Out :=
  st.vec c s (.fp .mul d a b)

/-- VFMAC (R213): queued, and performed by the sequencer. -/
def execVfmac (c : Bool) (s : Fin 4) (d : Fin 32) (a : Fin 32) (b : Fin 32) (st : State) : Out :=
  st.vec c s (.fp .mac d a b)

/-- VFNMAC (R213): queued, and performed by the sequencer. -/
def execVfnmac (c : Bool) (s : Fin 4) (d : Fin 32) (a : Fin 32) (b : Fin 32) (st : State) : Out :=
  st.vec c s (.fp .nmac d a b)

/-- VFMIN (R213): queued, and performed by the sequencer. -/
def execVfmin (c : Bool) (s : Fin 4) (d : Fin 32) (a : Fin 32) (b : Fin 32) (st : State) : Out :=
  st.vec c s (.fp .min d a b)

/-- VFMAX (R213): queued, and performed by the sequencer. -/
def execVfmax (c : Bool) (s : Fin 4) (d : Fin 32) (a : Fin 32) (b : Fin 32) (st : State) : Out :=
  st.vec c s (.fp .max d a b)

/-- VFDIV (R213): queued, and performed by the sequencer. -/
def execVfdiv (c : Bool) (s : Fin 4) (d : Fin 32) (a : Fin 32) (b : Fin 32) (st : State) : Out :=
  st.vec c s (.fp .div d a b)

/-- VFABS (R215): queued, and performed by the sequencer. -/
def execVfabs (c : Bool) (s : Fin 4) (d : Fin 32) (a : Fin 32) (st : State) : Out :=
  st.vec c s (.fp .abs d a 0)

/-- VFNEG (R215): queued, and performed by the sequencer. -/
def execVfneg (c : Bool) (s : Fin 4) (d : Fin 32) (a : Fin 32) (st : State) : Out :=
  st.vec c s (.fp .neg d a 0)

/-- VFSQRT (R214): queued, and performed by the sequencer. -/
def execVfsqrt (c : Bool) (s : Fin 4) (d : Fin 32) (a : Fin 32) (st : State) : Out :=
  st.vec c s (.fp .sqrt d a 0)

/-- VFREC (R214): queued, and performed by the sequencer. -/
def execVfrec (c : Bool) (s : Fin 4) (d : Fin 32) (a : Fin 32) (st : State) : Out :=
  st.vec c s (.fp .recip d a 0)

/-- VFEXP2 (R214): queued, and performed by the sequencer. -/
def execVfexp2 (c : Bool) (s : Fin 4) (d : Fin 32) (a : Fin 32) (st : State) : Out :=
  st.vec c s (.fp .exp2 d a 0)

/-- VFLOG2 (R214): queued, and performed by the sequencer. -/
def execVflog2 (c : Bool) (s : Fin 4) (d : Fin 32) (a : Fin 32) (st : State) : Out :=
  st.vec c s (.fp .log2 d a 0)

/-- VFCLASS (R215): queued, and performed by the sequencer. It raises nothing for a signalling NaN: DESIGN CHOICE,
log entry 98. -/
def execVfclass (c : Bool) (s : Fin 4) (d : Fin 32) (a : Fin 32) (st : State) : Out :=
  st.vec c s (.fp .fclass d a 0)

/-- VFADD (R216): queued, and performed by the sequencer. -/
def execVfaddVs (c : Bool) (s : Fin 4) (d : Fin 32) (a : Fin 32) (x : Fin 32) (st : State) : Out :=
  st.vec c s (.fpVs .add d a x)

/-- VFSUB (R216): queued, and performed by the sequencer. -/
def execVfsubVs (c : Bool) (s : Fin 4) (d : Fin 32) (a : Fin 32) (x : Fin 32) (st : State) : Out :=
  st.vec c s (.fpVs .sub d a x)

/-- VFMUL (R216): queued, and performed by the sequencer. -/
def execVfmulVs (c : Bool) (s : Fin 4) (d : Fin 32) (a : Fin 32) (x : Fin 32) (st : State) : Out :=
  st.vec c s (.fpVs .mul d a x)

/-- VFMAC (R216): queued, and performed by the sequencer. -/
def execVfmacVs (c : Bool) (s : Fin 4) (d : Fin 32) (a : Fin 32) (x : Fin 32) (st : State) : Out :=
  st.vec c s (.fpVs .mac d a x)

/-- VFNMAC (R216): queued, and performed by the sequencer. -/
def execVfnmacVs (c : Bool) (s : Fin 4) (d : Fin 32) (a : Fin 32) (x : Fin 32) (st : State) : Out :=
  st.vec c s (.fpVs .nmac d a x)

/-- VFMIN (R216): queued, and performed by the sequencer. -/
def execVfminVs (c : Bool) (s : Fin 4) (d : Fin 32) (a : Fin 32) (x : Fin 32) (st : State) : Out :=
  st.vec c s (.fpVs .min d a x)

/-- VFMAX (R216): queued, and performed by the sequencer. -/
def execVfmaxVs (c : Bool) (s : Fin 4) (d : Fin 32) (a : Fin 32) (x : Fin 32) (st : State) : Out :=
  st.vec c s (.fpVs .max d a x)

/-- VFDIV (R216): queued, and performed by the sequencer. -/
def execVfdivVs (c : Bool) (s : Fin 4) (d : Fin 32) (a : Fin 32) (x : Fin 32) (st : State) : Out :=
  st.vec c s (.fpVs .div d a x)

/-- VCMP.cond (R219): queued, and performed by the sequencer. -/
def execVcmp (c : Bool) (s : Fin 4) (o : Cond) (m : Fin 8) (a : Fin 32) (b : Fin 32) (st : State) : Out :=
  st.vec c s (.cmp o m a b)

/-- VFCMP.cond (R219): queued, and performed by the sequencer. -/
def execVfcmp (c : Bool) (s : Fin 4) (o : Cond) (m : Fin 8) (a : Fin 32) (b : Fin 32) (st : State) : Out :=
  st.vec c s (.fcmp o m a b)

/-- VSLUP (R222): queued, and performed by the sequencer. -/
def execVslup (c : Bool) (s : Fin 4) (d : Fin 32) (a : Fin 32) (x : Fin 32) (st : State) : Out :=
  st.vec c s (.slup d a x)

/-- VSLDN (R222): queued, and performed by the sequencer. -/
def execVsldn (c : Bool) (s : Fin 4) (d : Fin 32) (a : Fin 32) (x : Fin 32) (st : State) : Out :=
  st.vec c s (.sldn d a x)

/-- VDUP (R222): queued, and performed by the sequencer. -/
def execVdup (c : Bool) (s : Fin 4) (d : Fin 32) (a : Fin 32) (x : Fin 32) (st : State) : Out :=
  st.vec c s (.dup d a x)

/-- VCOMP (R223): queued, and performed by the sequencer. -/
def execVcomp (c : Bool) (s : Fin 4) (d : Fin 32) (a : Fin 32) (st : State) : Out :=
  st.vec c s (.comp d a)

/-- VEXP (R224): queued, and performed by the sequencer. -/
def execVexp (c : Bool) (s : Fin 4) (d : Fin 32) (a : Fin 32) (st : State) : Out :=
  st.vec c s (.exp d a)

/-- VTRN (R225): queued, and performed by the sequencer. -/
def execVtrn (c : Bool) (s : Fin 4) (d : Fin 32) (a : Fin 32) (p : Pair) (st : State) : Out :=
  st.vec c s (.trn d a p)

/-- VIOTA (R225): queued, and performed by the sequencer. -/
def execViota (c : Bool) (s : Fin 4) (d : Fin 32) (st : State) : Out :=
  st.vec c s (.iota d)

/-- VSEL (R225): queued, and performed by the sequencer. -/
def execVsel (c : Bool) (s : Fin 4) (d : Fin 32) (a : Fin 32) (b : Fin 32) (st : State) : Out :=
  st.vec c s (.sel d a b)

/-- VTBL (R226): queued, and performed by the sequencer. -/
def execVtbl (c : Bool) (s : Fin 4) (d : Fin 32) (a : Fin 32) (n : Fin 8) (h : Bool) (f : BitVec 8) (st : State) : Out :=
  st.vec c s (.tbl d a h n f)

/-- VRSUM (R229): queued, and performed by the sequencer. -/
def execVrsum (c : Bool) (s : Fin 4) (d : Fin 32) (a : Fin 32) (st : State) : Out :=
  st.vec c s (.red .sum d a)

/-- VRMAX (R229): queued, and performed by the sequencer. -/
def execVrmax (c : Bool) (s : Fin 4) (d : Fin 32) (a : Fin 32) (st : State) : Out :=
  st.vec c s (.red .max d a)

/-- VRMIN (R229): queued, and performed by the sequencer. -/
def execVrmin (c : Bool) (s : Fin 4) (d : Fin 32) (a : Fin 32) (st : State) : Out :=
  st.vec c s (.red .min d a)

/-- VRAND (R229): queued, and performed by the sequencer. -/
def execVrand (c : Bool) (s : Fin 4) (d : Fin 32) (a : Fin 32) (st : State) : Out :=
  st.vec c s (.red .and d a)

/-- VROR (R229): queued, and performed by the sequencer. -/
def execVror (c : Bool) (s : Fin 4) (d : Fin 32) (a : Fin 32) (st : State) : Out :=
  st.vec c s (.red .or d a)

/-- VRXOR (R229): queued, and performed by the sequencer. -/
def execVrxor (c : Bool) (s : Fin 4) (d : Fin 32) (a : Fin 32) (st : State) : Out :=
  st.vec c s (.red .xor d a)

/-- VSCAN (R230): queued, and performed by the sequencer. -/
def execVscan (c : Bool) (s : Fin 4) (d : Fin 32) (a : Fin 32) (st : State) : Out :=
  st.vec c s (.scan d a)

/-- VCVT (R220): queued, and performed by the sequencer. -/
def execVcvt (c : Bool) (s : Fin 4) (d : Fin 32) (a : Fin 32) (t : Fmt) (st : State) : Out :=
  st.vec c s (.cvt d a t)

/-- AMUL (R233): queued, and performed by the sequencer. -/
def execAmul (c : Bool) (s : Fin 4) (d : Fin 32) (a : Fin 32) (b : Fin 32) (st : State) : Out :=
  st.vec c s (.amul d a b)

/-- AMAC (R233): queued, and performed by the sequencer. -/
def execAmac (c : Bool) (s : Fin 4) (d : Fin 32) (a : Fin 32) (b : Fin 32) (st : State) : Out :=
  st.vec c s (.amac d a b)

/-- ACONJ (R109): queued, and performed by the sequencer. -/
def execAconj (c : Bool) (s : Fin 4) (d : Fin 32) (a : Fin 32) (st : State) : Out :=
  st.vec c s (.aconj d a)

/-- ANORM (R109): queued, and performed by the sequencer. -/
def execAnorm (c : Bool) (s : Fin 4) (d : Fin 32) (a : Fin 32) (st : State) : Out :=
  st.vec c s (.anorm d a)

/-- ALD (R234): queued, and performed by the sequencer. -/
def execAld (c : Bool) (s : Fin 4) (j : Fin 8) (a : Fin 32) (st : State) : Out :=
  st.vec c s (.ald j a)

/-- SCAC (R103): queued, and performed by the sequencer. -/
def execScac (c : Bool) (s : Fin 4) (d : Fin 32) (a : Fin 32) (k : Fin 4) (st : State) : Out :=
  st.vec c s (.scac d a k)

/-- OMOV.F (R217): queued, and performed by the sequencer. -/
def execOmovF (c : Bool) (s : Fin 4) (d : Fin 32) (a : Fin 32) (dx : Off) (dy : Off) (dz : Off) (st : State) : Out :=
  st.vec c s (.off true .mov d a 0 dx dy dz)

/-- OADD.F (R217): queued, and performed by the sequencer. -/
def execOaddF (c : Bool) (s : Fin 4) (d : Fin 32) (a : Fin 32) (dx : Off) (dy : Off) (dz : Off) (b : Fin 32) (st : State) : Out :=
  st.vec c s (.off true .add d a b dx dy dz)

/-- OSUB.F (R217): queued, and performed by the sequencer. -/
def execOsubF (c : Bool) (s : Fin 4) (d : Fin 32) (a : Fin 32) (dx : Off) (dy : Off) (dz : Off) (b : Fin 32) (st : State) : Out :=
  st.vec c s (.off true .sub d a b dx dy dz)

/-- OMAC.F (R217): queued, and performed by the sequencer. -/
def execOmacF (c : Bool) (s : Fin 4) (d : Fin 32) (a : Fin 32) (dx : Off) (dy : Off) (dz : Off) (b : Fin 32) (st : State) : Out :=
  st.vec c s (.off true .mac d a b dx dy dz)

/-- OMOV (R217): queued, and performed by the sequencer. -/
def execOmov (c : Bool) (s : Fin 4) (d : Fin 32) (a : Fin 32) (dx : Off) (dy : Off) (dz : Off) (st : State) : Out :=
  st.vec c s (.off false .mov d a 0 dx dy dz)

/-- OADD (R217): queued, and performed by the sequencer. -/
def execOadd (c : Bool) (s : Fin 4) (d : Fin 32) (a : Fin 32) (dx : Off) (dy : Off) (dz : Off) (b : Fin 32) (st : State) : Out :=
  st.vec c s (.off false .add d a b dx dy dz)

/-- OSUB (R217): queued, and performed by the sequencer. -/
def execOsub (c : Bool) (s : Fin 4) (d : Fin 32) (a : Fin 32) (dx : Off) (dy : Off) (dz : Off) (b : Fin 32) (st : State) : Out :=
  st.vec c s (.off false .sub d a b dx dy dz)

/-- OMAC (R217): queued, and performed by the sequencer. -/
def execOmac (c : Bool) (s : Fin 4) (d : Fin 32) (a : Fin 32) (dx : Off) (dy : Off) (dz : Off) (b : Fin 32) (st : State) : Out :=
  st.vec c s (.off false .mac d a b dx dy dz)

/-- VLD (R240): queued, and performed by the sequencer. -/
def execVld (c : Bool) (s : Fin 4) (b : Fin 32) (a : Fin 32) (i : Fin 32) (st : State) : Out :=
  st.vec c s (.ld .space b a i)

/-- VST (R240): queued, and performed by the sequencer. -/
def execVst (c : Bool) (s : Fin 4) (b : Fin 32) (a : Fin 32) (i : Fin 32) (st : State) : Out :=
  st.vec c s (.st .space b a i)

/-- VLDL (R240): queued, and performed by the sequencer. -/
def execVldl (c : Bool) (s : Fin 4) (b : Fin 32) (a : Fin 32) (i : Fin 32) (st : State) : Out :=
  st.vec c s (.ld .lane b a i)

/-- VSTL (R240): queued, and performed by the sequencer. -/
def execVstl (c : Bool) (s : Fin 4) (b : Fin 32) (a : Fin 32) (i : Fin 32) (st : State) : Out :=
  st.vec c s (.st .lane b a i)

/-- VLDX (R116): queued, and performed by the sequencer. -/
def execVldx (c : Bool) (s : Fin 4) (b : Fin 32) (a : Fin 32) (i : Fin 32) (st : State) : Out :=
  st.vec c s (.ld .cross b a i)

/-- VSTX (R116): queued, and performed by the sequencer. -/
def execVstx (c : Bool) (s : Fin 4) (b : Fin 32) (a : Fin 32) (i : Fin 32) (st : State) : Out :=
  st.vec c s (.st .cross b a i)

/-- VLDI (R243): queued, and performed by the sequencer. -/
def execVldi (c : Bool) (s : Fin 4) (b : Fin 32) (a : Fin 32) (i : Fin 32) (st : State) : Out :=
  st.vec c s (.ldi b a i)

/-- VSTI (R243): queued, and performed by the sequencer. -/
def execVsti (c : Bool) (s : Fin 4) (b : Fin 32) (a : Fin 32) (i : Fin 32) (st : State) : Out :=
  st.vec c s (.sti b a i)

/-- VSTIA (R244): queued, and performed by the sequencer. -/
def execVstia (c : Bool) (s : Fin 4) (b : Fin 32) (a : Fin 32) (i : Fin 32) (st : State) : Out :=
  st.vec c s (.stia b a i)

/-- VLDA (R245): queued, and performed by the sequencer. -/
def execVlda (c : Bool) (s : Fin 4) (b : Fin 32) (a : Fin 32) (i : Fin 32) (st : State) : Out :=
  st.vec c s (.lda b a i)

/-- GATHB (R246): queued, and performed by the sequencer. -/
def execGathb (c : Bool) (s : Fin 4) (b : Fin 32) (a : Fin 32) (i : Fin 32) (m : Fin 8) (st : State) : Out :=
  st.vec c s (.gathb b a i m)

/-- MAND (R231): queued, and performed by the sequencer. -/
def execMand (c : Bool) (s : Fin 4) (d : Fin 8) (a : Fin 8) (b : Fin 8) (st : State) : Out :=
  st.vec c s (.mask .and d a b)

/-- MOR (R231): queued, and performed by the sequencer. -/
def execMor (c : Bool) (s : Fin 4) (d : Fin 8) (a : Fin 8) (b : Fin 8) (st : State) : Out :=
  st.vec c s (.mask .or d a b)

/-- MXOR (R231): queued, and performed by the sequencer. -/
def execMxor (c : Bool) (s : Fin 4) (d : Fin 8) (a : Fin 8) (b : Fin 8) (st : State) : Out :=
  st.vec c s (.mask .xor d a b)

/-- MNOT (R231): queued, and performed by the sequencer. -/
def execMnot (c : Bool) (s : Fin 4) (d : Fin 8) (a : Fin 8) (st : State) : Out :=
  st.vec c s (.mask .not d a 0)

/-- MPOPC (R232): queued, and performed by the sequencer. -/
def execMpopc (c : Bool) (s : Fin 4) (d : Fin 32) (a : Fin 8) (st : State) : Out :=
  st.vec c s (.mpopc d a)

/-- MFFS (R232): queued, and performed by the sequencer. -/
def execMffs (c : Bool) (s : Fin 4) (d : Fin 32) (a : Fin 8) (st : State) : Out :=
  st.vec c s (.mffs d a)

/-- MSET (R232): queued, and performed by the sequencer. -/
def execMset (c : Bool) (s : Fin 4) (d : Fin 8) (a : Fin 32) (b : Fin 32) (st : State) : Out :=
  st.vec c s (.mset d a b)

/-- MGET (R232): queued, and performed by the sequencer. -/
def execMget (c : Bool) (s : Fin 4) (d : Fin 32) (a : Fin 8) (b : Fin 32) (st : State) : Out :=
  st.vec c s (.mget d a b)

/-- VSPLAT (R227): queued, and performed by the sequencer. -/
def execVsplat (c : Bool) (s : Fin 4) (d : Fin 32) (x : Fin 32) (st : State) : Out :=
  st.vec c s (.splat d x)

/-- VEXT (R227): queued, and performed by the sequencer. -/
def execVext (c : Bool) (s : Fin 4) (d : Fin 32) (a : Fin 32) (x : Fin 32) (st : State) : Out :=
  st.vec c s (.ext d a x)

/-- VINS (R227): queued, and performed by the sequencer. -/
def execVins (c : Bool) (s : Fin 4) (d : Fin 32) (a : Fin 32) (x : Fin 32) (st : State) : Out :=
  st.vec c s (.ins d a x)

/-- VSETL (R228): queued, and performed by the sequencer. -/
def execVsetl (c : Bool) (s : Fin 4) (d : Fin 32) (a : Fin 32) (st : State) : Out :=
  st.vec c s (.setl d a)

/-- VSETB (R228): queued, and performed by the sequencer. -/
def execVsetb (c : Bool) (s : Fin 4) (d : Fin 32) (a : Fin 32) (st : State) : Out :=
  st.vec c s (.setb d a)

/-- NBSET (R235): queued, and performed by the sequencer. -/
def execNbset (c : Bool) (s : Fin 4) (d : Fin 32) (a : Fin 32) (b : Fin 32) (st : State) : Out :=
  st.vec c s (.nbset d a b)

/-- NBGET (R235): queued, and performed by the sequencer. -/
def execNbget (c : Bool) (s : Fin 4) (a : Fin 32) (b : Fin 32) (d : Fin 32) (st : State) : Out :=
  st.vec c s (.nbget a b d)

/-- WAITV (R248): queued, and performed by the sequencer. -/
def execWaitv (c : Bool) (s : Fin 4) (m : Fin 8) (a : Fin 32) (b : Fin 32) (x : Fin 32) (st : State) : Out :=
  st.vec c s (.waitv m a b x)

/-- SCLD (R247): queued, and performed by the sequencer. -/
def execScld (s : Fin 4) (k : Fin 4) (a : Fin 32) (b : Fin 32) (st : State) : Out :=
  st.vec false s (.scld k a b)

end Sys2Proof.Machine
end

