-- ==== Sys2Proof/Machine/Crypto.lean ====
section
/-! DEFINITION. Crypto: the published functions that 00 R11 names and 19 R358 and R361 use: SHA-384 (FIPS 180-4), the check of an
RSA-3072 PSS signature (RFC 8017) and of an SLH-DSA-SHA2-256s signature (FIPS 205). The manual names these standards and does not
restate them; what they leave to their user stands in log entry 5. -/

namespace Sys2Proof.Machine

/-! ### Bytes and words -/

/-- A number as n bytes, the most significant first. -/
def beBytes (n v : Nat) : List Byte := (List.range n).map fun i => BitVec.ofNat 8 (v / 256 ^ (n - 1 - i))
/-- Bytes as a number, the most significant first. -/
def beNat (bs : List Byte) : Nat := bs.foldl (fun a b => 256 * a + b.toNat) 0
/-- Part i of a list cut into parts of n. -/
def part (n i : Nat) (l : List α) : List α := (l.drop (n * i)).take n

/-! ### The SHA-2 functions -/

/-- The k-th root of v, rounded down, found bit by bit from bit n down. -/
def rootBelow (k v : Nat) : Nat → Nat → Nat
  | 0, r => r
  | n + 1, r => rootBelow k v n (if (r + 2 ^ n) ^ k ≤ v then r + 2 ^ n else r)
/-- The first w bits of the fractional part of the k-th root of p. -/
def rootBits (k w p : Nat) : BitVec w := BitVec.ofNat w (rootBelow k (p * 2 ^ (k * w)) (w + 6) 0)

/-- The first 80 primes. -/
def primes80 : List Nat := ((List.range 410).filter fun n => 1 < n && (List.range n).all fun d => d < 2 || n % d ≠ 0).take 80

/-- What distinguishes the functions of one word width: the rotations of the four functions of a round, the last of the small
ones being a shift, and the rounds. -/
structure Sha2 where
  big0 : Nat × Nat × Nat
  big1 : Nat × Nat × Nat
  small0 : Nat × Nat × Nat
  small1 : Nat × Nat × Nat
  rounds : Nat
deriving DecidableEq, Repr

/-- The functions on 32-bit words. -/
def sha32 : Sha2 := ⟨(2, 13, 22), (6, 11, 25), (7, 18, 3), (17, 19, 10), 64⟩
/-- The functions on 64-bit words. -/
def sha64 : Sha2 := ⟨(28, 34, 39), (14, 18, 41), (1, 8, 7), (19, 61, 6), 80⟩

/-- The sum of three rotations. -/
def rots (x : BitVec w) (r : Nat × Nat × Nat) : BitVec w := x.rotateRight r.1 ^^^ x.rotateRight r.2.1 ^^^ x.rotateRight r.2.2
/-- The sum of two rotations and a shift. -/
def rotsShift (x : BitVec w) (r : Nat × Nat × Nat) : BitVec w := x.rotateRight r.1 ^^^ x.rotateRight r.2.1 ^^^ x >>> r.2.2

/-- The message schedule, the latest word first, extended by n words. -/
def schedule (f : Sha2) : Nat → List (BitVec w) → List (BitVec w)
  | 0, l => l
  | n + 1, l => schedule f n ((rotsShift (l.getD 1 0) f.small1 + l.getD 6 0 + rotsShift (l.getD 14 0) f.small0 + l.getD 15 0) :: l)

/-- One round, with the sum of its constant and its schedule word. -/
def shaRound (f : Sha2) (s : List (BitVec w)) (kw : BitVec w) : List (BitVec w) :=
  match s with
  | [a, b, c, d, e, g, h, i] =>
    let t := i + rots e f.big1 + ((e &&& g) ^^^ (~~~e &&& h)) + kw
    [t + rots a f.big0 + ((a &&& b) ^^^ (a &&& c) ^^^ (b &&& c)), a, b, c, d + t, e, g, h]
  | _ => s

/-- One block of 16 words. -/
def shaBlock (f : Sha2) (ks : List (BitVec w)) (s block : List (BitVec w)) : List (BitVec w) :=
  let ws := (schedule f (f.rounds - 16) block.reverse).reverse
  (s.zip ((ks.zip ws).foldl (fun t kw => shaRound f t (kw.1 + kw.2)) s)).map fun x => x.1 + x.2

/-- A hash of the family, from an initial state: the message, padded, block by block. -/
def sha2 (w : Nat) (f : Sha2) (init : List (BitVec w)) (msg : List Byte) : List Byte :=
  let n := msg.length
  let padded := msg ++ [0x80] ++ List.replicate ((4 * w - 1 - w / 4 - n % (2 * w)) % (2 * w)) 0 ++ beBytes (w / 4) (8 * n)
  let ks := (primes80.take f.rounds).map (rootBits 3 w)
  let word := fun (b : List Byte) => BitVec.ofNat w (beNat b)
  ((List.range (padded.length / (2 * w))).foldl
    (fun s i => shaBlock f ks s ((List.range 16).map fun j => word (part (w / 8) j (part (2 * w) i padded)))) init).flatMap
    fun x => beBytes (w / 8) x.toNat

/-- SHA-256. -/
def sha256 (msg : List Byte) : List Byte := sha2 32 sha32 ((primes80.take 8).map (rootBits 2 32)) msg
/-- SHA-512. -/
def sha512 (msg : List Byte) : List Byte := sha2 64 sha64 ((primes80.take 8).map (rootBits 2 64)) msg
/-- SHA-384: of 48 bytes. -/
def sha384Bytes (msg : List Byte) : List Byte := (sha2 64 sha64 (((primes80.drop 8).take 8).map (rootBits 2 64)) msg).take 48
/-- SHA-384 as a field of 48 bytes in memory holds it, its first byte the least significant. -/
def sha384 (msg : List Byte) : BitVec 384 := BitVec.ofNat 384 (beNat (sha384Bytes msg).reverse)

/-- The mask generation function MGF1 over a hash of h bytes: n bytes. -/
def mgf1 (hash : List Byte → List Byte) (h : Nat) (seed : List Byte) (n : Nat) : List Byte :=
  ((List.range (n / h + 1)).flatMap fun i => hash (seed ++ beBytes 4 i)).take n

/-! ### RSA-3072, PSS padding, SHA-384 -/

/-- A power modulo n, by the bits of the exponent, the most significant first. -/
def powMod (b n : Nat) (bits : List Bool) : Nat := bits.foldl (fun a c => a * a % n * (if c then b else 1) % n) (1 % n)

/-- Whether an encoded message of 384 bytes is the PSS encoding of a message (RFC 8017, 9.1.2): SHA-384, MGF1 with it, and a salt of 48
bytes. -/
def pssVerifies (msg em : List Byte) : Bool :=
  let h := (em.drop 335).take 48
  let db := ((em.take 335).zip (mgf1 sha384Bytes 48 h 335)).map fun x => x.1 ^^^ x.2
  let db := (db.headD 0 &&& 0x7F) :: db.drop 1
  em.length = 384 && em.getD 383 0 = 0xBC && !(em.headD 0).msb && db.take 287 = List.replicate 286 0 ++ [1] &&
    h = sha384Bytes (List.replicate 8 0 ++ sha384Bytes msg ++ db.drop 287)

/-- The check of an RSA-3072 PSS signature: the key is the modulus, 384 bytes, and the public exponent after it. -/
def rsaVerifies (key msg sig : List Byte) : Bool :=
  let n := beNat (key.take 384)
  let e := beNat (key.drop 384)
  let s := beNat sig
  sig.length = 384 && decide (s < n) &&
    pssVerifies msg (beBytes 384 (powMod s n ((List.range (8 * (key.length - 384))).reverse.map e.testBit)))

/-! ### SLH-DSA-SHA2-256s -/

/-- An address of a hash call (FIPS 205, 4.2), compressed to 22 bytes (11.2): layer, tree, type, and the three words of the type. -/
structure Adrs where
  layer : Nat := 0
  tree : Nat := 0
  ty : Nat := 0
  w1 : Nat := 0
  w2 : Nat := 0
  w3 : Nat := 0
deriving DecidableEq, Repr

def Adrs.bytes (a : Adrs) : List Byte := beBytes 1 a.layer ++ beBytes 8 a.tree ++ beBytes 1 a.ty ++ beBytes 4 a.w1 ++ beBytes 4 a.w2 ++ beBytes 4 a.w3

/-- The function F. -/
def slhF (seed : List Byte) (a : Adrs) (m : List Byte) : List Byte := sha256 (seed ++ List.replicate 32 0 ++ a.bytes ++ m)
/-- The functions H and T. -/
def slhT (seed : List Byte) (a : Adrs) (m : List Byte) : List Byte := (sha512 (seed ++ List.replicate 96 0 ++ a.bytes ++ m)).take 32

/-- The first n digits of b bits of a string, the most significant first. -/
def digits (b n : Nat) (x : List Byte) : List Nat :=
  let v := beNat x
  (List.range n).map fun i => v / 2 ^ (8 * x.length - b * (i + 1)) % 2 ^ b

/-- The steps of a hash chain from i on. -/
def chain (seed : List Byte) (a : Adrs) : Nat → Nat → List Byte → List Byte
  | 0, _, x => x
  | s + 1, i, x => chain seed a s (i + 1) (slhF seed { a with w3 := i } x)

/-- A node climbed to the root of a tree along its path; its index stands in w3. -/
def climb (seed : List Byte) (a : Adrs) (node : List Byte) (auth : List (List Byte)) : List Byte :=
  ((auth.foldl (fun (t : Adrs × List Byte) sib =>
    let b := { t.1 with w2 := t.1.w2 + 1, w3 := t.1.w3 / 2 }
    (b, slhT seed b (if t.1.w3 % 2 = 0 then t.2 ++ sib else sib ++ t.2))) (({ a with w2 := 0 } : Adrs), node))).2

/-- The one-time public key that a signature of 67 parts gives for a message (FIPS 205, algorithm 8). -/
def wotsKey (seed : List Byte) (a : Adrs) (sig m : List Byte) : List Byte :=
  let ds := digits 4 64 m
  let ds := ds ++ digits 4 3 (beBytes 2 (16 * (ds.foldl (fun c d => c + (15 - d)) 0)))
  slhT seed { a with ty := 1, w2 := 0, w3 := 0 } ((List.range 67).flatMap fun i =>
    let d := ds.getD i 0
    chain seed { a with ty := 0, w2 := i } (15 - d) d (part 32 i sig))

/-- The root of a tree of the hypertree that its signature gives (algorithm 11). -/
def xmssRoot (seed : List Byte) (layer tree leaf : Nat) (sig m : List Byte) : List Byte :=
  climb seed { layer := layer, tree := tree, ty := 2, w3 := leaf } (wotsKey seed { layer := layer, tree := tree, w1 := leaf } sig m)
    ((List.range 8).map fun i => part 32 (67 + i) sig)

/-- The few-time public key that a signature gives for 22 indices (algorithm 17). -/
def forsKey (seed : List Byte) (tree leaf : Nat) (sig md : List Byte) : List Byte :=
  let a : Adrs := { tree := tree, ty := 3, w1 := leaf }
  let ix := digits 14 22 md
  slhT seed { a with ty := 4 } ((List.range 22).flatMap fun i =>
    let p := part 480 i sig
    let b := { a with w3 := 2 ^ 14 * i + ix.getD i 0 }
    climb seed b (slhF seed b (p.take 32)) ((List.range 14).map fun j => part 32 (j + 1) p))

/-- The check of an SLH-DSA-SHA2-256s signature (algorithms 20 and 24), with an empty context: the key is the seed and the root. -/
def slhVerifies (key msg sig : List Byte) : Bool :=
  let seed := key.take 32
  let root := key.drop 32
  let r := sig.take 32
  let d := mgf1 sha512 64 (r ++ seed ++ sha512 (r ++ seed ++ root ++ [0, 0] ++ msg)) 47
  let tree := beNat ((d.drop 39).take 7)
  let leaf := beNat ((d.drop 46).take 1)
  let ht := sig.drop (32 + 22 * 480)
  key.length = 64 && sig.length = 29792 && root = ((List.range 8).foldl
    (fun (t : List Byte × Nat × Nat) j => (xmssRoot seed j t.2.1 t.2.2 (part 2400 j ht) t.1, t.2.1 / 256, t.2.1 % 256))
    (forsKey seed tree leaf ((sig.drop 32).take (22 * 480)) (d.take 39), tree, leaf)).1

end Sys2Proof.Machine
end

