-- ==== Sys2Proof/Machine/Woad.lean ====
section
/-! DEFINITION. Woad: bring-up, SAFE, attestation and power (19 R356 to R363), scrubbing (18 R346), and the stores to the
device control region as events of their own (16 R294 to R301, 17 R327, 19 R352 to R357, R363, 00 R5). -/

namespace Sys2Proof.Machine

/-! ### Bring-up -/

/-- POWER_ON_RESET (19 R356): everything is as after reset but what outlives it: the fuses, the sideband store, and the
physical state that self-test finds. Woad boots from its ROM, applies the repair map and goes on to LOAD; where that fails, to SAFE. -/
def execPowerOnReset (st : State) : Out :=
  let w := st.woad
  let t : State := { State.reset with
    woad := { State.reset.woad with
      boot := .load, image := w.image, rsaKeyDigest := w.rsaKeyDigest, slhKeyDigest := w.slhKeyDigest, rsaKey := w.rsaKey
      slhKey := w.slhKey, identity := w.identity, minVersion := w.minVersion, romOk := w.romOk, repairFails := w.repairFails, laneFails := w.laneFails
      arrayFails := w.arrayFails, marchFails := w.marchFails, channelFails := w.channelFails, scrubFails := w.scrubFails
      linkFails := w.linkFails }
    tick := st.tick
    agenda := st.agenda
    prompt := st.prompt }
  .next (if w.romOk then t else t.enterSafe 0 0 0)

/-- FIRMWARE_LOAD (19 R356): the image is read from the sideband store; with none there, SAFE. -/
def execFirmwareLoad (st : State) : Out :=
  if st.woad.boot ≠ .load then .next st
  else if st.woad.image = [] then .next (st.enterSafe 0 0 0)
  else .next { st with woad := { st.woad with boot := .verify, loaded := st.woad.image } }

/-- Fields of a firmware image (19 R358). The manual names the header's fields and not their places (log entry 31). -/
def fwMagic (b : List Byte) : Nat := leNat (b.take 4)
def fwVersion (b : List Byte) : BitVec 32 := BitVec.ofNat 32 (leNat ((b.drop 4).take 4))
def fwLength (b : List Byte) : Nat := leNat ((b.drop 8).take 8)
def fwDigest (b : List Byte) : BitVec 384 := BitVec.ofNat 384 (leNat ((b.drop 16).take 48))
def fwCode (b : List Byte) : List Byte := (b.drop 256).take (fwLength b)
def fwSigned (b : List Byte) : List Byte := b.take (256 + fwLength b)
def fwRsa (b : List Byte) : List Byte := (b.drop (256 + fwLength b)).take 384
def fwSlh (b : List Byte) : List Byte := (b.drop (256 + fwLength b + 384)).take 29792

/-- Whether Woad accepts the loaded image (19 R358): both signatures, with the keys whose digests are fused, and a version
that is not below the fused minimum. -/
def Woad.accepts (w : Woad) : Bool :=
  let b := w.loaded
  fwMagic b = 0x57464D49 && 256 + fwLength b + 384 + 29792 ≤ b.length && fwDigest b = sha384 (fwCode b) &&
    sha384 w.rsaKey = w.rsaKeyDigest && sha384 w.slhKey = w.slhKeyDigest &&
    rsaVerifies w.rsaKey (fwSigned b) (fwRsa b) && slhVerifies w.slhKey (fwSigned b) (fwSlh b) &&
    w.minVersion ≤ fwVersion b

/-- FIRMWARE_VERIFY (19 R358). -/
def execFirmwareVerify (st : State) : Out :=
  if st.woad.boot ≠ .verify then .next st
  else if st.woad.accepts then .next { st with woad := { st.woad with boot := .selftest } }
  else .next (st.enterSafe 0 0 0)

/-- A channel position with two failed channels (19 R359). -/
def twiceFailed : List (Nat × Nat) → Option (Nat × Nat)
  | [] => none
  | c :: t => if t.any fun d => d.2 = c.2 && d.1 ≠ c.1 then some c else twiceFailed t

/-- The first failure of the self-test (19 R359): step, unit code and index. -/
def Woad.testFailure (w : Woad) : Option (Nat × Nat × Nat) :=
  match w.laneFails, w.arrayFails, w.marchFails, w.repairFails with
  | c :: _, _, _, _ => some (1, 1, c)
  | [], c :: _, _, _ => some (2, 2, c)
  | [], [], c :: _, _ => some (3, 3, c)
  | [], [], [], d :: _ => some (4, 4, d)
  | [], [], [], [] =>
    match twiceFailed w.channelFails with
    | some c => some (5, 5, 32 * c.1 + c.2)
    | none => match w.scrubFails with
      | s :: _ => some (6, 6, s)
      | [] => (w.linkFails.find? (· < 6)).map fun l => (7, 7, l)

/-- The firmware thread starts (19 R357). -/
def State.startFirmware (st : State) : State :=
  let code := fwCode st.woad.loaded
  let st := st.applyBytes (span 0 code.length) code 0 0 {} .none
  let st := { st with
    ctxs := []
    cores := st.cores.map fun (c : Nat × Core) => (c.1, { c.2 with halted := true })
    woad := { st.woad with boot := .config, detail := 0 }
    cur := 0 }
  (st.setCtx 0 fun _ => { ({} : Ctx) with
    x := tset 0 (tset 0 [] 10 (word code.length)) 11 0xF00006000000
    sys := { ({} : Sys) with cpl := .m } }).setCore 0 fun k => { k with halted := false }

/-- SELF_TEST (19 R359): the steps, in order; main memory and its parity come out zero, failed channels are marked, and a
fabric port that fails is not UP, and what stands at the far end of the others is free (log entry 46). Then CONFIG. -/
def execSelfTest (st : State) : Out :=
  if st.woad.boot ≠ .selftest then .next st
  else match st.woad.testFailure with
  | some (step, unit, i) => .next (st.enterSafe step (BitVec.ofNat 8 unit) i)
  | none =>
    let st := { st with
      mem := st.mem.filter fun e => region e.1 ≠ Region.main
      hist := st.hist.filter fun e => region e.1 ≠ Region.main
      parity := []
      badLines := []
      deadChannels := st.woad.channelFails
      links := ((span 16 16).filter (· ∉ st.woad.linkFails)).foldl (fun t l =>
        tput t l { (tget ({} : Link) t l) with up := true, peer := Config.pick st.tick (2 * l) 1024 }) st.links }
    .next st.startFirmware

/-- BRCTL_GO (19 R357). -/
def execBrctlGo (st : State) : Out := .next st.brctlGo

/-- BRCTL_FAIL (19 R357). -/
def execBrctlFail (detail : BitVec 16) (st : State) : Out := .next (st.brctlFail detail)

/-- SECURITY_VERSION_RAISE (19 R358): in RUN, to a version above the minimum that the running image has. -/
def execSecurityVersionRaise (v : BitVec 32) (st : State) : Out :=
  .next (if st.woad.boot = .run && st.woad.minVersion < v && v ≤ fwVersion st.woad.loaded then
    { st with woad := { st.woad with minVersion := v } } else st)

/-! ### Reports -/

/-- The code of a state of bring-up in a report (log entry 31). -/
def Boot.code : Boot → Nat
  | .rom => 0 | .load => 1 | .verify => 2 | .selftest => 3 | .config => 4 | .run => 5 | .safe => 6

/-- The status report (19 R360): 16 bytes of state, failing step, unit code, index, fused version and telemetry number; with
firmware's detail (R357). -/
def Woad.statusReport (w : Woad) : List Byte :=
  [BitVec.ofNat 8 w.boot.code, BitVec.ofNat 8 w.failStep, w.unit, 0] ++ leBytes 2 w.index ++ leBytes 2 w.detail.toNat ++
    leBytes 4 w.minVersion.toNat ++ leBytes 4 w.seq

/-- STATUS_QUERY (19 R360). -/
def execStatusQuery (st : State) : Out := .next { st with out := st.out ++ [.status st.woad.statusReport] }

/-- The 40 partition blocks and PART values (19 R353, R361). -/
def State.partBlocks (st : State) : List Byte :=
  (List.range 40).flatMap fun p =>
    let q := st.part p
    [q.carveb, q.carves, q.hlw, word (st.pstate p), word (q.qmask.toNat * 256 + p)].flatMap fun w => leBytes 8 w.toNat

/-- The first 384 bytes of an attestation report (19 R361). -/
def State.attestation (st : State) (nonce : BitVec 256) : List Byte :=
  let w := st.woad
  leBytes 4 0x41545354 ++ leBytes 4 w.minVersion.toNat ++ leBytes 32 nonce.toNat ++ leBytes 48 (sha384 w.loaded).toNat ++
    leBytes 48 (sha384 w.identity).toNat ++ leBytes 48 (sha384 st.partBlocks).toNat ++
    leBytes 8 (st.deadChannels.length % 256 * 256) ++ List.replicate 192 0

/-- ATTESTATION_REQUEST (19 R361): answered in RUN. -/
def execAttestationRequest (nonce : BitVec 256) (st : State) : Out :=
  let b := st.attestation nonce
  .next (if st.woad.boot = .run then { st with out := st.out ++ [.report b (Config.rsaSign st.tick b) (Config.slhSign st.tick b)] } else st)

/-! ### Flits -/

/-- Fields of a flit of 256 bytes (19 R349). -/
def flitSeq (b : List Byte) : Nat := leNat (b.take 4)
def flitType (b : List Byte) : Nat := (b.getD 4 0).toNat
def flitPid (b : List Byte) : Nat := (b.getD 5 0).toNat
def flitLen (b : List Byte) : Nat := leNat ((b.drop 6).take 2)
def flitAddr (b : List Byte) : Nat := leNat ((b.drop 8).take 8)
def flitPayload (b : List Byte) : List Byte := (b.drop 16).take (flitLen b)

/-- The event that a flit in its turn is (19 R349, R351, R352). A read names its length in LEN; a completion names its request in ADDR and
its status in the first byte of its payload; a sideband flit is a status query, or with a payload of 32 bytes an attestation request
(DESIGN CHOICE, log entry 93: the manual gives these no places). What a die-to-die link carries stands in no field. -/
def State.runFlit (st : State) (n : Nat) (b : List Byte) : Out :=
  let status := ((flitPayload b).getD 0 0).toNat
  let port := n - 16
  if n = 32 then
    match flitType b with
    | 0x01 => execHostReadRequest (flitPid b) (flitAddr b) (flitLen b) st
    | 0x02 => execHostWrite (flitPid b) (flitAddr b) (flitPayload b) st
    | 0x03 => execLinkCompletion 32 (flitAddr b) status st
    | 0x10 => execMigrationData (flitPid b) (flitAddr b) (flitPayload b) st
    | _ => if flitLen b = 32 then execAttestationRequest (BitVec.ofNat 256 (leNat (flitPayload b))) (st.delivered 32)
      else execStatusQuery (st.delivered 32)
  else if n < 6 then .next (st.delivered n)
  else match flitType b with
    | 0x01 => execFabricRequest port (flitPid b) (flitAddr b) false (List.replicate (flitLen b) 0) st
    | 0x02 => execFabricRequest port (flitPid b) (flitAddr b) true (flitPayload b) st
    | 0x03 => execLinkCompletion n (flitAddr b) status st
    | _ => .next (st.delivered n)

/-- Flits that have been held go on in their turn (19 R350). -/
def State.runEarly (n : Nat) : Nat → State → Out
  | 0, st => .next st
  | k + 1, st =>
    let l := tget ({} : Link) st.links n
    match l.early.find? fun b => flitSeq b = l.expect with
    | none => .next st
    | some b => match (st.setLinkState n fun l => { l with early := l.early.filter (· ≠ b) }).runFlit n b with
      | .next t => State.runEarly n k t
      | o => o

/-- 256 bytes arrive over a link (19 R348 to R350). What is no flit is corrupt. An acknowledgement and a request for replay act at once, and
have no number of their own (log entry 93). The flit whose turn it is is delivered, with those held for it; one whose number has been
delivered is acknowledged again and discarded; one that comes early is held; and one outside the window is corrupt. -/
def State.arrive (st : State) (n : Nat) (b : List Byte) : Out :=
  let l := tget ({} : Link) st.links n
  if !isLink n || l.failed || (16 ≤ n && n < 32 && !l.up) then .next st
  else if !flitTaken b || maxPayload < flitLen b then execFlitCorrupt n st
  else if flitType b = 0x04 then execLinkAcknowledgement n (flitAddr b % 2 ^ 32) st
  else if flitType b = 0x05 then execLinkReplayRequest n (flitAddr b % 2 ^ 32) st
  else if flitSeq b = l.expect then
    match st.runFlit n b with
    | .next t => State.runEarly n (tget ({} : Link) t.links n).early.length t
    | o => o
  else if seqFrom (flitSeq b) l.expect then
    .next (if l.early.any fun x => flitSeq x = flitSeq b then st else st.setLinkState n fun l => { l with early := l.early ++ [b] })
  else if seqFrom l.expect (flitSeq b) then .next { st with out := st.out ++ [.acknowledge n (flitSeq b)] }
  else execFlitCorrupt n st

/-! ### Scrubbing and corrected errors -/

/-- The telemetry of an error that a core's storage corrected, by its unit 0 (18 R345, R346): no value changes, and the word that
read the value goes on. Which storage is in error is not in the state, so the report may come at any time (DESIGN CHOICE, log
entry 92). -/
def State.corrected (st : State) (core loc : Nat) (va : Word) : State :=
  if core < 160 && (st.woad.boot = .config || st.woad.boot = .run) then st.telemetry core 0 0 { loc := loc, va := va } else st

/-- SCRUB (18 R346): the next 512-byte chunk of a core's scratchpad or B-store; an uncorrectable cell is reported, and no
value changes. -/
def execScrub (core : Nat) (st : State) : Out :=
  if 160 ≤ core then .next st
  else
    let i := (st.core core).scrub
    let lo := windowAddr core (512 * i) / 8
    let st := st.setCore core fun k => { k with scrub := (i + 1) % 8192 }
    .next ((st.badCells.filter fun c => c.1 = 0 && lo ≤ c.2.1 && c.2.1 < lo + 64).foldl (fun t c =>
      t.telemetry core 0 Code.eccUncorr { va := word (windowOff (8 * c.2.1)) }) st)

/-! ### Power -/

/-- OPP_WRITE (19 R363). -/
def execOppWrite (island : Nat) (v : BitVec 8) (st : State) : Out := .next (st.oppWrite island v)

/-- OPP_CHANGE_COMPLETE (19 R363): the point asked for is in effect. -/
def execOppChangeComplete (island : Nat) (st : State) : Out :=
  .next (if island < 128 && st.woad.boot ≠ .safe then
    { st with power := { st.power with effect := tset 0 st.power.effect island (tget 0 st.power.asked island) } } else st)

/-- The matrix islands of every die (19 R362). -/
def matrixIslands : List Nat := [0, 32, 64, 96].flatMap fun d => span (d + 10) 10

/-- Woad's limit in force (19 R363): a matrix island runs at the lower of the limit and what firmware wrote. -/
def State.setLimit (st : State) (n : Nat) : State :=
  { st with power := { st.power with
    limit := n
    asked := matrixIslands.foldl (fun t i => let o := tget 0 st.power.opp i; tset 0 t i (if o.toNat < n then BitVec.ofNat 8 n else o)) st.power.asked } }

/-- POWER_LIMIT_EXCEEDED (19 R363): one step lower, to 4 at most, with telemetry. -/
def execPowerLimitExceeded (st : State) : Out :=
  .next (if st.power.limit < 4 then (st.setLimit (st.power.limit + 1)).tellOwn 0 (word (st.power.limit + 1)) else st)

/-- POWER_LIMIT_RESTORE (19 R363). -/
def execPowerLimitRestore (st : State) : Out := .next (if 0 < st.power.limit then st.setLimit (st.power.limit - 1) else st)

/-! ### Stores to the device control region -/

/-- QCTL_WRITE (16 R295). -/
def execQctlWrite (p off : Nat) (v : BitVec 64) (st : State) : Out := .next (if p < 40 && off < 0x40 then st.qctlWrite p off v else st)
/-- POOL_WRITE (16 R296). -/
def execPoolWrite (p off : Nat) (v : BitVec 64) (st : State) : Out :=
  .next (if p < 40 && (off = 0x40 || off = 0x48) then st.poolWrite p off v else st)
/-- RING_WRITE (16 R297). -/
def execRingWrite (p off : Nat) (v : BitVec 64) (st : State) : Out :=
  .next (if p < 40 && 0x100 ≤ off && off < 0xC00 then st.ringWrite p off v else st)
/-- QJOB_WRITE (16 R301). -/
def execQjobWrite (p off : Nat) (v : BitVec 64) (st : State) : Out :=
  .next (if p < 40 && 0xC00 ≤ off && off < 0xE00 then st.qjobWrite p off v else st)
/-- JCLOSE_WRITE (16 R301). -/
def execJcloseWrite (p : Nat) (v : BitVec 64) (st : State) : Out := .next (if p < 40 then st.jcloseWrite p v else st)
/-- MIGRATION_BLOCK_WRITE (17 R327). -/
def execMigrationBlockWrite (p off : Nat) (v : BitVec 64) (st : State) : Out := .next (if p < 40 then st.migrationBlockWrite p off v else st)
/-- CARVE_WRITE (19 R353). -/
def execCarveWrite (p off : Nat) (v : BitVec 64) (st : State) : Out :=
  .next (if p < 40 && (off = 0 || off = 8) then st.carveWrite p off v else st)
/-- PORT_TRAIN (19 R352). -/
def execPortTrain (n : Nat) (st : State) : Out := .next (if n < 16 then st.portTrain n else st)
/-- REGISTER_WRITE (00 R5): a store to a register that has no event of its own. -/
def execRegisterWrite (pa : Nat) (v : BitVec 64) (st : State) : Out := .next (st.registerWrite pa v)

end Sys2Proof.Machine
end

