-- ==== Sys2Proof/Machine/Dispatch.lean ====
section
/-! DEFINITION. Dispatch: the meaning of every constructor of Instr. -/

namespace Sys2Proof.Machine

def exec (ins : Instr) (st : State) : Host.Outcome State Fault Refusal :=
  match ins with
  | .add s d a b => Sys2Proof.Machine.execAdd s d a b st
  | .sub s d a b => Sys2Proof.Machine.execSub s d a b st
  | .addW s d a b => Sys2Proof.Machine.execAddW s d a b st
  | .subW s d a b => Sys2Proof.Machine.execSubW s d a b st
  | .mul s d a b => Sys2Proof.Machine.execMul s d a b st
  | .mulh s d a b => Sys2Proof.Machine.execMulh s d a b st
  | .mulhn s d a b => Sys2Proof.Machine.execMulhn s d a b st
  | .div s d a b => Sys2Proof.Machine.execDiv s d a b st
  | .divn s d a b => Sys2Proof.Machine.execDivn s d a b st
  | .rem s d a b => Sys2Proof.Machine.execRem s d a b st
  | .remn s d a b => Sys2Proof.Machine.execRemn s d a b st
  | .and s d a b => Sys2Proof.Machine.execAnd s d a b st
  | .or s d a b => Sys2Proof.Machine.execOr s d a b st
  | .xor s d a b => Sys2Proof.Machine.execXor s d a b st
  | .andn s d a b => Sys2Proof.Machine.execAndn s d a b st
  | .sll s d a b => Sys2Proof.Machine.execSll s d a b st
  | .srl s d a b => Sys2Proof.Machine.execSrl s d a b st
  | .sra s d a b => Sys2Proof.Machine.execSra s d a b st
  | .slt s d a b => Sys2Proof.Machine.execSlt s d a b st
  | .sltn s d a b => Sys2Proof.Machine.execSltn s d a b st
  | .min s d a b => Sys2Proof.Machine.execMin s d a b st
  | .max s d a b => Sys2Proof.Machine.execMax s d a b st
  | .minn s d a b => Sys2Proof.Machine.execMinn s d a b st
  | .maxn s d a b => Sys2Proof.Machine.execMaxn s d a b st
  | .clz s d a => Sys2Proof.Machine.execClz s d a st
  | .ffs s d a => Sys2Proof.Machine.execFfs s d a st
  | .popc s d a => Sys2Proof.Machine.execPopc s d a st
  | .addi s d a i => Sys2Proof.Machine.execAddi s d a i st
  | .andi s d a i => Sys2Proof.Machine.execAndi s d a i st
  | .ori s d a i => Sys2Proof.Machine.execOri s d a i st
  | .xori s d a i => Sys2Proof.Machine.execXori s d a i st
  | .slli s d a h => Sys2Proof.Machine.execSlli s d a h st
  | .srli s d a h => Sys2Proof.Machine.execSrli s d a h st
  | .srai s d a h => Sys2Proof.Machine.execSrai s d a h st
  | .slti s d a i => Sys2Proof.Machine.execSlti s d a i st
  | .sltni s d a i => Sys2Proof.Machine.execSltni s d a i st
  | .lui s d i => Sys2Proof.Machine.execLui s d i st
  | .auipc s d i => Sys2Proof.Machine.execAuipc s d i st
  | .fadd s d a b p => Sys2Proof.Machine.execFadd s d a b p st
  | .fsub s d a b p => Sys2Proof.Machine.execFsub s d a b p st
  | .fmul s d a b p => Sys2Proof.Machine.execFmul s d a b p st
  | .fmac s d a b p => Sys2Proof.Machine.execFmac s d a b p st
  | .fdiv s d a b p => Sys2Proof.Machine.execFdiv s d a b p st
  | .fmin s d a b p => Sys2Proof.Machine.execFmin s d a b p st
  | .fmax s d a b p => Sys2Proof.Machine.execFmax s d a b p st
  | .fcmpEq s d a b p => Sys2Proof.Machine.execFcmpEq s d a b p st
  | .fcmpLt s d a b p => Sys2Proof.Machine.execFcmpLt s d a b p st
  | .fcmpLe s d a b p => Sys2Proof.Machine.execFcmpLe s d a b p st
  | .fsqrt s d a p => Sys2Proof.Machine.execFsqrt s d a p st
  | .fclass s d a p => Sys2Proof.Machine.execFclass s d a p st
  | .fcvt s d a t p => Sys2Proof.Machine.execFcvt s d a t p st
  | .fcvti s d a t n => Sys2Proof.Machine.execFcvti s d a t n st
  | .beq s a b i => Sys2Proof.Machine.execBeq s a b i st
  | .bne s a b i => Sys2Proof.Machine.execBne s a b i st
  | .blt s a b i => Sys2Proof.Machine.execBlt s a b i st
  | .bge s a b i => Sys2Proof.Machine.execBge s a b i st
  | .bltn s a b i => Sys2Proof.Machine.execBltn s a b i st
  | .bgen s a b i => Sys2Proof.Machine.execBgen s a b i st
  | .j s i => Sys2Proof.Machine.execJ s i st
  | .jal s i => Sys2Proof.Machine.execJal s i st
  | .jalr s d a i => Sys2Proof.Machine.execJalr s d a i st
  | .ldB s x a i => Sys2Proof.Machine.execLdB s x a i st
  | .ldH s x a i => Sys2Proof.Machine.execLdH s x a i st
  | .ldW s x a i => Sys2Proof.Machine.execLdW s x a i st
  | .ldD s x a i => Sys2Proof.Machine.execLdD s x a i st
  | .ldnB s x a i => Sys2Proof.Machine.execLdnB s x a i st
  | .ldnH s x a i => Sys2Proof.Machine.execLdnH s x a i st
  | .ldnW s x a i => Sys2Proof.Machine.execLdnW s x a i st
  | .stB s x a i => Sys2Proof.Machine.execStB s x a i st
  | .stH s x a i => Sys2Proof.Machine.execStH s x a i st
  | .stW s x a i => Sys2Proof.Machine.execStW s x a i st
  | .stD s x a i => Sys2Proof.Machine.execStD s x a i st
  | .amoadd s d a b w q r => Sys2Proof.Machine.execAmoadd s d a b w q r st
  | .amoand s d a b w q r => Sys2Proof.Machine.execAmoand s d a b w q r st
  | .amoor s d a b w q r => Sys2Proof.Machine.execAmoor s d a b w q r st
  | .amoxor s d a b w q r => Sys2Proof.Machine.execAmoxor s d a b w q r st
  | .amomin s d a b w q r => Sys2Proof.Machine.execAmomin s d a b w q r st
  | .amomax s d a b w q r => Sys2Proof.Machine.execAmomax s d a b w q r st
  | .amominn s d a b w q r => Sys2Proof.Machine.execAmominn s d a b w q r st
  | .amomaxn s d a b w q r => Sys2Proof.Machine.execAmomaxn s d a b w q r st
  | .amoswap s d a b w q r => Sys2Proof.Machine.execAmoswap s d a b w q r st
  | .amocas s d a b w q r => Sys2Proof.Machine.execAmocas s d a b w q r st
  | .fence s k p => Sys2Proof.Machine.execFence s k p st
  | .ldaqB s d a => Sys2Proof.Machine.execLdaqB s d a st
  | .ldaqH s d a => Sys2Proof.Machine.execLdaqH s d a st
  | .ldaqW s d a => Sys2Proof.Machine.execLdaqW s d a st
  | .ldaqD s d a => Sys2Proof.Machine.execLdaqD s d a st
  | .strlB s a b => Sys2Proof.Machine.execStrlB s a b st
  | .strlH s a b => Sys2Proof.Machine.execStrlH s a b st
  | .strlW s a b => Sys2Proof.Machine.execStrlW s a b st
  | .strlD s a b => Sys2Proof.Machine.execStrlD s a b st
  | .endTask s => Sys2Proof.Machine.execEndTask s st
  | .stall s => Sys2Proof.Machine.execStall s st
  | .slip s => Sys2Proof.Machine.execSlip s st
  | .yieldTurn s => Sys2Proof.Machine.execYieldTurn s st
  | .svc s i => Sys2Proof.Machine.execSvc s i st
  | .brk s i => Sys2Proof.Machine.execBrk s i st
  | .qpush s d => Sys2Proof.Machine.execQpush s d st
  | .qpushC s d a => Sys2Proof.Machine.execQpushC s d a st
  | .qpop s => Sys2Proof.Machine.execQpop s st
  | .qtry s d => Sys2Proof.Machine.execQtry s d st
  | .join s d a => Sys2Proof.Machine.execJoin s d a st
  | .early s => Sys2Proof.Machine.execEarly s st
  | .pwait s d => Sys2Proof.Machine.execPwait s d st
  | .lnch s d a b => Sys2Proof.Machine.execLnch s d a b st
  | .hcanL s d a => Sys2Proof.Machine.execHcanL s d a st
  | .hcanG s d a => Sys2Proof.Machine.execHcanG s d a st
  | .hcanP s d a => Sys2Proof.Machine.execHcanP s d a st
  | .hcanJ s d a => Sys2Proof.Machine.execHcanJ s d a st
  | .hcntL s d a => Sys2Proof.Machine.execHcntL s d a st
  | .hcntG s d a => Sys2Proof.Machine.execHcntG s d a st
  | .hcntP s d a => Sys2Proof.Machine.execHcntP s d a st
  | .hcntJ s d a => Sys2Proof.Machine.execHcntJ s d a st
  | .twait s d a b => Sys2Proof.Machine.execTwait s d a b st
  | .twaitAny s d a b => Sys2Proof.Machine.execTwaitAny s d a b st
  | .twaitAll s d a b => Sys2Proof.Machine.execTwaitAll s d a b st
  | .tffr s d a b => Sys2Proof.Machine.execTffr s d a b st
  | .tcan s d a => Sys2Proof.Machine.execTcan s d a st
  | .tdet s d a => Sys2Proof.Machine.execTdet s d a st
  | .tadopt s d a => Sys2Proof.Machine.execTadopt s d a st
  | .tstat s d a => Sys2Proof.Machine.execTstat s d a st
  | .wch s d a b => Sys2Proof.Machine.execWch s d a b st
  | .tch s d a => Sys2Proof.Machine.execTch s d a st
  | .crr s d r => Sys2Proof.Machine.execCrr s d r st
  | .crw s r a => Sys2Proof.Machine.execCrw s r a st
  | .crwi s r i => Sys2Proof.Machine.execCrwi s r i st
  | .ldpB s d w a => Sys2Proof.Machine.execLdpB s d w a st
  | .ldpH s d w a => Sys2Proof.Machine.execLdpH s d w a st
  | .ldpW s d w a => Sys2Proof.Machine.execLdpW s d w a st
  | .ldpD s d w a => Sys2Proof.Machine.execLdpD s d w a st
  | .ldpnB s d w a => Sys2Proof.Machine.execLdpnB s d w a st
  | .ldpnH s d w a => Sys2Proof.Machine.execLdpnH s d w a st
  | .ldpnW s d w a => Sys2Proof.Machine.execLdpnW s d w a st
  | .vadd c s d a b => Sys2Proof.Machine.execVadd c s d a b st
  | .vsub c s d a b => Sys2Proof.Machine.execVsub c s d a b st
  | .vmul c s d a b => Sys2Proof.Machine.execVmul c s d a b st
  | .vmulh c s d a b => Sys2Proof.Machine.execVmulh c s d a b st
  | .vmin c s d a b => Sys2Proof.Machine.execVmin c s d a b st
  | .vmax c s d a b => Sys2Proof.Machine.execVmax c s d a b st
  | .vand c s d a b => Sys2Proof.Machine.execVand c s d a b st
  | .vor c s d a b => Sys2Proof.Machine.execVor c s d a b st
  | .vxor c s d a b => Sys2Proof.Machine.execVxor c s d a b st
  | .vandn c s d a b => Sys2Proof.Machine.execVandn c s d a b st
  | .vsll c s d a b => Sys2Proof.Machine.execVsll c s d a b st
  | .vsrl c s d a b => Sys2Proof.Machine.execVsrl c s d a b st
  | .vsra c s d a b => Sys2Proof.Machine.execVsra c s d a b st
  | .vadds c s d a b => Sys2Proof.Machine.execVadds c s d a b st
  | .vsubs c s d a b => Sys2Proof.Machine.execVsubs c s d a b st
  | .vavg c s d a b => Sys2Proof.Machine.execVavg c s d a b st
  | .vabs c s d a => Sys2Proof.Machine.execVabs c s d a st
  | .vclz c s d a => Sys2Proof.Machine.execVclz c s d a st
  | .vffs c s d a => Sys2Proof.Machine.execVffs c s d a st
  | .vpopc c s d a => Sys2Proof.Machine.execVpopc c s d a st
  | .vaddVs c s d a x => Sys2Proof.Machine.execVaddVs c s d a x st
  | .vsubVs c s d a x => Sys2Proof.Machine.execVsubVs c s d a x st
  | .vmulVs c s d a x => Sys2Proof.Machine.execVmulVs c s d a x st
  | .vmulhVs c s d a x => Sys2Proof.Machine.execVmulhVs c s d a x st
  | .vminVs c s d a x => Sys2Proof.Machine.execVminVs c s d a x st
  | .vmaxVs c s d a x => Sys2Proof.Machine.execVmaxVs c s d a x st
  | .vandVs c s d a x => Sys2Proof.Machine.execVandVs c s d a x st
  | .vorVs c s d a x => Sys2Proof.Machine.execVorVs c s d a x st
  | .vxorVs c s d a x => Sys2Proof.Machine.execVxorVs c s d a x st
  | .vandnVs c s d a x => Sys2Proof.Machine.execVandnVs c s d a x st
  | .vsllVs c s d a x => Sys2Proof.Machine.execVsllVs c s d a x st
  | .vsrlVs c s d a x => Sys2Proof.Machine.execVsrlVs c s d a x st
  | .vsraVs c s d a x => Sys2Proof.Machine.execVsraVs c s d a x st
  | .vaddsVs c s d a x => Sys2Proof.Machine.execVaddsVs c s d a x st
  | .vsubsVs c s d a x => Sys2Proof.Machine.execVsubsVs c s d a x st
  | .vavgVs c s d a x => Sys2Proof.Machine.execVavgVs c s d a x st
  | .vfadd c s d a b => Sys2Proof.Machine.execVfadd c s d a b st
  | .vfsub c s d a b => Sys2Proof.Machine.execVfsub c s d a b st
  | .vfmul c s d a b => Sys2Proof.Machine.execVfmul c s d a b st
  | .vfmac c s d a b => Sys2Proof.Machine.execVfmac c s d a b st
  | .vfnmac c s d a b => Sys2Proof.Machine.execVfnmac c s d a b st
  | .vfmin c s d a b => Sys2Proof.Machine.execVfmin c s d a b st
  | .vfmax c s d a b => Sys2Proof.Machine.execVfmax c s d a b st
  | .vfdiv c s d a b => Sys2Proof.Machine.execVfdiv c s d a b st
  | .vfabs c s d a => Sys2Proof.Machine.execVfabs c s d a st
  | .vfneg c s d a => Sys2Proof.Machine.execVfneg c s d a st
  | .vfsqrt c s d a => Sys2Proof.Machine.execVfsqrt c s d a st
  | .vfrec c s d a => Sys2Proof.Machine.execVfrec c s d a st
  | .vfexp2 c s d a => Sys2Proof.Machine.execVfexp2 c s d a st
  | .vflog2 c s d a => Sys2Proof.Machine.execVflog2 c s d a st
  | .vfclass c s d a => Sys2Proof.Machine.execVfclass c s d a st
  | .vfaddVs c s d a x => Sys2Proof.Machine.execVfaddVs c s d a x st
  | .vfsubVs c s d a x => Sys2Proof.Machine.execVfsubVs c s d a x st
  | .vfmulVs c s d a x => Sys2Proof.Machine.execVfmulVs c s d a x st
  | .vfmacVs c s d a x => Sys2Proof.Machine.execVfmacVs c s d a x st
  | .vfnmacVs c s d a x => Sys2Proof.Machine.execVfnmacVs c s d a x st
  | .vfminVs c s d a x => Sys2Proof.Machine.execVfminVs c s d a x st
  | .vfmaxVs c s d a x => Sys2Proof.Machine.execVfmaxVs c s d a x st
  | .vfdivVs c s d a x => Sys2Proof.Machine.execVfdivVs c s d a x st
  | .vcmp c s o m a b => Sys2Proof.Machine.execVcmp c s o m a b st
  | .vfcmp c s o m a b => Sys2Proof.Machine.execVfcmp c s o m a b st
  | .vslup c s d a x => Sys2Proof.Machine.execVslup c s d a x st
  | .vsldn c s d a x => Sys2Proof.Machine.execVsldn c s d a x st
  | .vdup c s d a x => Sys2Proof.Machine.execVdup c s d a x st
  | .vcomp c s d a => Sys2Proof.Machine.execVcomp c s d a st
  | .vexp c s d a => Sys2Proof.Machine.execVexp c s d a st
  | .vtrn c s d a p => Sys2Proof.Machine.execVtrn c s d a p st
  | .viota c s d => Sys2Proof.Machine.execViota c s d st
  | .vsel c s d a b => Sys2Proof.Machine.execVsel c s d a b st
  | .vtbl c s d a n h f => Sys2Proof.Machine.execVtbl c s d a n h f st
  | .vrsum c s d a => Sys2Proof.Machine.execVrsum c s d a st
  | .vrmax c s d a => Sys2Proof.Machine.execVrmax c s d a st
  | .vrmin c s d a => Sys2Proof.Machine.execVrmin c s d a st
  | .vrand c s d a => Sys2Proof.Machine.execVrand c s d a st
  | .vror c s d a => Sys2Proof.Machine.execVror c s d a st
  | .vrxor c s d a => Sys2Proof.Machine.execVrxor c s d a st
  | .vscan c s d a => Sys2Proof.Machine.execVscan c s d a st
  | .vcvt c s d a t => Sys2Proof.Machine.execVcvt c s d a t st
  | .amul c s d a b => Sys2Proof.Machine.execAmul c s d a b st
  | .amac c s d a b => Sys2Proof.Machine.execAmac c s d a b st
  | .aconj c s d a => Sys2Proof.Machine.execAconj c s d a st
  | .anorm c s d a => Sys2Proof.Machine.execAnorm c s d a st
  | .ald c s j a => Sys2Proof.Machine.execAld c s j a st
  | .scac c s d a k => Sys2Proof.Machine.execScac c s d a k st
  | .omovF c s d a dx dy dz => Sys2Proof.Machine.execOmovF c s d a dx dy dz st
  | .oaddF c s d a dx dy dz b => Sys2Proof.Machine.execOaddF c s d a dx dy dz b st
  | .osubF c s d a dx dy dz b => Sys2Proof.Machine.execOsubF c s d a dx dy dz b st
  | .omacF c s d a dx dy dz b => Sys2Proof.Machine.execOmacF c s d a dx dy dz b st
  | .omov c s d a dx dy dz => Sys2Proof.Machine.execOmov c s d a dx dy dz st
  | .oadd c s d a dx dy dz b => Sys2Proof.Machine.execOadd c s d a dx dy dz b st
  | .osub c s d a dx dy dz b => Sys2Proof.Machine.execOsub c s d a dx dy dz b st
  | .omac c s d a dx dy dz b => Sys2Proof.Machine.execOmac c s d a dx dy dz b st
  | .vld c s b a i => Sys2Proof.Machine.execVld c s b a i st
  | .vst c s b a i => Sys2Proof.Machine.execVst c s b a i st
  | .vldl c s b a i => Sys2Proof.Machine.execVldl c s b a i st
  | .vstl c s b a i => Sys2Proof.Machine.execVstl c s b a i st
  | .vldx c s b a i => Sys2Proof.Machine.execVldx c s b a i st
  | .vstx c s b a i => Sys2Proof.Machine.execVstx c s b a i st
  | .vldi c s b a i => Sys2Proof.Machine.execVldi c s b a i st
  | .vsti c s b a i => Sys2Proof.Machine.execVsti c s b a i st
  | .vstia c s b a i => Sys2Proof.Machine.execVstia c s b a i st
  | .vlda c s b a i => Sys2Proof.Machine.execVlda c s b a i st
  | .gathb c s b a i m => Sys2Proof.Machine.execGathb c s b a i m st
  | .mand c s d a b => Sys2Proof.Machine.execMand c s d a b st
  | .mor c s d a b => Sys2Proof.Machine.execMor c s d a b st
  | .mxor c s d a b => Sys2Proof.Machine.execMxor c s d a b st
  | .mnot c s d a => Sys2Proof.Machine.execMnot c s d a st
  | .mpopc c s d a => Sys2Proof.Machine.execMpopc c s d a st
  | .mffs c s d a => Sys2Proof.Machine.execMffs c s d a st
  | .mset c s d a b => Sys2Proof.Machine.execMset c s d a b st
  | .mget c s d a b => Sys2Proof.Machine.execMget c s d a b st
  | .vsplat c s d x => Sys2Proof.Machine.execVsplat c s d x st
  | .vext c s d a x => Sys2Proof.Machine.execVext c s d a x st
  | .vins c s d a x => Sys2Proof.Machine.execVins c s d a x st
  | .vsetl c s d a => Sys2Proof.Machine.execVsetl c s d a st
  | .vsetb c s d a => Sys2Proof.Machine.execVsetb c s d a st
  | .nbset c s d a b => Sys2Proof.Machine.execNbset c s d a b st
  | .nbget c s a b d => Sys2Proof.Machine.execNbget c s a b d st
  | .waitv c s m a b x => Sys2Proof.Machine.execWaitv c s m a b x st
  | .copy s p t a b => Sys2Proof.Machine.execCopy s p t a b st
  | .copyf s p t a b => Sys2Proof.Machine.execCopyf s p t a b st
  | .copym s p t a b => Sys2Proof.Machine.execCopym s p t a b st
  | .grows s p t a b => Sys2Proof.Machine.execGrows s p t a b st
  | .publish s p t a => Sys2Proof.Machine.execPublish s p t a st
  | .mma s p t a b => Sys2Proof.Machine.execMma s p t a b st
  | .mmas s p t a b => Sys2Proof.Machine.execMmas s p t a b st
  | .mclr s p t => Sys2Proof.Machine.execMclr s p t st
  | .mrd s p t a => Sys2Proof.Machine.execMrd s p t a st
  | .credSum s p t a b => Sys2Proof.Machine.execCredSum s p t a b st
  | .credMax s p t a b => Sys2Proof.Machine.execCredMax s p t a b st
  | .credMin s p t a b => Sys2Proof.Machine.execCredMin s p t a b st
  | .credAnd s p t a b => Sys2Proof.Machine.execCredAnd s p t a b st
  | .credOr s p t a b => Sys2Proof.Machine.execCredOr s p t a b st
  | .credXor s p t a b => Sys2Proof.Machine.execCredXor s p t a b st
  | .cgat s p t a b => Sys2Proof.Machine.execCgat s p t a b st
  | .cbc s p t a b => Sys2Proof.Machine.execCbc s p t a b st
  | .cbar s p t => Sys2Proof.Machine.execCbar s p t st
  | .train s p t a b => Sys2Proof.Machine.execTrain s p t a b st
  | .migrOut s p t a b => Sys2Proof.Machine.execMigrOut s p t a b st
  | .migrIn s p t a b => Sys2Proof.Machine.execMigrIn s p t a b st
  | .scld s k a b => Sys2Proof.Machine.execScld s k a b st
  | .claim s d => Sys2Proof.Machine.execClaim s d st
  | .tret s => Sys2Proof.Machine.execTret s st
  | .srr s d r => Sys2Proof.Machine.execSrr s d r st
  | .srw s r b => Sys2Proof.Machine.execSrw s r b st
  | .tlbi s d a b => Sys2Proof.Machine.execTlbi s d a b st
  | .ctxsv s d a b => Sys2Proof.Machine.execCtxsv s d a b st
  | .ctxld s d a b => Sys2Proof.Machine.execCtxld s d a b st
  | .park s d a b => Sys2Proof.Machine.execPark s d a b st
  | .halt s d a b => Sys2Proof.Machine.execHalt s d a b st
  | .bset s d a b => Sys2Proof.Machine.execBset s d a b st
  | .pcan s d a => Sys2Proof.Machine.execPcan s d a st
  | .seqr s d a => Sys2Proof.Machine.execSeqr s d a st
  | .illegalWord w => Sys2Proof.Machine.execIllegalWord w st
  | .vectorWordStart c => Sys2Proof.Machine.execVectorWordStart c st
  | .convoyStep c => Sys2Proof.Machine.execConvoyStep c st
  | .remoteGroupServe c src r g => Sys2Proof.Machine.execRemoteGroupServe c src r g st
  | .groupLand c r g => Sys2Proof.Machine.execGroupLand c r g st
  | .writeApply i part => Sys2Proof.Machine.execWriteApply i part st
  | .writeAcknowledge i => Sys2Proof.Machine.execWriteAcknowledge i st
  | .frontierReceive d e => Sys2Proof.Machine.execFrontierReceive d e st
  | .readServe c => Sys2Proof.Machine.execReadServe c st
  | .looseWriteApply c i => Sys2Proof.Machine.execLooseWriteApply c i st
  | .waitSatisfied c => Sys2Proof.Machine.execWaitSatisfied c st
  | .waitTimeout c => Sys2Proof.Machine.execWaitTimeout c st
  | .taskTake c => Sys2Proof.Machine.execTaskTake c st
  | .dispatchGenerate p lid => Sys2Proof.Machine.execDispatchGenerate p lid st
  | .dispatchPreempt p lid => Sys2Proof.Machine.execDispatchPreempt p lid st
  | .threadSave c => Sys2Proof.Machine.execThreadSave c st
  | .taskPriorityAge core i => Sys2Proof.Machine.execTaskPriorityAge core i st
  | .launchPriorityAge p lid => Sys2Proof.Machine.execLaunchPriorityAge p lid st
  | .ringRefill core => Sys2Proof.Machine.execRingRefill core st
  | .joinBufferDrain core => Sys2Proof.Machine.execJoinBufferDrain core st
  | .stealAsk core => Sys2Proof.Machine.execStealAsk core st
  | .stealLend victim thief => Sys2Proof.Machine.execStealLend victim thief st
  | .lendAcknowledge thief => Sys2Proof.Machine.execLendAcknowledge thief st
  | .lendExpiry victim seq => Sys2Proof.Machine.execLendExpiry victim seq st
  | .cancelReachesThread c => Sys2Proof.Machine.execCancelReachesThread c st
  | .cancelDrained p lid => Sys2Proof.Machine.execCancelDrained p lid st
  | .launchComplete p lid => Sys2Proof.Machine.execLaunchComplete p lid st
  | .graphComplete p job g => Sys2Proof.Machine.execGraphComplete p job g st
  | .phaseComplete p job ph => Sys2Proof.Machine.execPhaseComplete p job ph st
  | .jobComplete p job => Sys2Proof.Machine.execJobComplete p job st
  | .opStart core slot => Sys2Proof.Machine.execOpStart core slot st
  | .predecessorFault core slot => Sys2Proof.Machine.execPredecessorFault core slot st
  | .copyStep core slot => Sys2Proof.Machine.execCopyStep core slot st
  | .growsRow core slot row => Sys2Proof.Machine.execGrowsRow core slot row st
  | .publishExchange core slot => Sys2Proof.Machine.execPublishExchange core slot st
  | .mmaKBlock core slot miss1 miss2 => Sys2Proof.Machine.execMmaKBlock core slot miss1 miss2 st
  | .mclrStep core slot => Sys2Proof.Machine.execMclrStep core slot st
  | .mrdRow core slot => Sys2Proof.Machine.execMrdRow core slot st
  | .trainApply core slot die => Sys2Proof.Machine.execTrainApply core slot die st
  | .trainAck core slot dest ok => Sys2Proof.Machine.execTrainAck core slot dest ok st
  | .collectiveStep core slot => Sys2Proof.Machine.execCollectiveStep core slot st
  | .collJoinTimeout core slot m => Sys2Proof.Machine.execCollJoinTimeout core slot m st
  | .cbarComplete core slot => Sys2Proof.Machine.execCbarComplete core slot st
  | .migrPageMove core slot linkOk => Sys2Proof.Machine.execMigrPageMove core slot linkOk st
  | .parkDrainExpiry p => Sys2Proof.Machine.execParkDrainExpiry p st
  | .woadCoreStop core => Sys2Proof.Machine.execWoadCoreStop core st
  | .stateParityError p unit => Sys2Proof.Machine.execStateParityError p unit st
  | .scrub core => Sys2Proof.Machine.execScrub core st
  | .hostReadRequest p pa len => Sys2Proof.Machine.execHostReadRequest p pa len st
  | .hostWrite p pa bytes => Sys2Proof.Machine.execHostWrite p pa bytes st
  | .fabricRequest port p pa wr bytes => Sys2Proof.Machine.execFabricRequest port p pa wr bytes st
  | .linkCompletion link tag status => Sys2Proof.Machine.execLinkCompletion link tag status st
  | .linkAcknowledgement link seq => Sys2Proof.Machine.execLinkAcknowledgement link seq st
  | .linkReplayRequest link seq => Sys2Proof.Machine.execLinkReplayRequest link seq st
  | .flitCorrupt link => Sys2Proof.Machine.execFlitCorrupt link st
  | .linkFail link => Sys2Proof.Machine.execLinkFail link st
  | .migrationData p ta bytes => Sys2Proof.Machine.execMigrationData p ta bytes st
  | .statusQuery => Sys2Proof.Machine.execStatusQuery st
  | .attestationRequest nonce => Sys2Proof.Machine.execAttestationRequest nonce st
  | .gangLaunchReceive p q from_ desc => Sys2Proof.Machine.execGangLaunchReceive p q from_ desc st
  | .gangAck p lid m => Sys2Proof.Machine.execGangAck p lid m st
  | .gangRefusal p lid m => Sys2Proof.Machine.execGangRefusal p lid m st
  | .gangMemberReport p lid m cancelled => Sys2Proof.Machine.execGangMemberReport p lid m cancelled st
  | .gangAckTimeout p lid m => Sys2Proof.Machine.execGangAckTimeout p lid m st
  | .powerOnReset => Sys2Proof.Machine.execPowerOnReset st
  | .firmwareLoad => Sys2Proof.Machine.execFirmwareLoad st
  | .firmwareVerify => Sys2Proof.Machine.execFirmwareVerify st
  | .selfTest => Sys2Proof.Machine.execSelfTest st
  | .brctlGo => Sys2Proof.Machine.execBrctlGo st
  | .brctlFail detail => Sys2Proof.Machine.execBrctlFail detail st
  | .oppWrite island v => Sys2Proof.Machine.execOppWrite island v st
  | .oppChangeComplete island => Sys2Proof.Machine.execOppChangeComplete island st
  | .powerLimitExceeded => Sys2Proof.Machine.execPowerLimitExceeded st
  | .powerLimitRestore => Sys2Proof.Machine.execPowerLimitRestore st
  | .qctlWrite p off v => Sys2Proof.Machine.execQctlWrite p off v st
  | .poolWrite p off v => Sys2Proof.Machine.execPoolWrite p off v st
  | .ringWrite p off v => Sys2Proof.Machine.execRingWrite p off v st
  | .qjobWrite p off v => Sys2Proof.Machine.execQjobWrite p off v st
  | .jcloseWrite p v => Sys2Proof.Machine.execJcloseWrite p v st
  | .migrationBlockWrite p off v => Sys2Proof.Machine.execMigrationBlockWrite p off v st
  | .carveWrite p off v => Sys2Proof.Machine.execCarveWrite p off v st
  | .portTrain n => Sys2Proof.Machine.execPortTrain n st
  | .partWrite c v => Sys2Proof.Machine.execPartWrite c v st
  | .registerWrite pa v => Sys2Proof.Machine.execRegisterWrite pa v st
  | .pushArrival i => Sys2Proof.Machine.execPushArrival i st
  | .stealAnswer thief => Sys2Proof.Machine.execStealAnswer thief st
  | .lendAnswer thief => Sys2Proof.Machine.execLendAnswer thief st
  | .gangCancel p lid => Sys2Proof.Machine.execGangCancel p lid st
  | .securityVersionRaise v => Sys2Proof.Machine.execSecurityVersionRaise v st

end Sys2Proof.Machine
end

