-- ==== Sys2Proof/WellFormed.lean ====
section
/-! DEFINITION. WellFormed: the limits of an instruction's fields that its types do not carry (07 R161, R177,
R178, 08 R186, 09 R219). An event has no word and is never a well-formed word. -/

namespace Sys2Proof

/-- A field that names an even register pair holds the even register (07 R178). -/
def evenReg (r : Fin 32) : Bool := r.val % 2 = 0

/-- The events of the part: the constructors without a word. -/
def Instr.isWord (i : Instr) : Bool := (encode i).isSome

/-- An instruction whose word exists: the checks of the decoder that the types do not make. -/
def Instr.wf : Instr → Bool
  | .fcvt _ _ _ t _ => t.isFcvtDst
  | .fcvti _ _ _ t _ => t.isFcvtiDst
  | .vcmp _ _ o _ _ _ => o ≠ .un
  | .copyf _ _ _ a b => evenReg a && evenReg b
  | .copym _ _ _ a _ => evenReg a
  | .grows _ _ _ a _ => evenReg a
  | i => i.isWord

end Sys2Proof
end

