-- ==== Sys2Proof/Machine/Turns.lean ====
section
/-! DEFINITION. Turns: which move of the module comes next (log entry 1), how a context issues its word, and how a word is
placed. The agenda, plain data of the state, names the moves that come next; with an empty agenda bring-up goes on, and in
CONFIG and RUN the next ready context and the device take turns. -/

namespace Sys2Proof.Machine

/-- Whether a constructor is an event that may stand in the agenda. A word is issued, and ILLEGAL_WORD comes from its
issue, and from nothing else. -/
def isEvent : Instr → Bool
  | .illegalWord _ => false
  | i => !i.isWord

/-- Whether a word that follows a word with C = 1 traps PRIV, which comes before CONVOY (07 R162). -/
def trapsPriv (st : State) (i : Instr) : Bool :=
  match exec i st with
  | .next t => t.me.sys.cpl ≠ st.me.sys.cpl &&
      fldW (if t.me.sys.cpl = .s then t.me.sys.ecause else t.me.sys.mcause) 0 13 = Code.priv
  | _ => false

/-- The issuing context issues the word w (07 R161, R163, R171). -/
noncomputable def State.issueWord (st : State) (w : Nat) : Out :=
  match decodeWord w with
  | none => .next (st.illegal (word w))
  | some i =>
    if st.me.opened = [] || vectorMajor w || trapsPriv st i then exec i st
    else exec (.illegalWord (BitVec.ofNat 32 w)) st

/-- What a convoy that is to issue traps as a whole (07 R161, R162, R171): a word of it that is no instruction, and then one that
breaks the limits, unless its last word traps PRIV, which comes between them. -/
noncomputable def State.runTrap (st : State) (ws : List (Word × Nat)) : Option State :=
  let trap := fun (code : Nat) (d : Detail) (a : Word) => some (st.trapWord st.cur code d a st.me.pc false)
  let es := ws.filterMap fun x => if vectorMajor x.2 then (VOp.ofWord x.2).map fun op => { st.entry true 0 op with addr := x.1 } else none
  match ws.find? fun x => (decodeWord x.2).isNone with
  | some x => trap Code.illegal { d0 := word x.2 } x.1
  | none => match ws.find? fun x => !vectorMajor x.2 with
    | some x =>
      if ((decodeWord x.2).map (trapsPriv st)).getD false then none
      else trap Code.convoy { d0 := st.me.pc } (((convoyBreak (1 < ws.length) 0 0 0 es).map (·.addr)).getD x.1)
    | none => match convoyBreak (1 < ws.length) 0 0 0 es with
      | some e => trap Code.convoy { d0 := st.me.pc } e.addr
      | none => none

/-- The issuing context fetches and issues its next word, once it has the registers that the word names (07 R165). The first word of a
convoy issues once the whole convoy has been fetched (07 R162). -/
noncomputable def State.issue (st : State) : Out :=
  match st.fetch with
  | .inr o => o
  | .inl (w, t) =>
    if st.me.opened = [] && goesOn w then
      match t.fetchRun (st.me.pc + 4) 64 [(st.me.pc, w)] with
      | .inr o => o
      | .inl (ws, t) =>
        if ws.any fun x => t.me.owes x.2 then .next st
        else match t.runTrap ws with
        | some u => .next u
        | none => t.issueWord w
    else if t.me.opened = [] && t.me.owes w then .next st
    else t.issueWord w

/-- A FENCE before which no later access is performed, as a load is held that its context goes past. -/
def deferral : Fence := { kind := .both, scope := .package, icnt := 0, wic := 0, order := 0, handler := true }

/-- The issuing context issues a scalar load and goes past it before it is performed (05 R116, 07 R163): its register is awaited by what
reads it alone (R165). A word that is no load, or that traps, issues as it would (log entry 96). -/
noncomputable def State.issuePast (st : State) : Out :=
  match st.fetch with
  | .inr o => o
  | .inl (w, t) =>
    if fld w 23 6 ≠ 0x0F || st.me.opened ≠ [] || t.me.owes w then st.issue
    else
      let fs := t.me.fences
      match (t.setMe fun k => { k with fences := [deferral] }).issueWord w with
      | .next u => .next (u.setCtx st.cur fun k =>
          let k := { k with fences := fs }
          match k.wait with
          | some (.read d acc va locs false) => { k.advance k.ws with reads := k.reads ++ [⟨d, acc, va, locs, k.pc⟩] }
          | _ => k)
      | o => o

/-! ### What the device may do next -/

/-- Contexts, cores and partitions that the state lists: every other one is as at reset. -/
def State.ctxNums (st : State) : List Nat := st.ctxs.map (·.1)
def State.coreNums (st : State) : List Nat := st.cores.map (·.1)
def State.partNums (st : State) : List Nat := st.parts.map (·.1)

/-- Events of memory and of threads' waits. -/
noncomputable def State.memEvents (st : State) : List Instr :=
  (List.range st.writes.length).flatMap (fun i =>
    ((List.range ((st.writes[i]?.map fun w => w.parts.length).getD 0)).map fun p => Instr.writeApply i p) ++ [.writeAcknowledge i]) ++
  ([0, 1, 2, 3] : List (Fin 4)).flatMap (fun d => ([0, 1, 2, 3] : List (Fin 4)).map fun e => Instr.frontierReceive d e) ++
  st.ctxNums.flatMap (fun c => ((List.range (st.ctx c).loose.length).map fun i => Instr.looseWriteApply c i) ++
    [.readServe c, .waitSatisfied c]) ++
  (List.range st.travel.length).map Instr.pushArrival

/-- Events of the sequencers. -/
noncomputable def State.vecEvents (st : State) : List Instr :=
  st.ctxNums.flatMap fun c =>
    [.vectorWordStart c, .convoyStep c] ++
    ((firstConvoy (st.ctx c).vq).flatMap fun e => e.res.filterMap fun x => match x.2 with
      | .reg src r i => some (Instr.remoteGroupServe c src (Fin.ofNat 32 r) (Fin.ofNat 8 (i / groupElems e.w)))
      | _ => none) ++
    (st.ctx c).landing.map fun l => Instr.groupLand c (Fin.ofNat 32 l.reg) (Fin.ofNat 8 l.group)

/-- Events of launches, and of the cores Woad stops. -/
noncomputable def State.launchEvents (st : State) : List Instr :=
  st.partNums.flatMap (fun p =>
    (st.part p).launches.flatMap (fun l => [Instr.launchComplete p l.1, .cancelDrained p l.1]) ++
    (st.part p).graphs.map (fun g => Instr.graphComplete p g.job g.id) ++
    (st.part p).phases.map (fun g => Instr.phaseComplete p g.job g.id) ++
    (st.part p).closedJobs.map fun j => Instr.jobComplete p j) ++
  st.ctxNums.map Instr.cancelReachesThread ++ st.coreNums.map Instr.woadCoreStop

/-- Events of an engine's operation. -/
noncomputable def opEvents (c i : Nat) (o : EngOp) : List Instr :=
  [.opStart c i, .predecessorFault c i, .copyStep c i, .publishExchange c i, .mmaKBlock c i none none, .mclrStep c i, .mrdRow c i,
    .collectiveStep c i, .cbarComplete c i, .migrPageMove c i true] ++
  (List.range o.growRows.length).map (fun r => Instr.growsRow c i r) ++
  (o.dests.map (·.2)).eraseDups.flatMap fun d => [Instr.trainApply c i d, .trainAck c i d true]

/-- Events of the engines. -/
noncomputable def State.engineEvents (st : State) : List Instr :=
  st.coreNums.flatMap fun c => (st.core c).slots.flatMap fun x => opEvents c x.1 x.2.op

/-- Events of the dispatcher and the task queues. -/
noncomputable def State.schedEvents (st : State) : List Instr :=
  (List.range 640).map Instr.taskTake ++
  st.partNums.flatMap (fun p => (st.part p).launches.flatMap fun l => [Instr.dispatchGenerate p l.1, .dispatchPreempt p l.1]) ++
  st.coreNums.flatMap (fun c => [.ringRefill c, .joinBufferDrain c]) ++
  st.ctxNums.map Instr.threadSave ++ st.power.asked.map fun x => Instr.oppChangeComplete x.1

/-- Events that come when a time has passed, and the protocol of stealing: the device makes them when no other is due. -/
noncomputable def State.lateEvents (st : State) : List Instr :=
  st.ctxNums.map Instr.waitTimeout ++
  st.partNums.map Instr.parkDrainExpiry ++
  st.coreNums.flatMap (fun c =>
    ((st.core c).slots.flatMap fun x => (List.range x.2.op.teamCount).map fun m => Instr.collJoinTimeout c x.1 m) ++
    ((st.core c).fifo.filterMap fun e => e.lent.map fun l => Instr.lendExpiry c l.2) ++
    (match (st.core c).steal with | some (.ask v) => [Instr.stealLend v c] | _ => []) ++
    [.stealAnswer c, .lendAcknowledge c, .lendAnswer c, .stealAsk c])

/-- The outcome of an event that changes something. -/
def State.enabled (st : State) (i : Instr) : Option Out :=
  match exec i st with
  | .next t => if t = st then none else some (.next t)
  | o => some o

/-- The first event of a list that changes something. -/
def State.firstOf (st : State) (l : List Instr) : Option Out := l.findSome? st.enabled

/-- What the device does next, if anything: the events take turns with the steps. -/
noncomputable def State.deviceMove (st : State) : Option Out :=
  let l := st.memEvents ++ st.vecEvents ++ st.launchEvents ++ st.engineEvents ++ st.schedEvents
  match st.firstOf (l.rotateLeft st.tick) with
  | some o => some o
  | none => st.firstOf st.lateEvents

/-! ### The next move -/

/-- Contexts that have had, or passed, the turn that YIELD gave away (08 R194). -/
def State.turned (st : State) (l : List Nat) : State :=
  { st with ctxs := st.ctxs.map fun (e : Nat × Ctx) => if e.2.yielded && e.1 ∈ l then (e.1, { e.2 with yielded := false }) else e }

/-- A context issues; those before it have passed their turns. -/
noncomputable def State.issueAs (st : State) (passed : List Nat) (c : Nat) : Out :=
  ({ st.turned (c :: passed) with cur := c, background := true } : State).issue

/-- In CONFIG and RUN the next ready context and the device take turns; a convoy that has begun to issue goes on. -/
noncomputable def State.runTurn (st : State) : Out :=
  if st.me.opened ≠ [] && st.ready st.cur then st.issue
  else if st.background then
    (({ st with background := false } : State).deviceMove).getD (.next { st with background := false })
  else match st.nextReady with
    | some (passed, c) => st.issueAs passed c
    | none => .next { st with background := true }

/-- The next move when the agenda is empty (19 R356). -/
noncomputable def State.turn (st : State) : Out :=
  match st.woad.boot with
  | .rom => exec .powerOnReset st
  | .load => exec .firmwareLoad st
  | .verify => exec .firmwareVerify st
  | .selftest => exec .selfTest st
  | .safe => .next st
  | .config | .run => st.runTurn

/-- A move that the agenda names. A move that is not one of the machine is dropped. -/
noncomputable def State.move (st : State) : Move → Out
  | .issue c =>
    if !st.ready c then .next st
    else if st.passes c then .next (st.turned [c])
    else ({ st.turned [c] with cur := c } : State).issue
  | .defer c =>
    if !st.ready c then .next st
    else if st.passes c then .next (st.turned [c])
    else ({ st.turned [c] with cur := c } : State).issuePast
  | .event i => if isEvent i then exec i st else .next st
  | .corrected core loc va => .next (st.corrected core loc va)
  | .flit link bytes => st.arrive link bytes
  | .train port p elems count => st.trainArrives port p elems count

/-! ### Placing an instruction -/

/-- A word stands at physical bytes 0 to 3, with its parity, whatever was there before. -/
def State.placeWord (s : State) (w : Nat) : State :=
  let s := [0, 1, 2, 3].foldl (fun (t : State) i => t.writeByte i ⟨BitVec.ofNat 8 (w / 2 ^ (8 * i)), 0, 0, 0, {}, .none⟩) s
  { s with hist := s.hist.filter fun e => 4 ≤ e.1, writes := s.writes.filter (·.ctx ≠ 0), badLines := [], deadChannels := [] }

end Sys2Proof.Machine
end

