-- ==== Sys2Proof/Machine/Step.lean ====
section
/-! DEFINITION. Step: one step of the module, and the state whose next step runs a given word. -/

namespace Sys2Proof.Machine

/-- One step of the module. -/
noncomputable def step (s : State) : Host.Outcome State Fault Refusal :=
  let st := { s with tick := s.tick + 1 }
  match st.agenda with
  | m :: rest => ({ st with agenda := rest } : State).move m
  | [] => st.turn

/-- The part stands in CONFIG (19 R357), and its firmware thread issues the word next (log entry 8): it is at address 0, where
the firmware image is placed, and nothing holds context 0 back. -/
def State.withFetchWord (s : State) (nbits w : Nat) : State :=
  let t := (s.placeWord (w % 2 ^ min nbits 32)).setCtx 0 fun k => { k with
    pc := 0, wait := none, opened := [], vq := [], saving := none, thread := none, ended := false, yielded := false
    clock := {}, sys := { k.sys with cpl := .m } }
  let t := t.setCore 0 fun k => { k with halted := false, stopped := false }
  { t with woad := { t.woad with boot := .config }, agenda := [], background := false }

end Sys2Proof.Machine
end

