-- ==== Sys2Proof/Safety.lean ====
section
/-! DEFINITION. Safety: what counts as a safe run, and the terms in which claims say what a step leaves alone. -/

namespace Sys2Proof.Machine

/-! ### Safe runs -/

/-- A run from s stops nowhere: every one of its steps answers a next state. -/
noncomputable def SafeRun (s : State) : Prop := ∀ n, ∃ t, Host.Core.run Sys2Proof.core n s = .next t

/-- Whether every byte of a parity line is the XOR of the seven data bytes of its stripe (17 R324). -/
def State.parityOk (s : State) : Prop :=
  ∀ n i, n < 2 ^ 29 → i < 256 →
    tget 0 s.parity (256 * n + i) = (List.range 7).foldl (fun b p => b ^^^ s.peek (1792 * n + 256 * p + i)) 0

/-- The values that bytes have held stand newest first, none later than now (05 R119): in memory, and of the pages in the tier. -/
def State.histOk (s : State) : Prop :=
  (∀ e ∈ s.hist, e.2.Pairwise (fun v u => u.time ≤ v.time) ∧ ∀ v ∈ e.2, v.time ≤ s.time) ∧
    ∀ p ∈ s.parts, ∀ t ∈ p.2.tier, ∀ e ∈ t.last, e.2.time ≤ s.time

/-- The invariant of the memory of the part: its canonical form, the parity of every stripe, and the order of what bytes have held. -/
def State.memInv (s : State) : Prop := Memory.wf s.mem = true ∧ s.parityOk ∧ s.histOk

/-! ### Frames -/

/-- Nothing but the issuing context has changed: no other context, and nothing of the rest of the module; so every byte of
memory reads as before. -/
structure State.OnlyMe (s t : State) : Prop where
  rest : { t with ctxs := s.ctxs } = s
  ctxs : ∀ c, c ≠ s.cur → t.ctx c = s.ctx c
  bytes : ∀ a, t.peek a = s.peek a

/-- What a word that writes a scalar register, and goes on, leaves alone in its context: all but the scalar registers, the pc,
the count of words, and what issue itself keeps (declared distances and waits). -/
def Ctx.still (k : Ctx) : Ctx := { k with x := [], pc := 0, icnt := 0, pos := 0, wait := none, waited := 0, shadow := [] }

/-- Scalar register d holds v, unless it is x0, to which a write is discarded (03 R55); every other one is as before. -/
def Ctx.Wrote (k k' : Ctx) (d : Fin 32) (v : Word) : Prop :=
  ∀ r : Fin 32, k'.rx r.val = if r = d ∧ r ≠ 0 then v else k.rx r.val

/-- One word of the issuing context has been issued and is done, and its successor issues at pc. -/
def Ctx.Passed (k k' : Ctx) (pc : Word) : Prop := k'.pc = pc ∧ k'.icnt = k.icnt + 1 ∧ k'.wait = none

/-- The issuing context has written v to scalar register d and goes on at pc; nothing else has changed. -/
structure State.WroteReg (s t : State) (d : Fin 32) (v pc : Word) : Prop where
  reg : s.me.Wrote t.me d v
  passed : s.me.Passed t.me pc
  still : t.me.still = s.me.still
  only : s.OnlyMe t

/-- The same, with flags raised in the sticky flags of lane 0 (08 R181), and no other lane's. -/
structure State.WroteFlags (s t : State) (d : Fin 32) (v : Word) (f : Flags) (pc : Word) : Prop where
  reg : s.me.Wrote t.me d v
  passed : s.me.Passed t.me pc
  flags : ∀ n, t.me.lane n = if n = 0 then s.me.lane 0 ||| f else s.me.lane n
  still : { t.me.still with flags := [] } = { s.me.still with flags := [] }
  only : s.OnlyMe t

/-- A trap of the issuing context has been taken from U to S, with code, record detail and resume address (15 R280). -/
structure State.TookTrap (s t : State) (code : Nat) (resume : Word) : Prop where
  level : t.me.sys.cpl = .s ∧ t.me.sys.ppl = .u
  saved : t.me.sys.epc = resume
  cause : t.me.sys.ecause = cause false code
  pc : t.me.pc = vector (s.part (s.partOf (coreOf s.cur))).tvec code
  regs : t.me.x = s.me.x ∧ t.me.b = s.me.b ∧ t.me.m = s.me.m ∧ t.me.k = s.me.k ∧ t.me.ctrl = s.me.ctrl ∧ t.me.flags = s.me.flags
  ctxs : ∀ c, c ≠ s.cur → t.ctx c = s.ctx c
  bytes : ∀ a, t.peek a = s.peek a

/-- A word of the issuing context reads the registers named: none is at a short declared distance (07 R165), and none lies in a
failed slot (18 R345). -/
abbrev State.Reads (s : State) (srcs : List Nat) : Prop := s.me.short srcs = [] ∧ s.failedScalar srcs = none

end Sys2Proof.Machine
end

