-- ==== Sys2Proof/Certificates/Slice0/Obligations.lean ====
section
/-! DEFINITION. The statements of this row for the provers, each `def Obligations.<Name> : Prop`; before them the tables and
words they are stated in (`Claims`), written from the rules of spec/ and not from the meanings. -/

namespace Sys2Proof.Claims

open Sys2Proof.Machine

/-! ### Scalar words -/

/-- A word that writes one scalar register: the register, the registers it reads, and what it writes as a function of the
scalar registers and of its address. -/
structure Form where
  d : Fin 32
  srcs : List (Fin 32)
  val : (Fin 32 → Word) → Word → Word

/-- 1 for true, 0 for false. -/
def truth (b : Bool) : Word := if b then 1 else 0

/-- What the words of R182 that divide nothing, and those of R183, write. -/
def scalarForm : Instr → Option Form
  | .add _ d a b => some ⟨d, [a, b], fun x _ => x a + x b⟩
  | .sub _ d a b => some ⟨d, [a, b], fun x _ => x a - x b⟩
  | .addW _ d a b => some ⟨d, [a, b], fun x _ => ((x a + x b).setWidth 32).signExtend 64⟩
  | .subW _ d a b => some ⟨d, [a, b], fun x _ => ((x a - x b).setWidth 32).signExtend 64⟩
  | .mul _ d a b => some ⟨d, [a, b], fun x _ => x a * x b⟩
  | .mulh _ d a b => some ⟨d, [a, b], fun x _ => BitVec.ofInt 64 ((x a).toInt * (x b).toInt / 2 ^ 64)⟩
  | .mulhn _ d a b => some ⟨d, [a, b], fun x _ => BitVec.ofNat 64 ((x a).toNat * (x b).toNat / 2 ^ 64)⟩
  | .and _ d a b => some ⟨d, [a, b], fun x _ => x a &&& x b⟩
  | .or _ d a b => some ⟨d, [a, b], fun x _ => x a ||| x b⟩
  | .xor _ d a b => some ⟨d, [a, b], fun x _ => x a ^^^ x b⟩
  | .andn _ d a b => some ⟨d, [a, b], fun x _ => x a &&& ~~~(x b)⟩
  | .sll _ d a b => some ⟨d, [a, b], fun x _ => x a <<< ((x b).toNat % 64)⟩
  | .srl _ d a b => some ⟨d, [a, b], fun x _ => x a >>> ((x b).toNat % 64)⟩
  | .sra _ d a b => some ⟨d, [a, b], fun x _ => (x a).sshiftRight ((x b).toNat % 64)⟩
  | .slt _ d a b => some ⟨d, [a, b], fun x _ => truth ((x a).toInt < (x b).toInt)⟩
  | .sltn _ d a b => some ⟨d, [a, b], fun x _ => truth ((x a).toNat < (x b).toNat)⟩
  | .min _ d a b => some ⟨d, [a, b], fun x _ => if (x a).toInt < (x b).toInt then x a else x b⟩
  | .max _ d a b => some ⟨d, [a, b], fun x _ => if (x a).toInt < (x b).toInt then x b else x a⟩
  | .minn _ d a b => some ⟨d, [a, b], fun x _ => if (x a).toNat < (x b).toNat then x a else x b⟩
  | .maxn _ d a b => some ⟨d, [a, b], fun x _ => if (x a).toNat < (x b).toNat then x b else x a⟩
  | .clz _ d a => some ⟨d, [a], fun x _ => BitVec.ofNat 64 (if x a = 0 then 64 else 63 - (x a).toNat.log2)⟩
  | .ffs _ d a => some ⟨d, [a], fun x _ => BitVec.ofNat 64 (((List.range 64).find? fun i => (x a).getLsbD i).getD 64)⟩
  | .popc _ d a => some ⟨d, [a], fun x _ => BitVec.ofNat 64 ((List.range 64).filter fun i => (x a).getLsbD i).length⟩
  | .addi _ d a i => some ⟨d, [a], fun x _ => x a + i.signExtend 64⟩
  | .andi _ d a i => some ⟨d, [a], fun x _ => x a &&& i.signExtend 64⟩
  | .ori _ d a i => some ⟨d, [a], fun x _ => x a ||| i.signExtend 64⟩
  | .xori _ d a i => some ⟨d, [a], fun x _ => x a ^^^ i.signExtend 64⟩
  | .slli _ d a h => some ⟨d, [a], fun x _ => x a <<< h.val⟩
  | .srli _ d a h => some ⟨d, [a], fun x _ => x a >>> h.val⟩
  | .srai _ d a h => some ⟨d, [a], fun x _ => (x a).sshiftRight h.val⟩
  | .slti _ d a i => some ⟨d, [a], fun x _ => truth ((x a).toInt < i.toInt)⟩
  | .sltni _ d a i => some ⟨d, [a], fun x _ => truth ((x a).toNat < (i.signExtend 64).toNat)⟩
  | .lui _ d i => some ⟨d, [], fun _ _ => i.signExtend 64 <<< 13⟩
  | .auipc _ d i => some ⟨d, [], fun _ pc => pc + i.signExtend 64 <<< 13⟩
  | _ => none

/-- Quotients and remainders (04 R82), as functions of dividend and divisor. -/
def divideForm : Instr → Option (Fin 32 × Fin 32 × Fin 32 × (Word → Word → Word))
  | .div _ d a b => some (d, a, b, fun x y => if y = 0 then BitVec.allOnes 64 else BitVec.ofInt 64 (x.toInt.tdiv y.toInt))
  | .divn _ d a b => some (d, a, b, fun x y => if y = 0 then BitVec.allOnes 64 else BitVec.ofNat 64 (x.toNat / y.toNat))
  | .rem _ d a b => some (d, a, b, fun x y => if y = 0 then x else BitVec.ofInt 64 (x.toInt.tmod y.toInt))
  | .remn _ d a b => some (d, a, b, fun x y => if y = 0 then x else BitVec.ofNat 64 (x.toNat % y.toNat))
  | _ => none

/-- A scalar floating-point word (08 R184 to R186): its destination, the registers it reads, and the code and flags it gives in
a rounding state. -/
structure FpForm where
  d : Fin 32
  srcs : List (Fin 32)
  val : (Fin 32 → Word) → Rnd → Nat × Flags

/-- The scalar floating-point words that round an exact result once (08 R184, 04 R97). -/
def roundedForm : Instr → Option FpForm
  | .fadd _ d a b p => some ⟨d, [a, b], fun x r => (fpFmt p).finish r ((fpVal p (x a)).add (fpVal p (x b)) r.rdn)⟩
  | .fsub _ d a b p => some ⟨d, [a, b], fun x r => (fpFmt p).finish r ((fpVal p (x a)).add (fpVal p (x b)).neg r.rdn)⟩
  | .fmul _ d a b p => some ⟨d, [a, b], fun x r => (fpFmt p).finish r ((fpVal p (x a)).mul (fpVal p (x b)))⟩
  | .fmac _ d a b p => some ⟨d, [a, b, d], fun x r => (fpFmt p).finish r (Val.fma (fpVal p (x d)) (fpVal p (x a)) (fpVal p (x b)) r.rdn)⟩
  | .fdiv _ d a b p => some ⟨d, [a, b], fun x r => (fpFmt p).finish r ((fpVal p (x a)).div (fpVal p (x b)))⟩
  | .fsqrt _ d a p => some ⟨d, [a], fun x r => (fpFmt p).finish r (fpVal p (x a)).sqrt⟩
  | .fcvt _ d a t p => some ⟨d, [a], fun x r => convert (fpFmt p) t r (fpCode p (x a))⟩
  | .fcvti _ d a t n => some ⟨d, [a], fun x r => convert (if n then .n64 else .i64) t r (x a).toNat⟩
  | _ => none

/-- A comparison's code, 0 for a NaN (08 R185). -/
def ordered (x y : Val) (b : Bool) : Nat := if x.isNan || y.isNan then 0 else if b then 1 else 0
/-- NV for a signalling NaN, or for any. -/
def nanFlag (any : Bool) (x y : Val) : Flags := if x.isSig || y.isSig || (any && (x.isNan || y.isNan)) then NV else 0

/-- The scalar floating-point words that round nothing (08 R185). -/
def exactForm : Instr → Option FpForm
  | .fmin _ d a b p => some ⟨d, [a, b], fun x _ => minMaxCode (fpFmt p) false (fpVal p (x a)) (fpVal p (x b)) (fpCode p (x a)) (fpCode p (x b))⟩
  | .fmax _ d a b p => some ⟨d, [a, b], fun x _ => minMaxCode (fpFmt p) true (fpVal p (x a)) (fpVal p (x b)) (fpCode p (x a)) (fpCode p (x b))⟩
  | .fcmpEq _ d a b p => some ⟨d, [a, b], fun x _ => let u := fpVal p (x a); let v := fpVal p (x b); (ordered u v (u.eq v), nanFlag false u v)⟩
  | .fcmpLt _ d a b p => some ⟨d, [a, b], fun x _ => let u := fpVal p (x a); let v := fpVal p (x b); (ordered u v (u.lt v), nanFlag true u v)⟩
  | .fcmpLe _ d a b p => some ⟨d, [a, b], fun x _ => let u := fpVal p (x a); let v := fpVal p (x b); (ordered u v !(v.lt u), nanFlag true u v)⟩
  | .fclass _ d a p => some ⟨d, [a], fun x _ => (classMask (fpFmt p) (fpVal p (x a)), 0)⟩
  | _ => none

/-- A branch (08 R187): the registers it compares, whether it is taken, and its displacement in bytes. -/
def branchForm : Instr → Option (Fin 32 × Fin 32 × (Word → Word → Bool) × Word)
  | .beq _ a b i => some (a, b, fun x y => x = y, 4 * i.signExtend 64)
  | .bne _ a b i => some (a, b, fun x y => x ≠ y, 4 * i.signExtend 64)
  | .blt _ a b i => some (a, b, fun x y => x.toInt < y.toInt, 4 * i.signExtend 64)
  | .bge _ a b i => some (a, b, fun x y => x.toInt ≥ y.toInt, 4 * i.signExtend 64)
  | .bltn _ a b i => some (a, b, fun x y => x.toNat < y.toNat, 4 * i.signExtend 64)
  | .bgen _ a b i => some (a, b, fun x y => x.toNat ≥ y.toNat, 4 * i.signExtend 64)
  | _ => none

/-- A trap taken from S to M (15 R280): M's registers are written, and those of S are left. -/
structure TookTrapM (s t : State) (code : Nat) (resume : Word) : Prop where
  level : t.me.sys.cpl = .m ∧ t.me.sys.mppl = s.me.sys.cpl
  saved : t.me.sys.mepc = resume
  cause : t.me.sys.mcause = cause false code
  pc : t.me.pc = vector s.mvec code
  super : t.me.sys.epc = s.me.sys.epc ∧ t.me.sys.ecause = s.me.sys.ecause ∧ t.me.sys.frec = s.me.sys.frec ∧ t.me.sys.ppl = s.me.sys.ppl
  regs : t.me.x = s.me.x ∧ t.me.b = s.me.b ∧ t.me.m = s.me.m ∧ t.me.k = s.me.k ∧ t.me.ctrl = s.me.ctrl ∧ t.me.flags = s.me.flags
  ctxs : ∀ c, c ≠ s.cur → t.ctx c = s.ctx c
  bytes : ∀ a, t.peek a = s.peek a

/-- The numbers of scalar registers, for declared distances. -/
def nums (l : List (Fin 32)) : List Nat := l.map (·.val)

/-- The rounding state of the issuing context (08 R184): VT as it stands, element index 0. -/
def rnd (st : State) : Rnd := Rnd.ofVt st.me.ctrl.vt (srbits st.me.ctrl.seed st.me.icnt 0)

end Sys2Proof.Claims

open Sys2Proof Sys2Proof.Machine Sys2Proof.Claims

/-- Each word of R182 that does not divide, and each of R183, writes to xd what its table says, from the register values at its
issue, when no source is at a short declared distance (R165); it issues once, goes on at pc + 4, raises no flag and changes
nothing else. A write to x0 is discarded (R55). -/
def Sys2Proof.Claims.ScalarIntegerResults : Prop :=
  ∀ (i : Instr) (f : Form) (st : State), scalarForm i = some f → st.Reads (nums f.srcs) →
    ∃ t, exec i st = .next t ∧ st.WroteReg t f.d (f.val (fun r => st.me.rx r.val) st.me.pc) (st.me.pc + 4)

/-- DIV, DIVN, REM and REMN (R182, R82): the quotient or remainder, with its borderline cases; a zero divisor raises IDZ in
lane 0, and nothing else changes. -/
def Sys2Proof.Claims.ScalarDivision : Prop :=
  ∀ (i : Instr) (d a b : Fin 32) (f : Word → Word → Word) (st : State), divideForm i = some (d, a, b, f) →
    st.Reads (nums [a, b]) →
    ∃ t, exec i st = .next t ∧
      st.WroteFlags t d (f (st.me.rx a.val) (st.me.rx b.val)) (if st.me.rx b.val = 0 then IDZ else 0) (st.me.pc + 4)

/-- The scalar integer words (R182, R183, R82): their results, and those of the divisions with their borderline cases. -/
def Obligations.ScalarIntegerWords : Prop := Claims.ScalarIntegerResults ∧ Claims.ScalarDivision

/-- The rounding scalar floating-point words (R184, R186): the code of the exact result rounded once under VT, zero-extended,
with its flags in lane 0; nothing else changes. -/
def Sys2Proof.Claims.ScalarFloatRounded : Prop :=
  ∀ (i : Instr) (f : FpForm) (st : State), roundedForm i = some f →
    st.Reads (nums f.srcs ++ [ctlReg 3, ctlReg 6]) →
    ∃ t, exec i st = .next t ∧
      st.WroteFlags t f.d (BitVec.ofNat 64 (f.val (fun r => st.me.rx r.val) (rnd st)).1)
        (f.val (fun r => st.me.rx r.val) (rnd st)).2 (st.me.pc + 4)

/-- FMIN, FMAX, the comparisons and FCLASS (R185). That FCLASS raises nothing for a signalling NaN is the model's choice: log
entry 98. -/
def Sys2Proof.Claims.ScalarFloatExact : Prop :=
  ∀ (i : Instr) (f : FpForm) (st : State), exactForm i = some f → st.Reads (nums f.srcs) →
    ∃ t, exec i st = .next t ∧
      st.WroteFlags t f.d (BitVec.ofNat 64 (f.val (fun r => st.me.rx r.val) (rnd st)).1)
        (f.val (fun r => st.me.rx r.val) (rnd st)).2 (st.me.pc + 4)

/-- The scalar floating-point words (R184 to R186): those that round an exact result once, and those that round nothing. -/
def Obligations.ScalarFloatWords : Prop := Claims.ScalarFloatRounded ∧ Claims.ScalarFloatExact

/-- The branches (R187): to pc + 4·sext(disp10, 10) when the condition holds and to pc + 4 otherwise; no register, flag or byte
changes. -/
def Sys2Proof.Claims.Branches : Prop :=
  ∀ (i : Instr) (a b : Fin 32) (c : Word → Word → Bool) (off : Word) (st : State), branchForm i = some (a, b, c, off) →
    st.Reads (nums [a, b]) →
    ∃ t, exec i st = .next t ∧
      st.WroteReg t 0 0 (if c (st.me.rx a.val) (st.me.rx b.val) then st.me.pc + off else st.me.pc + 4)

/-- J and JAL continue at pc + 4·sext(disp23, 23), JAL with pc + 4 in x1 (R187); JALR continues at xa + sext(imm13, 13) with
pc + 4 in xd, or, when that is no address of a word, traps ALIGN with xd undisturbed (R188): to S, to M, or, at M, by stopping
the core or bring-up (R280, R355, R357). -/
def Sys2Proof.Claims.Jumps : Prop :=
  (∀ (s : Fin 4) (i : BitVec 23) (st : State), ∃ t, exec (.j s i) st = .next t ∧
    st.WroteReg t 0 0 (st.me.pc + 4 * i.signExtend 64)) ∧
  (∀ (s : Fin 4) (i : BitVec 23) (st : State), ∃ t, exec (.jal s i) st = .next t ∧
    st.WroteReg t 1 (st.me.pc + 4) (st.me.pc + 4 * i.signExtend 64)) ∧
  ∀ (s : Fin 4) (d a : Fin 32) (i : BitVec 13) (st : State), st.Reads (nums [a]) →
    let target := st.me.rx a.val + i.signExtend 64
    (target.toNat % 4 = 0 → ∃ t, exec (.jalr s d a i) st = .next t ∧ st.WroteReg t d (st.me.pc + 4) target) ∧
    (target.toNat % 4 ≠ 0 → st.me.sys.cpl = .u → st.me.opened = [] →
      ∃ t, exec (.jalr s d a i) st = .next t ∧ st.TookTrap t Code.align st.me.pc ∧ t.me.sys.frec.d5 = target) ∧
    (target.toNat % 4 ≠ 0 → st.me.sys.cpl = .s → st.me.opened = [] →
      ∃ t, exec (.jalr s d a i) st = .next t ∧ TookTrapM st t Code.align st.me.pc ∧ t.me.sys.mfrec.d5 = target) ∧
    (target.toNat % 4 ≠ 0 → st.me.sys.cpl = .m → st.me.opened = [] →
      ∃ t, exec (.jalr s d a i) st = .next t ∧ t.ctx st.cur = st.ctx st.cur ∧
        ((t.core (coreOf st.cur)).stopped = true ∨ t.woad.boot = .safe))

/-- The words that choose where to go on (R187, R188): branches and jumps. -/
def Obligations.BranchesAndJumps : Prop := Claims.Branches ∧ Claims.Jumps

/-! ### Accesses of scalar words -/

namespace Sys2Proof.Claims

open Sys2Proof.Machine

/-- Loads (08 R189, R193): destination, base, displacement, bytes, whether zero-extended, whether an acquire. -/
def loadForm : Instr → Option (Fin 32 × Fin 32 × Word × Nat × Bool × Bool)
  | .ldB _ x a i => some (x, a, i.signExtend 64, 1, false, false)
  | .ldH _ x a i => some (x, a, i.signExtend 64 * 2, 2, false, false)
  | .ldW _ x a i => some (x, a, i.signExtend 64 * 4, 4, false, false)
  | .ldD _ x a i => some (x, a, i.signExtend 64 * 8, 8, false, false)
  | .ldnB _ x a i => some (x, a, i.signExtend 64, 1, true, false)
  | .ldnH _ x a i => some (x, a, i.signExtend 64 * 2, 2, true, false)
  | .ldnW _ x a i => some (x, a, i.signExtend 64 * 4, 4, true, false)
  | .ldaqB _ d a => some (d, a, 0, 1, false, true)
  | .ldaqH _ d a => some (d, a, 0, 2, false, true)
  | .ldaqW _ d a => some (d, a, 0, 4, false, true)
  | .ldaqD _ d a => some (d, a, 0, 8, false, true)
  | _ => none

/-- Stores (08 R189, R193): source, base, displacement, bytes, whether a release. -/
def storeForm : Instr → Option (Fin 32 × Fin 32 × Word × Nat × Bool)
  | .stB _ x a i => some (x, a, i.signExtend 64, 1, false)
  | .stH _ x a i => some (x, a, i.signExtend 64 * 2, 2, false)
  | .stW _ x a i => some (x, a, i.signExtend 64 * 4, 4, false)
  | .stD _ x a i => some (x, a, i.signExtend 64 * 8, 8, false)
  | .strlB _ a b => some (b, a, 0, 1, true)
  | .strlH _ a b => some (b, a, 0, 2, true)
  | .strlW _ a b => some (b, a, 0, 4, true)
  | .strlD _ a b => some (b, a, 0, 8, true)
  | _ => none

/-- Atomics (08 R191): destination, address, operand, whether of 8 bytes, .RL, and the operation. -/
def atomicForm : Instr → Option (Fin 32 × Fin 32 × Fin 32 × Bool × Bool × Rmw)
  | .amoadd _ d a b w _ r => some (d, a, b, w, r, .add)
  | .amoand _ d a b w _ r => some (d, a, b, w, r, .and)
  | .amoor _ d a b w _ r => some (d, a, b, w, r, .or)
  | .amoxor _ d a b w _ r => some (d, a, b, w, r, .xor)
  | .amomin _ d a b w _ r => some (d, a, b, w, r, .min)
  | .amomax _ d a b w _ r => some (d, a, b, w, r, .max)
  | .amominn _ d a b w _ r => some (d, a, b, w, r, .minn)
  | .amomaxn _ d a b w _ r => some (d, a, b, w, r, .maxn)
  | .amoswap _ d a b w _ r => some (d, a, b, w, r, .swap)
  | .amocas _ d a b w _ r => some (d, a, b, w, r, .cas)
  | _ => none

/-- LDP (08 R190): destination, window, offset register, bytes, whether zero-extended. -/
def windowForm : Instr → Option (Fin 32 × Fin 8 × Fin 32 × Nat × Bool)
  | .ldpB _ d w a => some (d, w, a, 1, false)
  | .ldpH _ d w a => some (d, w, a, 2, false)
  | .ldpW _ d w a => some (d, w, a, 4, false)
  | .ldpD _ d w a => some (d, w, a, 8, false)
  | .ldpnB _ d w a => some (d, w, a, 1, true)
  | .ldpnH _ d w a => some (d, w, a, 2, true)
  | .ldpnW _ d w a => some (d, w, a, 4, true)
  | _ => none

/-- The storage of these bytes can be reached and read by the issuing context, and no line of their stripes is lost (17 R325, 18 R345,
R347). -/
abbrev Sound (st : State) (va : Word) (pas : List Nat) : Prop :=
  st.hardError (coreOf st.cur) va pas = none ∧ ∀ p ∈ pas, region p = .main → st.deadLines (stripe p) = 0

/-- No walk to the pages of n bytes at va reads a line that is to be rebuilt, and reported (17 R325). -/
abbrev Walks (st : State) (va : Word) (n : Nat) : Prop :=
  ∀ a ∈ [va, va + word (n - 1)],
    ∀ e ∈ st.walkPath (coreOf st.cur) (st.partOf (coreOf st.cur)) a.toNat 5 0 (st.walkRoot (st.partOf (coreOf st.cur)) a.toNat),
      region e = .main → st.deadLines (stripe e) ≠ 1

/-- An access of the issuing context to n bytes at va that meets no trap: they translate to these locations, which lie in
memory and not in the device control region, can be read, and lie behind no failed link; and the walks to them report nothing. -/
structure Access (st : State) (kind : Kind) (va : Word) (n : Nat) (locs : List Loc) : Prop where
  found : st.locate (coreOf st.cur) (st.partOf (coreOf st.cur)) st.me.sys.cpl kind true va n = .inl locs
  memory : st.isMmio locs = false
  sound : Sound st va (locs.map st.visible)
  walks : Walks st va n

/-- Nothing holds an access to these bytes back: no vector word of the context is queued (07 R170) and no FENCE pends (05 R126), no
write of its own to them is on its way, and their homes know the frontiers its clock names (05 R120), with no store ahead that stands
still (R117). -/
structure Prompt (st : State) (pas : List Nat) : Prop where
  vector : st.me.vq = [] ∧ st.me.opened = [] ∧ st.me.landing = []
  own : overlaps pas (st.pending st.cur) = false
  known : st.servable st.me.clock pas = true
  fences : st.me.fences = []
  stopped : st.stoppedAhead st.cur none st.me.clock pas = false

/-- The versions that a read of n bytes returns (05 R120): each is one that its byte has held since what the reader may not go behind.
Of a naturally aligned access, none shows another's write in part (R123, R124): where a byte comes from the writes of a moment, no
other byte is older than what that moment wrote to it. -/
structure Read (st : State) (pas : List Nat) (n : Nat) (floor : Nat → Nat) (aligned : Prop) (vs : Nat → Ver) : Prop where
  since : ∀ k, k < n → vs k ∈ st.versFrom (pas.getD k 0) (floor (pas.getD k 0))
  whole : aligned → ∀ j k, j < n → k < n → ∀ v ∈ tget [] st.hist (pas.getD k 0), v.time = (vs j).time → v.time ≤ (vs k).time

/-- A number of 8·n bits in a scalar register (08 R189). -/
def extended (zext : Bool) (n v : Nat) : Word := if zext then BitVec.ofNat 64 v else BitVec.ofInt 64 (sint (8 * n) v)

/-- What an access leaves alone: everything but the issuing context and the translation buffers of the cores; and of the context,
all but what a scalar word may change, its clock, and what it remembers of its reads and writes. -/
structure Accessed (st t : State) : Prop where
  rest : { t with ctxs := st.ctxs, cores := st.cores, mem := st.mem, parity := st.parity, hist := st.hist, writes := st.writes,
                  issued := st.issued, known := st.known, time := st.time } = st
  cores : ∀ c, { t.core c with tlb := [] } = { st.core c with tlb := [] }
  ctxs : ∀ c, c ≠ st.cur → t.ctx c = st.ctx c
  me : { t.me.still with clock := {}, seen := [], looseFrom := 0, wic := 0, wdc := 0 } =
    { st.me.still with clock := {}, seen := [], looseFrom := 0, wic := 0, wdc := 0 }

end Sys2Proof.Claims

/-- LD, LDN and LDAQ (R189, R193): xd receives the bytes of the address, sign- or zero-extended. Each byte is one it has held since
what the thread may not read behind (R120), and a naturally aligned access shows no write in part (R123). No byte of memory, no other
register and no write changes. -/
def Sys2Proof.Claims.Loads : Prop :=
  ∀ (i : Instr) (x a : Fin 32) (off : Word) (n : Nat) (zext acq : Bool) (locs : List Loc) (st : State),
    loadForm i = some (x, a, off, n, zext, acq) → st.Reads (nums [a]) → st.histOk →
    Access st .read (st.me.rx a.val + off) n locs → Prompt st (locs.map st.visible) →
    (acq = true → (st.me.rx a.val + off).toNat % n = 0) →
    ∃ (t : State) (vs : Nat → Ver), exec i st = .next t ∧
      Read st (locs.map st.visible) n (st.floorOf st.cur st.me.clock) (st.addr0 locs % n = 0) vs ∧
      st.me.Wrote t.me x (extended zext n (leNat ((List.range n).map fun k => (vs k).val))) ∧
      st.me.Passed t.me (st.me.pc + 4) ∧ Accessed st t ∧ (∀ b, t.peek b = st.peek b) ∧ t.writes = st.writes

/-- ST and STRL (R189, R193): one numbered write of the low bytes of the source, to the locations of the address, is issued and
counted (R117, R33): in one part when it is naturally aligned, and otherwise by bytes (R114). It is in flight: no byte of memory
changes yet, and no register does. -/
def Obligations.Stores : Prop :=
  ∀ (i : Instr) (x a : Fin 32) (off : Word) (n : Nat) (rel : Bool) (locs : List Loc) (st : State),
    storeForm i = some (x, a, off, n, rel) → st.Reads (nums [x, a]) →
    Access st .write (st.me.rx a.val + off) n locs → Prompt st (locs.map st.visible) →
    (rel = true → (st.me.rx a.val + off).toNat % n = 0 ∧ st.performed = true) →
    ∃ (t : State) (w : Write), exec i st = .next t ∧ t.writes = st.writes ++ [w] ∧
      w.ctx = st.cur ∧ w.num = st.issued.at (dieOf (coreOf st.cur)) + 1 ∧ w.id = st.me.wic + 1 ∧
      w.parts.flatMap (·.locs) = locs ∧ w.parts.flatMap (·.bytes) = leBytes n (st.me.rx x.val).toNat ∧
      (st.addr0 locs % n = 0 → w.parts.length = 1) ∧
      t.me.wic = st.me.wic + 1 ∧ t.me.wdc = st.me.wdc ∧ st.me.Wrote t.me 0 0 ∧ st.me.Passed t.me (st.me.pc + 4) ∧
      Accessed st t ∧ ∀ b, t.peek b = st.peek b

/-- The atomics (R191): xd receives the old value, sign-extended, and the bytes of the address the new one, at once; a compare
that fails writes nothing. No other byte changes. -/
def Obligations.Atomics : Prop :=
  ∀ (i : Instr) (d a b : Fin 32) (w rel : Bool) (f : Rmw) (locs : List Loc) (st : State),
    atomicForm i = some (d, a, b, w, rel, f) → st.Reads (nums [a, b, d]) →
    let n := if w then 8 else 4
    let pas := locs.map st.visible
    let old := leNat (pas.map fun p => (st.last p).val)
    let new := rmwNat f n old ((st.me.rx b.val).toNat % 2 ^ (8 * n))
    (st.me.rx a.val).toNat % n = 0 → Access st .atomic (st.me.rx a.val) n locs → Prompt st pas → pas.Nodup → pas.length = n →
    (rel = true → st.performed = true) →
    (let clk := pas.foldl (fun k p => k.join (st.last p).clock) st.me.clock
     st.applicableAt (dieOf (coreOf st.cur)) clk pas = true ∧ st.stoppedAhead st.cur (some (dieOf (coreOf st.cur))) clk pas = false) →
    ∃ t, exec i st = .next t ∧ st.me.Wrote t.me d (extended false n old) ∧ st.me.Passed t.me (st.me.pc + 4) ∧ Accessed st t ∧
      (∀ p, p ∉ pas → t.peek p = st.peek p) ∧
      (if f = .cas ∧ old ≠ (st.me.rx d.val).toNat % 2 ^ (8 * n) then ∀ p, t.peek p = st.peek p
        else pas.map t.peek = leBytes n new)

/-- LDP (R190): the bytes at an offset of a parameter window, each one that the byte held at or after the launch; nothing changes but xd
and the translations that the core's buffer holds. -/
def Sys2Proof.Claims.ParameterLoads : Prop :=
  ∀ (i : Instr) (d : Fin 32) (w : Fin 8) (a : Fin 32) (n : Nat) (zext : Bool) (locs : List Loc) (st : State),
    windowForm i = some (d, w, a, n, zext) → st.Reads (nums [a]) → st.histOk →
    st.locateIn st.cur 2 w.val st.me.sys.cpl .read (st.me.rx a.val) n = .inl locs → st.isMmio locs = false →
    let va := ((st.launchOf st.cur).window w.val).1 + st.me.rx a.val
    Sound st va (locs.map st.visible) → Walks st va n →
    ∃ (t : State) (vs : Nat → Ver), exec i st = .next t ∧
      Read st (locs.map st.visible) n (fun p => max (st.launchOf st.cur).moment (st.cutAt p)) (st.addr0 locs % n = 0) vs ∧
      st.me.Wrote t.me d (extended zext n (leNat ((List.range n).map fun k => (vs k).val))) ∧
      st.me.Passed t.me (st.me.pc + 4) ∧ t.me.still = st.me.still ∧ Accessed st t ∧ ∀ b, t.peek b = st.peek b

/-- The scalar loads (R189, R190, R193): from memory, and from a parameter window. -/
def Obligations.ScalarLoads : Prop := Claims.Loads ∧ Claims.ParameterLoads

/-- FENCE goes on at once, and STALL with nothing queued, SLIP and YIELD too; none changes a register, a flag or a byte (R126, R127,
R194). What a FENCE orders waits for it: while an earlier access that it covers has still to be performed it pends, and holds back a
later one that its kind names; with nothing to be performed it is complete, and after kind both the thread reads nothing older than
what is applied. -/
def Obligations.Fences : Prop :=
  ∀ (s : Fin 4) (st : State),
    (∀ k p, ∃ t, exec (.fence s k p) st = .next t ∧ st.me.Wrote t.me 0 0 ∧
      st.me.Passed t.me (st.me.pc + 4) ∧ t.me.flags = st.me.flags ∧ t.me.ctrl = st.me.ctrl ∧ t.me.sys = st.me.sys ∧
      (∀ b, t.peek b = st.peek b) ∧ (∀ c, c ≠ st.cur → t.ctx c = st.ctx c) ∧
      let f : Fence := { kind := k, scope := p, icnt := st.me.icnt, wic := st.me.wic, order := st.nextOrder, handler := st.me.frozen }
      (st.me.fences = [] → k ≠ .loose → st.fenceMet st.cur f = false → t.me.fences = [f]) ∧
      (st.me.fences = [] → st.fenceMet st.cur { f with scope := .package } = true → p ≠ .system → t.me.fences = [] ∧
        (k = .both → (p = .package → t.me.readFrom = st.time) ∧ (p = .die → t.me.readFromDie = st.time) ∧
          (p = .core → t.me.readFromCore = st.time) ∧ t.me.looseFrom = st.time))) ∧
    (∀ (f : Fence) (icnt : Nat) (a : Machine.Access) (pas : List Nat), f ∈ st.me.fences → f.icnt.toNat ≤ icnt → f.done = false →
      st.me.inTrap = false → (a = .store ∨ f.kind = .both ∨ f.kind = .loads) → (∃ p ∈ pas, fenceCovers f.scope st.cur p = true) →
      f.kind ≠ .loose → st.fenceHolds st.cur icnt a pas = true) ∧
    (st.me.vq = [] → st.me.opened = [] → st.me.landing = [] → ∃ t, exec (.stall s) st = .next t ∧ st.WroteReg t 0 0 (st.me.pc + 4)) ∧
    (∃ t, exec (.slip s) st = .next t ∧ st.me.Wrote t.me 0 0 ∧ st.me.Passed t.me (st.me.pc + 4) ∧ st.OnlyMe t ∧
      { t.me.still with vq := [] } = { st.me.still with vq := [] } ∧ t.me.vq.length = st.me.vq.length ∧
      ∀ e, t.me.vq.getLast? = some e → e.slip = true) ∧
    ∃ t, exec (.yieldTurn s) st = .next t ∧ st.me.Wrote t.me 0 0 ∧ st.me.Passed t.me (st.me.pc + 4) ∧ st.OnlyMe t ∧
      t.me.yielded = true ∧ { t.me.still with yielded := false } = { st.me.still with yielded := false }

/-! ### Traps, levels and registers -/

namespace Sys2Proof.Claims

open Sys2Proof.Machine

/-- The user control registers that software may write (03 R58), in the order of their numbers, with the bits that hold a value
(R61 to R63); VL's depend on its MODE bit. -/
def controls : List (Nat × (Ctrl → Word) × Word) :=
  [(0x01, (·.vm), 0x7F), (0x02, (·.vs), 0x7FFFFFFFFFFFFFFF), (0x03, (·.vt), 0x1FFFF), (0x04, (·.vmt), 0x3F), (0x05, (·.vf), -1),
   (0x06, (·.seed), -1), (0x07, (·.dchk), 1), (0x08, (·.bsw), 0x3FF800), (0x09, (·.slipd), 0x1F), (0x0A, (·.opri), 3),
   (0x10, (·.msh), 0xFFFFFFFFF), (0x11, (·.mft), 0xFFFFF), (0x12, (·.csh), -1), (0x13, (·.cst), -1), (0x14, (·.ctm), -8)]

/-- The registers a control register's write leaves: all of the context but the one, and what issue keeps. -/
def ctlOthers (k k' : Ctx) (n : Nat) : Prop :=
  { k'.still with ctrl := {} } = { k.still with ctrl := {} } ∧ ∀ m, m ≠ n → k'.ctrl.get m = k.ctrl.get m

/-- A system register of context scope by number (15 R277, R278). -/
def sysValue (y : Sys) : Nat → Option Word
  | 0 => some (BitVec.ofNat 64 (y.cpl.code + 4 * y.ppl.code + 16 * y.mppl.code))
  | 2 => some y.epc | 3 => some y.ecause
  | 8 => some y.frec.d0 | 9 => some y.frec.d1 | 10 => some y.frec.d2 | 11 => some y.frec.d3
  | 12 => some y.frec.d4 | 13 => some y.frec.d5 | 14 => some y.frec.d6 | 15 => some y.frec.d7
  | 0x10 => some y.ssa | 0x11 => some y.ssb | 0x12 => some y.csa
  | 0x31 => some y.mepc | 0x32 => some y.mcause
  | 0x38 => some y.mfrec.d0 | 0x39 => some y.mfrec.d1 | 0x3A => some y.mfrec.d2 | 0x3B => some y.mfrec.d3
  | 0x3C => some y.mfrec.d4 | 0x3D => some y.mfrec.d5 | 0x3E => some y.mfrec.d6 | 0x3F => some y.mfrec.d7
  | _ => none

/-- What SRW leaves: one system register, or a register of the partition, has changed, and the word is done. -/
structure WroteSys (s t : State) : Prop where
  regs : s.me.Wrote t.me 0 0
  passed : s.me.Passed t.me (s.me.pc + 4)
  still : { t.me.still with sys := {} } = { s.me.still with sys := {} }
  ctxs : ∀ c, c ≠ s.cur → t.ctx c = s.ctx c
  rest : { t with ctxs := s.ctxs, parts := s.parts, mvec := s.mvec } = s

/-- A privileged word at U traps PRIV (15 R275); `i` is any word of major 0x3E. -/
def systemWord : Instr → Bool
  | .claim .. | .tret .. | .srr .. | .srw .. | .tlbi .. | .ctxsv .. | .ctxld .. | .park .. | .halt .. | .bset .. | .pcan .. | .seqr .. => true
  | _ => false

/-- The system registers of M (15 R277). -/
def sysRegsM : List Nat := [0x30, 0x31, 0x32, 0x38, 0x39, 0x3A, 0x3B, 0x3C, 0x3D, 0x3E, 0x3F]
/-- The other system registers of the table (15 R277). -/
def sysRegsS : List Nat := [0x00, 0x01, 0x02, 0x03, 0x08, 0x09, 0x0A, 0x0B, 0x0C, 0x0D, 0x0E, 0x0F, 0x10, 0x11, 0x12, 0x20, 0x21, 0x22]

/-- The system words that need M (15 R275, R277, R278, R290 to R292). -/
def needsM : Instr → Bool
  | .park .. | .halt .. | .pcan .. => true
  | .srr _ _ r => r.val ∈ sysRegsM
  | .srw _ r _ => r.val ∈ sysRegsM || r.val = 0x22
  | _ => false

/-- What CLAIM writes to the 80 KiB at a physical address (15 R282, 18 R340): the bricks, the mask and scale registers, VL to SEED, the
links, the landed bits, and the words still queued. -/
structure ClaimedAt (k : Ctx) (t : State) (base : Nat) : Prop where
  bricks : ∀ n, n < 32 → (span (base + 2048 * n) 2048).map t.peek = leBytes 2048 (k.brick n).toNat
  masks : ∀ n, n < 8 → (span (base + 0x10000 + 512 * n) 512).map t.peek = leBytes 512 (k.mask n).toNat
  scales : ∀ n, n < 4 → (span (base + 0x11000 + 512 * n) 512).map t.peek = leBytes 512 (k.scale n).toNat
  ctrl : ∀ r, r < 7 → (span (base + 0x11900 + 8 * r) 8).map t.peek = leBytes 8 (k.ctrl.get r).toNat
  links : ∀ n, n < 32 → (span (base + 0x11C00 + 16 * n) 16).map t.peek = leBytes 8 (k.link n).1.toNat ++ leBytes 8 (k.link n).2.toNat
  landed : ∀ n, n < 32 → t.peek (base + 0x11E00 + n) = k.land n
  words : (span (base + 0x12400) 6144).map t.peek = wordsBytes (resumeWords k.vq)

/-- What TRET loads from there (15 R283), of what a context can hold: links that NBSET refuses, and values that CRW refuses, are not
taken (log entry 57). -/
structure LoadedFrom (st : State) (base : Nat) (k : Ctx) : Prop where
  bricks : ∀ n, n < 32 → k.brick n = BitVec.ofNat 16384 (leNat ((span (base + 2048 * n) 2048).map st.peek))
  masks : ∀ n, n < 8 → k.mask n = BitVec.ofNat 4096 (leNat ((span (base + 0x10000 + 512 * n) 512).map st.peek))
  scales : ∀ n, n < 4 → k.scale n = BitVec.ofNat 4096 (leNat ((span (base + 0x11000 + 512 * n) 512).map st.peek))
  links : ∀ n, n < 32 →
    let xa := BitVec.ofNat 64 (leNat ((span (base + 0x11C00 + 16 * n) 8).map st.peek))
    let xb := BitVec.ofNat 64 (leNat ((span (base + 0x11C08 + 16 * n) 8).map st.peek))
    linksOkA xa xb = true → linksOkB xb = true → k.link n = (xa, xb &&& 0xFFFFFFFFFFF)
  landed : ∀ n, n < 32 → k.land n = st.peek (base + 0x11E00 + n)
  ctrl : ∀ e ∈ controls, e.1 < 7 →
    let v := BitVec.ofNat 64 (leNat ((span (base + 0x11900 + 8 * e.1) 8).map st.peek))
    ctlRefused e.1 v = false → e.2.1 k.ctrl = v &&& e.2.2

end Sys2Proof.Claims

/-- SVC and BRK at U enter the handler of their code with the immediate in the record, SVC to resume at pc + 4 and BRK at pc
(R195, R280); that SVC counts in icnt and BRK does not is the model's reading of 04 R91 (DEDUCED, log entry 52). A word that is no instruction traps ILLEGAL with the word in the record (R161, R330). -/
def Sys2Proof.Claims.TrapsAtUser : Prop :=
  ∀ (st : State), st.me.sys.cpl = .u → st.me.opened = [] →
    (∀ (s : Fin 4) (i : BitVec 10), ∃ t, exec (.svc s i) st = .next t ∧ st.TookTrap t Code.svc (st.me.pc + 4) ∧
      t.me.sys.frec.d3 = i.setWidth 64 ∧ t.me.sys.frec.d6 = st.me.pc ∧ t.me.icnt = st.me.icnt + 1) ∧
    (∀ (s : Fin 4) (i : BitVec 10), ∃ t, exec (.brk s i) st = .next t ∧ st.TookTrap t Code.brk st.me.pc ∧
      t.me.sys.frec.d3 = i.setWidth 64 ∧ t.me.sys.frec.d6 = st.me.pc ∧ t.me.icnt = st.me.icnt) ∧
    ∀ (w : BitVec 32), decodeWord w.toNat = none → ∃ t, exec (.illegalWord w) st = .next t ∧
      st.TookTrap t Code.illegal st.me.pc ∧ t.me.sys.frec.d3 = w.setWidth 64 ∧ t.me.sys.frec.d6 = st.me.pc

/-- The same words at S go to M, and leave S's registers (R280); at M outside CONFIG they stop the core (R280, R355), and in
CONFIG they enter SAFE with unit code 08 (R357). BRK and an illegal word leave the context as it stands then, and SVC too but for
icnt, which counts it (log entry 52). -/
def Sys2Proof.Claims.TrapsAboveUser : Prop :=
  ∀ (st : State) (s : Fin 4) (i : BitVec 10) (w : BitVec 32), st.me.opened = [] → decodeWord w.toNat = none →
    (st.me.sys.cpl = .s →
      (∃ t, exec (.svc s i) st = .next t ∧ TookTrapM st t Code.svc (st.me.pc + 4)) ∧
      (∃ t, exec (.brk s i) st = .next t ∧ TookTrapM st t Code.brk st.me.pc) ∧
      ∃ t, exec (.illegalWord w) st = .next t ∧ TookTrapM st t Code.illegal st.me.pc) ∧
    (st.me.sys.cpl = .m → st.woad.boot ≠ .config →
      (∀ e, e = .brk s i ∨ e = .illegalWord w →
        ∃ t, exec e st = .next t ∧ (t.core (coreOf st.cur)).stopped = true ∧ t.ctx st.cur = st.ctx st.cur) ∧
      ∃ t, exec (.svc s i) st = .next t ∧ (t.core (coreOf st.cur)).stopped = true ∧
        { t.me with icnt := 0 } = { st.me with icnt := 0 }) ∧
    (st.me.sys.cpl = .m → st.woad.boot = .config →
      (∀ e, e = .brk s i ∨ e = .illegalWord w →
        ∃ t, exec e st = .next t ∧ t.woad.boot = .safe ∧ t.woad.unit = 0x08 ∧ t.ctx st.cur = st.ctx st.cur) ∧
      ∃ t, exec (.svc s i) st = .next t ∧ t.woad.boot = .safe ∧ t.woad.unit = 0x08 ∧
        { t.me with icnt := 0 } = { st.me with icnt := 0 })

/-- Traps of SVC, BRK and illegal words, from every level (R195, R280). -/
def Obligations.TrapsTaken : Prop := Claims.TrapsAtUser ∧ Claims.TrapsAboveUser

/-- Every system word traps PRIV at U, and those of M at S too, before it does anything (R275, R161): PARK, HALT and PCAN, SRR and SRW
of a register of M, SRW of PART (R277, R278), and TLBI of kind 2 (R285). -/
def Obligations.PrivilegedWords : Prop :=
  ∀ (i : Instr) (st : State), systemWord i = true → st.me.opened = [] →
    (st.me.sys.cpl = .u → ∃ t, exec i st = .next t ∧ st.TookTrap t Code.priv st.me.pc) ∧
    (st.me.sys.cpl = .s → needsM i = true → ∃ t, exec i st = .next t ∧ TookTrapM st t Code.priv st.me.pc) ∧
    ∀ (s : Fin 4) (d a b : Fin 32), st.me.sys.cpl = .s → st.me.short (nums [b]) = [] → (st.me.rx b.val).toNat % 4 = 2 →
      ∃ t, exec (.tlbi s d a b) st = .next t ∧ TookTrapM st t Code.priv st.me.pc

/-- At a short declared distance a word traps STALL_SHORT when DCHK.EN = 1, with the producer's address in the record; when it is
0, ADD reads for each source the new value or an old one that is still in its latency (R166). A register that lies in a failed
slot traps ECC_UNCORR, with its number in LOC (18 R345). -/
def Obligations.ShortDistances : Prop :=
  ∀ (s : Fin 4) (d a b : Fin 32) (st : State), st.me.opened = [] →
    (∀ e l, st.me.short (nums [a, b]) = e :: l → st.me.olds (ctlReg 7) = [] → st.me.ctrl.dchk = 1 → st.me.sys.cpl = .u →
      ∃ t, exec (.add s d a b) st = .next t ∧ st.TookTrap t Code.stallShort st.me.pc ∧ t.me.sys.frec.d3 = e.addr) ∧
    (∀ r : Fin 32, st.me.short (nums [a, b]) = [] → st.failedScalar (nums [a, b]) = some r.val → st.me.sys.cpl = .u →
      ∃ t, exec (.add s d a b) st = .next t ∧ st.TookTrap t Code.eccUncorr st.me.pc ∧ fldW t.me.sys.frec.d2 32 16 = r.val) ∧
    (st.me.olds (ctlReg 7) = [] → st.me.ctrl.dchk = 0 → st.failedScalar (nums [a, b]) = none →
      ∃ (t : State) (u v : Word), exec (.add s d a b) st = .next t ∧ st.WroteReg t d (u + v) (st.me.pc + 4) ∧
        u ∈ st.me.rx a.val :: st.me.olds a.val ∧ v ∈ st.me.rx b.val :: st.me.olds b.val)

/-- CRR reads a control register, CRW and CRWI write its defined bits and nothing else, and a write to a read-only one is
ignored (R58 to R64, R209). The values refused are those of `ctlRefused`; a number that names none is an illegal operand. -/
def Obligations.ControlRegisters : Prop :=
  ∀ (st : State) (s : Fin 4),
    (∀ (d : Fin 32) (r : Fin 64), r.val ≠ 0 → ctlRW r.val = true → st.Reads [ctlReg r.val] →
      ∃ t, exec (.crr s d r) st = .next t ∧ st.WroteReg t d (st.me.ctrl.get r.val) (st.me.pc + 4)) ∧
    (∀ (d : Fin 32) (r : Fin 64), ctlRO r.val = true → st.Reads [ctlReg r.val] →
      ∃ t, exec (.crr s d r) st = .next t ∧ st.WroteReg t d (match r.val with
        | 0x18 => st.tcb (coreOf st.cur) | 0x19 => BitVec.ofNat 64 st.me.wic | 0x1A => BitVec.ofNat 64 st.me.wdc
        | _ => BitVec.ofNat 64 st.cur) (st.me.pc + 4)) ∧
    (∀ e ∈ controls, ∀ (r : Fin 64) (a : Fin 32), r.val = e.1 → st.Reads (nums [a]) →
      ctlRefused r.val (st.me.rx a.val) = false → ∃ t, exec (.crw s r a) st = .next t ∧
        e.2.1 t.me.ctrl = st.me.rx a.val &&& e.2.2 ∧ ctlOthers st.me t.me r.val ∧ st.me.Wrote t.me 0 0 ∧
        st.me.Passed t.me (st.me.pc + 4) ∧ st.OnlyMe t) ∧
    (∀ e ∈ controls, ∀ (r : Fin 64) (i : BitVec 10), r.val = e.1 → ctlRefused r.val (i.setWidth 64) = false →
      ∃ t, exec (.crwi s r i) st = .next t ∧ e.2.1 t.me.ctrl = i.setWidth 64 &&& e.2.2 ∧ ctlOthers st.me t.me r.val ∧
        st.me.Wrote t.me 0 0 ∧ st.me.Passed t.me (st.me.pc + 4) ∧ st.OnlyMe t) ∧
    (∀ (r : Fin 64) (i : BitVec 10), ctlRO r.val = true → ∃ t, exec (.crwi s r i) st = .next t ∧ st.WroteReg t 0 0 (st.me.pc + 4)) ∧
    (∀ (d : Fin 32), st.me.vlPending = false → st.Reads [ctlReg 0] →
      ∃ t, exec (.crr s d 0) st = .next t ∧ st.WroteReg t d st.me.ctrl.vl (st.me.pc + 4)) ∧
    ∀ (a : Fin 32), st.me.vlPending = false → st.Reads (nums [a]) → ctlRefused 0 (st.me.rx a.val) = false →
      ∃ t, exec (.crw s 0 a) st = .next t ∧ ctlOthers st.me t.me 0 ∧ t.me.ctrl.vl = st.me.rx a.val &&&
        (if (st.me.rx a.val).getLsbD 63 then 0x800000000000FFFF else 0x1FFF)

/-- SRR reads a system register at a level that may (R277, R278): those of the context, and those of the partition and module, PART
among them. A number that the table does not have is an illegal operand (R277). -/
def Sys2Proof.Claims.SystemRegisterReads : Prop :=
  ∀ (st : State) (s : Fin 4) (d : Fin 32) (r : Fin 1024), (st.me.sys.cpl = .m ∨ (st.me.sys.cpl = .s ∧ needsM (.srr s d r) = false)) →
    st.Reads [sysReg r.val] →
    (∀ v, sysValue st.me.sys r.val = some v → ∃ t, exec (.srr s d r) st = .next t ∧ st.WroteReg t d v (st.me.pc + 4)) ∧
    (∀ v, (r.val, v) ∈ [(1, (st.part st.myPart).tvec), (0x20, (st.part st.myPart).ttb), (0x21, (st.part st.myPart).lqopen), (0x30, st.mvec)] →
      ∃ t, exec (.srr s d r) st = .next t ∧ st.WroteReg t d v (st.me.pc + 4)) ∧
    (r.val = 0x22 → st.myPart < 40 → ∃ t, exec (.srr s d r) st = .next t ∧
      st.WroteReg t d (BitVec.ofNat 64 (st.myPart + 2 ^ 8 * (st.part st.myPart).qmask.toNat)) (st.me.pc + 4)) ∧
    (r.val ∉ sysRegsS ++ sysRegsM → st.me.sys.cpl = .s → st.me.opened = [] →
      ∃ t, exec (.srr s d r) st = .next t ∧ TookTrapM st t Code.illop st.me.pc)

/-- SRW writes the defined bits of a system register that is RW, and nothing else (R277 to R279); a read-only one keeps its value. -/
def Sys2Proof.Claims.SystemRegisterWrites : Prop :=
  ∀ (st : State) (s : Fin 4) (r : Fin 1024) (b : Fin 32), (st.me.sys.cpl = .m ∨ (st.me.sys.cpl = .s ∧ needsM (.srw s r b) = false)) →
    st.Reads (nums [b]) → r.val ≠ 0x22 → isSysReg r.val = true → st.sysRefused r.val (st.me.rx b.val) = false →
    let v := st.me.rx b.val
    let p := st.myPart
    let y := st.me.sys
    ∃ t, exec (.srw s r b) st = .next t ∧ WroteSys st t ∧
      (∀ q, q ≠ p → t.part q = st.part q) ∧ (r.val ∉ [1, 0x20, 0x21] → t.parts = st.parts) ∧ (r.val ≠ 0x30 → t.mvec = st.mvec) ∧
      (r.val ∈ [1, 0x20, 0x21, 0x30] → t.me.sys = y) ∧
      (r.val = 2 → t.me.sys = { y with epc := v }) ∧ (r.val = 0x31 → t.me.sys = { y with mepc := v }) ∧
      (r.val = 0x10 → t.me.sys = { y with ssa := v }) ∧ (r.val = 0x11 → t.me.sys = { y with ssb := v }) ∧
      (r.val = 0x12 → t.me.sys = { y with csa := v &&& 0x0000FFFFFFFFF000 }) ∧
      (r.val = 0x30 → t.mvec = v &&& 0x00FFFFFFFFFFF000) ∧
      (r.val = 1 → t.part p = { st.part p with tvec := v &&& 0x00FFFFFFFFFFF000 }) ∧
      (r.val = 0x20 → t.part p = { st.part p with ttb := v &&& 0x00FFFFFFFFFF0000 }) ∧
      (r.val = 0x21 → t.part p = { st.part p with lqopen := v }) ∧
      (r.val = 0 → ∃ l, Level.ofCode (fldW v 2 2) = some l ∧
        (y.cpl = .s → t.me.sys = { y with ppl := l }) ∧
        (y.cpl = .m → ∃ n, Level.ofCode (fldW v 4 2) = some n ∧ t.me.sys = { y with ppl := l, mppl := n })) ∧
      (r.val ∈ [3, 8, 9, 10, 11, 12, 13, 14, 15, 0x32, 0x38, 0x39, 0x3A, 0x3B, 0x3C, 0x3D, 0x3E, 0x3F] → t.me.sys = y)

/-- SRR and SRW (R277, R278). -/
def Obligations.SystemRegisters : Prop := Claims.SystemRegisterReads ∧ Claims.SystemRegisterWrites

/-- TRET of a handler that has not claimed returns to the level and the address that the trap saved, with the cause inactive
and everything else of the thread kept, bricks, masks, scales and links among it, but for the queued words, which go on (R283); CLAIM
with nothing frozen gives 1, and with a frozen vector side that is quiescent sets CLM and gives 0, at S and at M (R282). -/
def Sys2Proof.Claims.HandlerReturn : Prop :=
  ∀ (st : State) (s : Fin 4),
    (st.me.sys.cpl = .s → st.Reads [sysReg 0, sysReg 2] → st.me.sys.ecause.getLsbD 15 = true →
      st.me.sys.ecause.getLsbD 14 = false → st.me.sys.epc.toNat % 4 = 0 →
      ∃ t, exec (.tret s) st = .next t ∧ t.me.sys.cpl = st.me.sys.ppl ∧ t.me.pc = st.me.sys.epc ∧
        t.me.sys.ecause.getLsbD 15 = false ∧ t.me.x = st.me.x ∧ { t.me.still with sys := {}, vq := [] } = { st.me.still with sys := {}, vq := [] } ∧
        t.me.sys = { st.me.sys with cpl := st.me.sys.ppl, ecause := st.me.sys.ecause &&& ~~~0xC000#64 } ∧ st.OnlyMe t) ∧
    (st.me.sys.cpl = .m → st.Reads [sysReg 0, sysReg 0x31] → st.me.sys.mcause.getLsbD 15 = true →
      st.me.sys.mcause.getLsbD 14 = false → st.me.sys.mepc.toNat % 4 = 0 →
      ∃ t, exec (.tret s) st = .next t ∧ t.me.sys.cpl = st.me.sys.mppl ∧ t.me.pc = st.me.sys.mepc ∧
        t.me.sys.mcause.getLsbD 15 = false ∧ t.me.x = st.me.x ∧ { t.me.still with sys := {}, vq := [] } = { st.me.still with sys := {}, vq := [] } ∧
        t.me.sys = { st.me.sys with cpl := st.me.sys.mppl, mcause := st.me.sys.mcause &&& ~~~0xC000#64 } ∧ st.OnlyMe t) ∧
    (∀ d, st.me.sys.cpl ≠ .u → st.me.claimable = false →
      ∃ t, exec (.claim s d) st = .next t ∧ st.WroteReg t d 1 (st.me.pc + 4)) ∧
    (∀ d, st.me.sys.cpl = .s → st.me.claimable = true → st.quiescent st.cur = true →
      ∃ t, exec (.claim s d) st = .next t ∧ st.me.Wrote t.me d 0 ∧ st.me.Passed t.me (st.me.pc + 4) ∧
        t.me.sys = { st.me.sys with ecause := st.me.sys.ecause ||| 0x4000 } ∧ t.me.vq = [] ∧ t.me.claims = resumeWords st.me.vq ∧
        t.me.mclaims = st.me.mclaims) ∧
    ∀ d, st.me.sys.cpl = .m → st.me.claimable = true → st.quiescent st.cur = true →
      ∃ t, exec (.claim s d) st = .next t ∧ st.me.Wrote t.me d 0 ∧ st.me.Passed t.me (st.me.pc + 4) ∧
        t.me.sys = { st.me.sys with mcause := st.me.sys.mcause ||| 0x4000 } ∧ t.me.vq = [] ∧ t.me.mclaims = resumeWords st.me.vq ∧
        t.me.claims = st.me.claims

/-- CLAIM of a frozen vector side that is quiescent writes it to the 80 KiB at CSA + 0x1_4000 (R278, R282), at S and at M, and to no
byte outside them, and leaves every register of the context but xd; TRET of a handler that has claimed, once its own vector
words are done and where the area can be read, loads all of it again, with the words that were queued, and returns (R283). -/
def Sys2Proof.Claims.ClaimAndReturn : Prop :=
  ∀ (st : State) (s : Fin 4), st.me.sys.cpl ≠ .u →
    let base := st.me.sys.csa.toNat + 0x14000
    (∀ d, st.me.claimable = true → st.quiescent st.cur = true →
      ∃ t, exec (.claim s d) st = .next t ∧ ClaimedAt st.me t base ∧
        (∀ a, a < base ∨ base + 0x14000 ≤ a → t.peek a = st.peek a) ∧
        { t.me.still with sys := {}, vq := [], claims := [], mclaims := [] } = { st.me.still with sys := {}, vq := [], claims := [], mclaims := [] } ∧
        ∀ c, c ≠ st.cur → t.ctx c = st.ctx c) ∧
    (st.me.sys.cpl = .s → st.Reads [sysReg 0, sysReg 2] → st.me.sys.ecause.getLsbD 15 = true →
      st.me.sys.ecause.getLsbD 14 = true → st.me.sys.epc.toNat % 4 = 0 → st.me.vq = [] → st.me.opened = [] → st.me.landing = [] →
      st.reclaimFails = none →
      ∃ t, exec (.tret s) st = .next t ∧ LoadedFrom st base t.me ∧ t.me.x = st.me.x ∧ t.me.flags = st.me.flags ∧ t.me.tabs = st.me.tabs ∧
        t.me.pc = st.me.sys.epc ∧ t.me.claims = [] ∧ t.me.vq.length ≤ st.me.claims.length ∧
        t.me.sys = { st.me.sys with cpl := st.me.sys.ppl, ecause := st.me.sys.ecause &&& ~~~0xC000#64 } ∧
        (∀ a, t.peek a = st.peek a) ∧ ∀ c, c ≠ st.cur → t.ctx c = st.ctx c) ∧
    (st.me.sys.cpl = .m → st.Reads [sysReg 0, sysReg 0x31] → st.me.sys.mcause.getLsbD 15 = true →
      st.me.sys.mcause.getLsbD 14 = true → st.me.sys.mepc.toNat % 4 = 0 → st.me.vq = [] → st.me.opened = [] → st.me.landing = [] →
      st.reclaimFails = none →
      ∃ t, exec (.tret s) st = .next t ∧ LoadedFrom st base t.me ∧ t.me.x = st.me.x ∧ t.me.flags = st.me.flags ∧ t.me.tabs = st.me.tabs ∧
        t.me.pc = st.me.sys.mepc ∧ t.me.mclaims = [] ∧ t.me.vq.length ≤ st.me.mclaims.length ∧
        t.me.sys = { st.me.sys with cpl := st.me.sys.mppl, mcause := st.me.sys.mcause &&& ~~~0xC000#64 } ∧
        (∀ a, t.peek a = st.peek a) ∧ ∀ c, c ≠ st.cur → t.ctx c = st.ctx c)

/-- A word that traps at U and whose handler at once returns by TRET leaves the thread where it was: BRK and then TRET give the
level, the pc, every register and every byte of memory that the thread had (R280, R283). -/
def Sys2Proof.Claims.TrapThenReturn : Prop :=
  ∀ (st : State) (s s' : Fin 4) (i : BitVec 10), st.me.sys.cpl = .u → st.me.opened = [] → st.me.pc.toNat % 4 = 0 →
    ∃ t u, exec (.brk s i) st = .next t ∧ exec (.tret s') t = .next u ∧
      u.me.sys.cpl = .u ∧ u.me.pc = st.me.pc ∧ u.me.x = st.me.x ∧ u.me.b = st.me.b ∧ u.me.m = st.me.m ∧ u.me.k = st.me.k ∧
      u.me.ctrl = st.me.ctrl ∧ u.me.flags = st.me.flags ∧ u.me.frozen = false ∧ (∀ c, c ≠ st.cur → u.ctx c = st.ctx c) ∧
      ∀ a, u.peek a = st.peek a

/-- TRET (R283), a trap followed by its return (R280, R283), and CLAIM with the return after it (R282, R283). -/
def Obligations.HandlersAndReturn : Prop := Claims.HandlerReturn ∧ Claims.TrapThenReturn ∧ Claims.ClaimAndReturn

/-! ### Tasks, launches and tokens -/

namespace Sys2Proof.Claims

open Sys2Proof.Machine

/-- No result of the issuing context is still in its latency, so every register reads its new value (07 R165, R166), and no scalar
register of it lies in a failed slot (18 R345). -/
def Settled (st : State) : Prop :=
  (∀ h ∈ st.me.shadow, h.due ≤ st.me.pos ∨ h.reg = 0) ∧ ∀ x ∈ st.badCells, x.1 = 4 → x.2.1 ≠ st.cur

/-- x8 to x15 as a record (08 R197). -/
def recordOf (k : Ctx) : Rec8 := ⟨k.rx 8, k.rx 9, k.rx 10, k.rx 11, k.rx 12, k.rx 13, k.rx 14, k.rx 15⟩

/-- The launch of the issuing thread is not cancelled (02 R37). -/
def Live (st : State) : Prop :=
  (tget ({} : Launch) (st.part (st.partOf (coreOf st.cur))).launches (st.myLid % 2 ^ 32)).cancelled = false

/-- Nothing outside the issuing context and its core has changed. -/
structure Elsewhere (st t : State) : Prop where
  ctxs : ∀ c, c ≠ st.cur → t.ctx c = st.ctx c
  cores : ∀ c, c ≠ coreOf st.cur → t.core c = st.core c
  rest : { t with ctxs := st.ctxs, cores := st.cores } = st

/-- The issuing context has written v to xd and gone on at pc + 4; nothing else of it has changed but what `k` leaves out. -/
def Answered (st t : State) (d : Fin 32) (v : Word) (k : Ctx → Ctx) : Prop :=
  st.me.Wrote t.me d v ∧ st.me.Passed t.me (st.me.pc + 4) ∧ k t.me.still = k st.me.still

/-- A push to the issuing thread's own core: the destination of its status. -/
def pushForm (st : State) : Instr → Option (Fin 32)
  | .qpush _ d => some d
  | .qpushC _ d a =>
    if (st.me.rx a.val).toNat = coreOf st.cur ∧ coreOf st.cur ∈ st.coresOf st.myPart ∧ (st.core (coreOf st.cur)).halting = false ∧
      (st.core (coreOf st.cur)).halted = false then some d else none
  | _ => none

/-- Whether the core has room for one more record: in its queue, or in its ring (16 R308). -/
def Room (st : State) (c : Nat) : Prop :=
  ((st.core c).ring = [] ∧ (st.core c).queue.length < 32) ∨ (st.core c).ring.length < st.ringSize c ∨
    ((st.core c).queue.length < 32 ∧ (st.core c).queue.length + (st.core c).ring.length < 32 + st.ringSize c)

/-- A record that QPOP of the issuing thread takes (08 R198): pushed, of its launch, and not lent. -/
def mine (st : State) (e : QEntry) : Prop := e.r.gen = false ∧ e.r.lid = st.myLid ∧ e.lent = none

/-- A dword of a join block (02 R35), from the last values of its bytes. -/
def lastDword (st : State) (pas : List Nat) (i : Nat) : Word :=
  BitVec.ofNat 64 (leNat (((pas.drop (8 * i)).take 8).map fun p => (st.last p).val))

/-- What LNCH reads (16 R298, R299, R312): the descriptor at a, its windows, its grid and its gang's members, and the machine
that has read them. -/
structure LaunchRead (st : State) (a : Word) (desc : Rec8) (win : List Word) (g : Nat × Nat × Nat) (ms : List Nat) (u : State) : Prop where
  ready : st.quiet = true ∧ st.fenced = false ∧ st.badLines = [] ∧ st.deadChannels = []
  read : ∃ l u1 u2, st.fetchDwords a 8 = .vals l u1 ∧ desc = Rec8.ofList l ∧
    (if desc.d5 = 0 then win = [] ∧ u2 = u1 else u1.fetchDwords desc.d5 16 = .vals win u2) ∧
    (if desc.d6.getLsbD 33 then
      desc.d7.toNat % 8 = 0 ∧ g = (fldW desc.d2 0 32, fldW desc.d2 32 32, fldW desc.d3 0 32) ∧
      ∃ h m u3 n, u2.fetchDwords desc.d7 1 = .vals h u3 ∧ n = fldW (h.getD 0 0) 0 11 ∧ 2 ≤ n ∧ n ≤ 1024 ∧
        u3.fetchDwords (desc.d7 + 8) ((n + 3) / 4) = .vals m u ∧ ms = gangMembers n m ∧ u.badGang ms = false
     else ms = [] ∧ if desc.d2 ≠ 0 then g = (fldW desc.d2 0 32, fldW desc.d2 32 32, fldW desc.d3 0 32) ∧ u = u2
       else ∃ k, u2.fetchDwords (desc.d7 + 8) 2 = .vals k u ∧
         g = (fldW (k.getD 0 0) 0 32, fldW (k.getD 0 0) 32 32, fldW (k.getD 1 0) 0 32) ∧ badGrid g.1 g.2.1 g.2.2 = false) ∧
    ∃ pas, u1.probeRW u1.me.sys.cpl desc.d4 8 = .inl pas
  legal : badDescriptor desc = false ∧ badWindows win = false

/-- HCAN and HCNT: the destination, the operand, the level. -/
def cancelForm : Instr → Option (Fin 32 × Fin 32 × LevelKind)
  | .hcanL _ d a => some (d, a, .launch) | .hcanG _ d a => some (d, a, .graph)
  | .hcanP _ d a => some (d, a, .phase) | .hcanJ _ d a => some (d, a, .job)
  | _ => none
def countForm : Instr → Option (Fin 32 × Fin 32 × LevelKind)
  | .hcntL _ d a => some (d, a, .launch) | .hcntG _ d a => some (d, a, .graph)
  | .hcntP _ d a => some (d, a, .phase) | .hcntJ _ d a => some (d, a, .job)
  | _ => none

/-- The slot that a token of 02 R38 names. -/
def slotOf (st : State) (v : Word) : Slot := st.slot (fldW v 6 8) (fldW v 0 6)

/-- A token that is not refused, and names an operation that its slot still holds (02 R38, R39). -/
def Fresh (st : State) (v : Word) : Prop :=
  st.badToken v = false ∧ (slotOf st v).gen = fldW v 14 24 ∧ (slotOf st v).st ≠ .free

/-- The waits' results for a terminal state (08 R203). -/
def endCode : SlotState → Word
  | .done => 0 | .faulted => 1 | _ => 2

/-- A wait has reported a slot (02 R42): one that is DONE is released, any other keeps its state. -/
def reportedSlot (x : Slot) : Slot := if x.st = .done then { x with st := .free, owner := none, detached := false, adopted := false, saved := false } else x

/-- Every slot but those of a list, with their cores, is as before. -/
def SlotsKept (st t : State) (l : List (Nat × Nat)) : Prop := ∀ c i, (c, i) ∉ l → t.slot c i = st.slot c i

/-- The cores are as before but for the translations that their buffers hold. -/
def CoresKept (st t : State) : Prop := ∀ c, { t.core c with tlb := [] } = { st.core c with tlb := [] }

/-- A continuation that the issuing thread has pushed onto its core (02 R35): the record of the join block at `pas`, CODE[1:0] and the
reserved bits clear, stamped with the thread's LID, priority, count of stores and clock, in the queue or in the join buffer. -/
def Continued (st t : State) (pas : List Nat) : Prop :=
  let c := coreOf st.cur
  ∃ e : QEntry, (((t.core c).fifo = (st.core c).fifo ++ [e] ∧ (t.core c).joinBuf = (st.core c).joinBuf) ∨
      ((t.core c).fifo = (st.core c).fifo ∧ (t.core c).joinBuf = (st.core c).joinBuf ++ [e])) ∧
    e.prod = st.cur ∧ e.wic = st.me.wic ∧ e.clock = t.me.clock ∧ e.lent = none ∧
    e.r.d0 = lastDword st pas 1 &&& ~~~3#64 ∧ e.r.d3 = pushedDword (lastDword st pas 4) st.myLid st.myPri ∧
    ∀ j ∈ [1, 2, 4, 5, 6, 7], e.r.dw j = lastDword st pas (1 + j)

/-- A slot whose operation stays with its launch after the thread has ended (02 R46): one that runs is ORPHANED. -/
def leftSlot (x : Slot) : Slot :=
  if x.st.terminal then { x with owner := none } else { x with left := x.st, st := .orphaned, owner := none }

/-- The clock and what the thread has read are left out. -/
def noClock (k : Ctx) : Ctx := { k with clock := {}, looseFrom := 0 }
def noSeen (k : Ctx) : Ctx := { k with clock := {}, seen := [], looseSeen := [], looseFrom := 0 }
def noPtr (k : Ctx) : Ctx := { k with clock := {}, looseFrom := 0, sptr := 0 }

end Sys2Proof.Claims

/-- QPUSH, and QPUSH.C to the thread's own core (R197): the record of x8 to x15, stamped with its pusher's LID, priority, count of
stores and clock (R28, R33, R34), goes to the tail of the core's FIFO order (R308) and xd gets 0; one of a cancelled launch is discarded (R37); with no
room it goes nowhere and xd gets 1. QPUSH.C to another core sends the record, and the word waits for the status, which is the model's
choice (log entry 24). -/
def Sys2Proof.Claims.TaskPush : Prop :=
  (∀ (i : Instr) (d : Fin 32) (st : State), pushForm st i = some d → Settled st → badRecord (recordOf st.me) = false →
    st.me.fences = [] →
    let c := coreOf st.cur
    let gone := st.discards c (st.stamped (recordOf st.me))
    (gone = true → Room st c → ∃ t, exec i st = .next t ∧ st.WroteReg t d 0 (st.me.pc + 4)) ∧
    (gone = false → Room st c → ∃ t, exec i st = .next t ∧ (t.core c).fifo = (st.core c).fifo ++ [st.stamped (recordOf st.me)] ∧
      { t.core c with queue := [], ring := [] } = { st.core c with queue := [], ring := [] } ∧
      Answered st t d 0 id ∧ Elsewhere st t) ∧
    (¬ Room st c → ∃ t, exec i st = .next t ∧ st.WroteReg t d 1 (st.me.pc + 4))) ∧
  ∀ (s : Fin 4) (d a : Fin 32) (st : State), Settled st → badRecord (recordOf st.me) = false → st.me.fences = [] →
    let c := (st.me.rx a.val).toNat
    c ∈ st.coresOf st.myPart → c ≠ coreOf st.cur → (st.core c).halting = false → (st.core c).halted = false →
    ∃ t, exec (.qpushC s d a) st = .next t ∧ t.travel = st.travel ++ [⟨st.cur, d, c, st.stamped (recordOf st.me), st.nextOrder, false⟩] ∧
      t.me.wait = some (.push d st.nextOrder) ∧ t.me.pc = st.me.pc ∧ t.me.x = st.me.x ∧ t.cores = st.cores ∧
      ∀ k, k ≠ st.cur → t.ctx k = st.ctx k

/-- QPOP and QTRY (R198): the first record of the FIFO order that is pushed, of the thread's launch and not lent, once its stamp
is met, leaves the order and comes in x8 to x15 with its clock, as by an acquire load (R34); QTRY gives 0 in xd. With none, QTRY gives 1
and QPOP waits. That QTRY's status wins where xd is among x8 to x15 is the model's choice (log entry 107). -/
def Sys2Proof.Claims.TaskPop : Prop :=
  ∀ (st : State) (s : Fin 4) (d : Fin 32),
    let c := coreOf st.cur
    (∀ (pre post : List QEntry) (e : QEntry), (st.core c).fifo = pre ++ e :: post → (∀ x ∈ pre, ¬ mine st x) → mine st e →
      st.ackedTo e.prod e.wic = true →
      (∃ t, exec (.qpop s) st = .next t ∧ (t.core c).fifo = pre ++ post ∧
        (∀ r : Fin 32, t.me.rx r.val = if 8 ≤ r.val ∧ r.val < 16 then e.r.dw (r.val - 8) else st.me.rx r.val) ∧
        t.me.clock = st.me.clock.join e.clock ∧ t.me.looseFrom = st.time ∧ t.me.holds = true ∧ st.me.Passed t.me (st.me.pc + 4) ∧ Elsewhere st t) ∧
      ∃ t, exec (.qtry s d) st = .next t ∧ (t.core c).fifo = pre ++ post ∧
        (∀ r : Fin 32, t.me.rx r.val = if r = d ∧ r ≠ 0 then 0 else if 8 ≤ r.val ∧ r.val < 16 then e.r.dw (r.val - 8)
          else st.me.rx r.val) ∧
        t.me.clock = st.me.clock.join e.clock ∧ t.me.looseFrom = st.time ∧ t.me.holds = true ∧ st.me.Passed t.me (st.me.pc + 4) ∧ Elsewhere st t) ∧
    ((∀ x ∈ (st.core c).fifo, ¬ mine st x) →
      (∃ t, exec (.qpop s) st = .next t ∧ t.me.wait = some .pop ∧ t.me.holds = true ∧ t.me.pc = st.me.pc ∧ t.me.x = st.me.x ∧
        t.cores = st.cores) ∧
      ∃ t, exec (.qtry s d) st = .next t ∧ Answered st t d 1 (fun k => { k with holds := true }) ∧ t.me.holds = true ∧
        t.cores = st.cores)

/-- The words that put records into task queues and take them out (R196 to R198). -/
def Obligations.TaskQueueWords : Prop := Claims.TaskPush ∧ Claims.TaskPop

/-- JOIN (R199, R35) on a join block whose counter is n: 0 gives 2 and writes nothing; otherwise the counter becomes n − 1, and
at 0 the block's record is pushed, CODE[1:0] cleared and stamped by the joiner, and xd gets 1. The record is to be reachable whatever the
counter holds, which is the model's choice (log entry 101). -/
def Obligations.JoinWord : Prop :=
  ∀ (st : State) (s : Fin 4) (d a : Fin 32) (pas : List Nat), Settled st → (st.me.rx a.val).toNat % 8 = 0 →
    st.probeJoin (st.me.rx a.val) = .inl pas → pas.Nodup → Sound st (st.me.rx a.val) pas →
    Walks st (st.me.rx a.val) 72 → st.performed = true →
    st.joinRoom (coreOf st.cur) = true → st.atomicServable pas = true →
    Live st →
    let n := leNat ((pas.take 8).map fun p => (st.last p).val)
    (n = 0 → ∃ t, exec (.join s d a) st = .next t ∧ st.me.Wrote t.me d 2 ∧ st.me.Passed t.me (st.me.pc + 4) ∧
      (∀ p, t.peek p = st.peek p) ∧ CoresKept st t) ∧
    (n ≠ 0 → ∃ t, exec (.join s d a) st = .next t ∧ st.me.Wrote t.me d (if n = 1 then 1 else 0) ∧
      st.me.Passed t.me (st.me.pc + 4) ∧ (pas.take 8).map t.peek = leBytes 8 (n - 1) ∧
      (∀ p, p ∉ pas.take 8 → t.peek p = st.peek p) ∧ (∀ k, k ≠ st.cur → t.ctx k = st.ctx k) ∧
      (n ≠ 1 → CoresKept st t) ∧ (n = 1 → Continued st t pas))

/-- EARLY lets the successor of the thread's launch begin (R49, R200); PWAIT gives the STAT of its predecessor once that is
complete, with its stores, as by an acquire load, and 0 when there is none; until then it waits (R50, R200). -/
def Obligations.EarlyAndPwait : Prop :=
  ∀ (st : State) (s : Fin 4) (d : Fin 32) (th : Thread), st.me.thread = some th →
    let l := st.launch th.part th.lid
    (∃ t, exec (.early s) st = .next t ∧ t.launch th.part th.lid = { l with early := true } ∧
      (∀ p i, (p ≠ th.part ∨ i ≠ th.lid) → t.launch p i = st.launch p i) ∧ Answered st t 0 0 id ∧ t.cores = st.cores ∧
      ∀ b, t.peek b = st.peek b) ∧
    (l.pred = none → l.predStat = 0 → ∃ t, exec (.pwait s d) st = .next t ∧ st.WroteReg t d 0 (st.me.pc + 4)) ∧
    (l.pred = none → l.predStat ≠ 0 → ∃ t, exec (.pwait s d) st = .next t ∧ Answered st t d (BitVec.ofNat 64 l.predStat) noClock ∧
      t.me.clock = st.me.clock.join l.predClock ∧ t.me.looseFrom = st.time ∧ st.OnlyMe t) ∧
    (l.pred ≠ none → exec (.pwait s d) st = .next (st.block s (.pwait d)))

/-- END (R30, R31, R193), once its waits hold: the launch's completion word takes the sticky flags, and bit 7 for an attached
operation that faulted unread; a task with a join block ORs the same flags into it and joins: its counter, where it is not 0, counts down,
and at 1 its record is pushed (R35). The context is then free; its slots are released, but those of detached operations, which keep them
and stay with the launch: ORPHANED while they run (R46). -/
def Obligations.EndWord : Prop :=
  ∀ (st : State) (s : Fin 4) (th : Thread) (cw pas : List Nat), st.me.thread = some th → st.endReady = true →
    st.probeRW (st.launchOf st.cur).level (st.launchOf st.cur).cword 8 = .inl cw →
    (th.r.d2 ≠ 0 → th.r.d2.toNat % 8 = 0 ∧ st.probeRW st.me.sys.cpl th.r.d2 80 = .inl pas) → (th.r.d2 = 0 → pas = []) →
    (cw ++ pas).Nodup → Sound st (st.launchOf st.cur).cword cw → Sound st th.r.d2 pas → Live st → (st.launchOf st.cur).cancelled = false →
    Walks st (st.launchOf st.cur).cword 8 → Walks st th.r.d2 80 →
    st.atomicServable cw = true → st.atomicAfter cw pas = true → ((st.ownSlots st.cur).map fun e => (e.1, e.2.1)).Nodup →
    let fl := st.me.allFlags.toNat + if (st.ownSlots st.cur).any (fun e => !e.2.2.detached && e.2.2.st = .faulted) then 128 else 0
    let orFlags := fun (l : List Nat) => leBytes 8 (leNat (l.map fun p => (st.last p).val) ||| fl)
    ∃ t, exec (.endTask s) st = .next t ∧ t.me.thread = none ∧ t.me.prev = some (th.part, th.lid) ∧ t.me.sys.cpl = .u ∧
      t.me.flags = [] ∧ cw.map t.peek = orFlags cw ∧
      (th.r.d2 ≠ 0 → (pas.drop 72).map t.peek = orFlags (pas.drop 72) ∧
        let n := leNat ((pas.take 8).map fun p => (st.last p).val)
        (pas.take 8).map (fun p => (t.last p).val) = leBytes 8 (n - 1) ∧
        (n = 1 → Continued st t pas) ∧
        (n ≠ 1 → (t.core (coreOf st.cur)).fifo = (st.core (coreOf st.cur)).fifo ∧
          (t.core (coreOf st.cur)).joinBuf = (st.core (coreOf st.cur)).joinBuf)) ∧
      (∀ p, p ∉ cw → p ∉ pas.take 8 → p ∉ pas.drop 72 → t.peek p = st.peek p) ∧ (∀ c, c ≠ st.cur → t.ctx c = st.ctx c) ∧
      ∀ c i x, (c, i, x) ∈ st.ownSlots st.cur →
        t.slot c i = if (st.slot c i).detached then leftSlot (st.slot c i)
          else { st.slot c i with st := .free, owner := none, detached := false, adopted := false, saved := false }

/-- LNCH (R201, R299 to R301): a launch with its descriptor, windows and grid as they were read, the level and the clock of its
maker, and the queue's job and predecessor, enters the queue under a new id, which xd gets; a queue that accepts nothing gives
all ones. A queue not open at U traps PRIV. -/
def Obligations.LaunchWord : Prop :=
  ∀ (st : State) (s : Fin 4) (d a b : Fin 32), Settled st →
    let p := st.myPart
    let q := (st.me.rx b.val).toNat
    (∀ (desc : Rec8) (win : List Word) (g : Nat × Nat × Nat) (ms : List Nat) (u : State),
      q < 64 → (st.me.sys.cpl = .u → (st.part p).lqopen.getLsbD q = true) → (st.me.rx a.val).toNat % 64 = 0 →
      LaunchRead st (st.me.rx a.val) desc win g ms u →
      (u.accepts p q = true →
        let lid := st.nextLid p 1030 (st.part p).nextId
        ∃ t, exec (.lnch s d a b) st = .next t ∧ st.me.Wrote t.me d (BitVec.ofNat 64 lid) ∧ st.me.Passed t.me (st.me.pc + 4) ∧
          (t.launch p lid).desc = desc ∧ (t.launch p lid).windows = win ∧ (t.launch p lid).level = st.me.sys.cpl ∧
          ((t.launch p lid).gx, (t.launch p lid).gy, (t.launch p lid).gz) = g ∧ (t.launch p lid).queue = q ∧
          (t.launch p lid).clock = u.me.clock ∧ (t.launch p lid).moment = st.time ∧ (t.launch p lid).job = (tget 0 (st.part p).qjob q).toNat ∧
          (t.launch p lid).pred = (if thas (st.part p).lastInQueue q then some (tget 0 (st.part p).lastInQueue q) else none) ∧
          (t.launch p lid).made = 0 ∧ (t.launch p lid).stat = 0 ∧ (t.launch p lid).done = false ∧
          ((t.launch p lid).gang.map (·.members) = if ms = [] then none else some ms) ∧
          (∀ i, i ≠ lid → t.launch p i = st.launch p i) ∧ (∀ c, c ≠ st.cur → t.ctx c = st.ctx c) ∧ CoresKept st t ∧
          ∀ x, t.peek x = st.peek x) ∧
      (u.accepts p q = false → ∃ t, exec (.lnch s d a b) st = .next t ∧ st.me.Wrote t.me d (BitVec.allOnes 64) ∧
        st.me.Passed t.me (st.me.pc + 4) ∧ t.parts = st.parts)) ∧
    (q < 64 → st.me.sys.cpl = .u → st.me.opened = [] → (st.part p).lqopen.getLsbD q = false →
      ∃ t, exec (.lnch s d a b) st = .next t ∧ st.TookTrap t Code.priv st.me.pc)

/-- HCAN and HCNT (R202, R36, R37): a level of another job, and for HCAN a phase or a job, is PRIV at U. HCNT gives the level's
counter. HCAN gives 1 for a level that does not exist; else it cancels every launch of the level, whose records and images go
at once, and gives 0, or ends the thread when the level holds it. -/
def Obligations.LevelWords : Prop :=
  (∀ (i : Instr) (d a : Fin 32) (k : LevelKind) (st : State), countForm i = some (d, a, k) → Settled st →
    let n := st.levelOf k (st.me.rx a.val)
    (st.levelPriv st.myPart n false = false → ∃ t, exec i st = .next t ∧
      st.WroteReg t d (BitVec.ofNat 64 (st.levelCount st.myPart n)) (st.me.pc + 4)) ∧
    (st.levelPriv st.myPart n false = true → st.me.opened = [] →
      ∃ t, exec i st = .next t ∧ st.TookTrap t Code.priv st.me.pc)) ∧
  ∀ (i : Instr) (d a : Fin 32) (k : LevelKind) (st : State), cancelForm i = some (d, a, k) → Settled st →
    let p := st.myPart
    let n := st.levelOf k (st.me.rx a.val)
    (st.levelPriv p n true = true → st.me.opened = [] → ∃ t, exec i st = .next t ∧ st.TookTrap t Code.priv st.me.pc) ∧
    (st.levelPriv p n true = false → st.levelExists p n = false →
      ∃ t, exec i st = .next t ∧ st.WroteReg t d 1 (st.me.pc + 4)) ∧
    (st.levelPriv p n true = false → st.levelExists p n = true →
      ∃ t, exec i st = .next t ∧ (∀ l ∈ st.levelLaunches p n, (t.launch p l).cancelled = true) ∧
        (∀ l ∈ st.levelLaunches p n, (∀ c ∈ st.coresOf p, ∀ e ∈ (t.core c).fifo ++ (t.core c).joinBuf, e.r.lid ≠ l) ∧
          ∀ im ∈ (t.part p).images, im.lid ≠ l) ∧
        (st.levelHolds n = true → t.me.thread = none) ∧
        (st.levelHolds n = false → st.me.Wrote t.me d 0 ∧ st.me.Passed t.me (st.me.pc + 4) ∧ t.me.thread = st.me.thread))

/-- The waits on tokens (R203 to R205, R42): TWAIT on an operation of the thread that is terminal gives 0, 1 or 2; TWAIT.ANY gives
the first terminal slot of the mask, and TFFR the first after its pointer, which it sets; both give 65 when the mask holds
no operation of the thread; TWAIT.ALL gives 1 when any is not DONE. Each slot reported DONE is released. While
nothing can be reported, the thread waits. -/
def Sys2Proof.Claims.TokenWaits : Prop :=
  ∀ (st : State) (s : Fin 4) (d a b : Fin 32), Settled st →
    let v := st.me.rx a.val
    let here := coreOf st.cur
    (Fresh st v → st.ownsSlot (slotOf st v) = true →
      ((slotOf st v).st.terminal = true → ∃ t, exec (.twait s d a b) st = .next t ∧
        Answered st t d (endCode (slotOf st v).st) noClock ∧ t.me.clock = st.me.clock.join (slotOf st v).clock ∧
        t.me.looseFrom = st.time ∧ slotOf t v = reportedSlot (slotOf st v) ∧ SlotsKept st t [(fldW v 6 8, fldW v 0 6)]) ∧
      ((slotOf st v).st.terminal = false →
        exec (.twait s d a b) st = .next (st.block s (.token d (fldW v 6 8) (fldW v 0 6) (fldW v 14 24) (st.me.rx b.val))))) ∧
    (st.masked v = [] → (∃ t, exec (.twaitAny s d a b) st = .next t ∧ st.WroteReg t d 65 (st.me.pc + 4)) ∧
      ∃ t, exec (.tffr s d a b) st = .next t ∧ st.WroteReg t d 65 (st.me.pc + 4)) ∧
    (∀ i l, st.maskedEnded v = i :: l →
      (∃ t, exec (.twaitAny s d a b) st = .next t ∧ Answered st t d (BitVec.ofNat 64 i) noClock ∧
        t.slot here i = reportedSlot (st.slot here i) ∧ SlotsKept st t [(here, i)]) ∧
      ∃ t j, exec (.tffr s d a b) st = .next t ∧ Answered st t d (BitVec.ofNat 64 j) noPtr ∧ t.me.sptr = j ∧
        (i :: l).find? (st.me.sptr < ·) = (if st.me.sptr < j then some j else none) ∧ j ∈ i :: l ∧
        (j ≤ st.me.sptr → j = i) ∧ t.slot here j = reportedSlot (st.slot here j) ∧ SlotsKept st t [(here, j)]) ∧
    (st.masked v ≠ [] → st.maskedEnded v = [] →
      exec (.twaitAny s d a b) st = .next (st.block s (.any d v (st.me.rx b.val))) ∧
      exec (.tffr s d a b) st = .next (st.block s (.ffr d v (st.me.rx b.val)))) ∧
    (((st.masked v).all fun e => e.2.st.terminal) = true → ∃ t, exec (.twaitAll s d a b) st = .next t ∧
      Answered st t d (if (st.masked v).any (fun e => e.2.st ≠ .done) then 1 else 0) noClock ∧
      (∀ e ∈ st.masked v, (st.slot here e.1).st = .done → (t.slot here e.1).st = .free) ∧
      SlotsKept st t ((st.masked v).map fun e => (here, e.1))) ∧
    (((st.masked v).all fun e => e.2.st.terminal) = false →
      exec (.twaitAll s d a b) st = .next (st.block s (.all d v (st.me.rx b.val))))

/-- A token is stale once its slot is free or of another generation (R39): TWAIT then traps TOKEN_STALE with the token's fields in
the record, and the other words on tokens answer that they found nothing, and change nothing (R206, R207). -/
def Sys2Proof.Claims.StaleTokens : Prop :=
  ∀ (st : State) (s : Fin 4) (d a b : Fin 32), Settled st → st.badToken (st.me.rx a.val) = false →
    (slotOf st (st.me.rx a.val)).gen ≠ fldW (st.me.rx a.val) 14 24 ∨ (slotOf st (st.me.rx a.val)).st = .free →
    (st.me.sys.cpl = .u → st.me.opened = [] → ∃ t, exec (.twait s d a b) st = .next t ∧ st.TookTrap t Code.tokenStale st.me.pc ∧
      t.me.sys.frec.d3 = st.me.rx a.val) ∧
    (∀ i ∈ [Instr.tcan s d a, .tdet s d a, .tadopt s d a], ∃ t, exec i st = .next t ∧ st.WroteReg t d 1 (st.me.pc + 4)) ∧
    ∃ t, exec (.tstat s d a) st = .next t ∧ st.WroteReg t d 7 (st.me.pc + 4)

/-- The waits on tokens, and stale tokens (R203 to R207, R39, R42). -/
def Obligations.TokenWords : Prop := Claims.TokenWaits ∧ Claims.StaleTokens

/-- TCAN, TDET, TADOPT and TSTAT (R206, R207, R46, R41): on an operation of the thread's job TCAN ends one that is not terminal, an
ORPHANED one among them, CANCELLED with code 00 in its record; TDET detaches one of the thread's own that runs; TADOPT takes over one that is detached or orphaned; TSTAT
gives the state, progress and the head of the record of a slot, and for one FAULTED or CANCELLED the record in x24 to x31; a
terminal slot of the thread's own is released. On an operation of another job TCAN and TADOPT give 1 and TSTAT 7, and nothing changes. That
TSTAT's summary wins where xd is among x24 to x31 is the model's choice (log entry 107). -/
def Sys2Proof.Claims.TokenControl : Prop :=
  ∀ (st : State) (s : Fin 4) (d a : Fin 32), Settled st → Fresh st (st.me.rx a.val) →
    let v := st.me.rx a.val
    let x := slotOf st v
    (x.op.job = st.myJob ∧ x.op.part = st.myPart →
      (x.st.terminal = false → x.st ≠ .parked → (x.owner ≠ none ∨ x.detached = true ∨ x.saved = true ∨ x.st = .orphaned) →
        ∃ t, exec (.tcan s d a) st = .next t ∧
        st.me.Wrote t.me d 0 ∧ st.me.Passed t.me (st.me.pc + 4) ∧ (slotOf t v).st = .cancelled ∧
        fldW (slotOf t v).frec.d0 0 8 = 0 ∧ fldW (slotOf t v).frec.d0 8 8 = x.op.kind.code ∧ (slotOf t v).owner = x.owner) ∧
      (x.st.terminal = true ∨ x.st = .parked → ∃ t, exec (.tcan s d a) st = .next t ∧ st.WroteReg t d 1 (st.me.pc + 4)) ∧
      (x.detached = true ∨ x.st = .orphaned → x.st ≠ .parked → ∃ t, exec (.tadopt s d a) st = .next t ∧
        st.me.Wrote t.me d 0 ∧ st.me.Passed t.me (st.me.pc + 4) ∧ (slotOf t v).owner = some st.cur ∧
        (slotOf t v).detached = false ∧ (slotOf t v).op.lid = st.myLid ∧
        (slotOf t v).st = (if x.st = .orphaned then x.left else x.st) ∧ SlotsKept st t [(fldW v 6 8, fldW v 0 6)]) ∧
      ∃ t, exec (.tstat s d a) st = .next t ∧ st.me.Passed t.me (st.me.pc + 4) ∧
        (∀ r : Fin 32, t.me.rx r.val = if r = d ∧ r ≠ 0 then BitVec.ofNat 64 (x.prog % 2 ^ 32 * 2 ^ 32 + fldW x.frec.d2 32 16 * 2 ^ 16 +
            fldW x.frec.d0 0 8 * 2 ^ 8 + fldW x.frec.d0 16 4 * 2 ^ 4 + x.st.code)
          else if (x.st = .faulted ∨ x.st = .cancelled) ∧ 24 ≤ r.val then x.frec.dw (r.val - 24) else st.me.rx r.val) ∧
        (st.ownsSlot x = true → x.st.terminal = true → (slotOf t v).st = .free) ∧
        (st.ownsSlot x = false ∨ x.st.terminal = false → slotOf t v = x) ∧ SlotsKept st t [(fldW v 6 8, fldW v 0 6)]) ∧
    (¬ (x.op.job = st.myJob ∧ x.op.part = st.myPart) →
      (∀ i ∈ [Instr.tcan s d a, .tadopt s d a], ∃ t, exec i st = .next t ∧ st.WroteReg t d 1 (st.me.pc + 4)) ∧
      ∃ t, exec (.tstat s d a) st = .next t ∧ st.WroteReg t d 7 (st.me.pc + 4)) ∧
    (st.ownsSlot x = true → x.detached = false → x.st.terminal = false → ∃ t, exec (.tdet s d a) st = .next t ∧
      Answered st t d 0 id ∧ slotOf t v = { x with detached := true } ∧ SlotsKept st t [(fldW v 6 8, fldW v 0 6)]) ∧
    (st.ownsSlot x = false ∨ x.detached = true ∨ x.st.terminal = true →
      ∃ t, exec (.tdet s d a) st = .next t ∧ st.WroteReg t d 1 (st.me.pc + 4))

/-- WCH waits until every chunk of its range is set, and TCH tells whether one is (R208, R132); a range that is empty or
passes chunk 6,143, and a reserved bit, are illegal operands. -/
def Sys2Proof.Claims.ChunkWords : Prop :=
  ∀ (st : State) (s : Fin 4) (d a b : Fin 32), Settled st →
    let v := st.me.rx a.val
    let first := fldW v 0 13
    let n := fldW v 16 13
    let bits := (st.core (coreOf st.cur)).chunks
    let bad := fldW v 13 3 ≠ 0 ∨ fldW v 29 35 ≠ 0 ∨ n = 0 ∨ 6144 < first + n
    (¬ bad → (∀ i, i < n → bits.getLsbD (first + i) = true) → ∃ t, exec (.wch s d a b) st = .next t ∧
      Answered st t d 0 noSeen ∧ st.OnlyMe t) ∧
    (¬ bad → ∀ i, i < n → bits.getLsbD (first + i) = false →
      exec (.wch s d a b) st = .next (st.block s (.chunks d first n (st.me.rx b.val)))) ∧
    (bad → st.me.sys.cpl = .u → st.me.opened = [] → ∃ t, exec (.wch s d a b) st = .next t ∧ st.TookTrap t Code.illop st.me.pc) ∧
    (v.toNat < 6144 → ∃ t, exec (.tch s d a) st = .next t ∧ Answered st t d (if bits.getLsbD v.toNat then 1 else 0) noSeen ∧
      st.OnlyMe t) ∧
    (6144 ≤ v.toNat → st.me.sys.cpl = .u → st.me.opened = [] →
      ∃ t, exec (.tch s d a) st = .next t ∧ st.TookTrap t Code.illop st.me.pc)

/-- The words that govern a child operation, and those on the chunk map (R206 to R208). -/
def Obligations.TokenControlAndChunks : Prop := Claims.TokenControl ∧ Claims.ChunkWords

/-! ### Threads, cores and partitions -/

namespace Sys2Proof.Claims

open Sys2Proof.Machine

/-- Whether TLBI of a kind, by a partition and an address, removes a cached translation (15 R285). -/
def dropped (kind p : Nat) (va : Word) (x : Tlb) : Prop :=
  match kind with
  | 0 => x.part = p ∧ x.base ≤ va.toNat ∧ va.toNat < x.base + x.size
  | 1 => x.part = p
  | _ => True

/-- A dword of an area at a physical address (18 R340). -/
def areaDword (st : State) (pa : Nat) : Word := BitVec.ofNat 64 (leNat ((List.range 8).map fun i => st.peek (pa + i)))

/-- The cores of the quads of a mask (01 R19). -/
def quadCores (m : BitVec 40) (c : Nat) : Prop := c < 160 ∧ m.getLsbD (c / 4) = true

/-- The context that runs CONFIG's firmware, which a composition made there leaves as it is (19 R357). -/
def firmware (st : State) (k : Nat) : Prop := st.woad.boot = .config ∧ k = 0

/-- A core that has changed partitions holds nothing of what it held (19 R354); that its contexts hold none of their registers is the
model's reading of it (DEDUCED, log entry 68). -/
structure Clean (st t : State) (c : Nat) : Prop where
  queues : (t.core c).queue = [] ∧ (t.core c).ring = [] ∧ (t.core c).joinBuf = []
  slots : ∀ i, i < 64 → (t.slot c i).st = .free
  chunks : (t.core c).chunks = BitVec.allOnes 6144
  bytes : ∀ o, o < 0x400000 → t.peek (windowAddr c o) = 0
  ctxs : ∀ k, k / 4 = c → ¬ firmware st k → (t.ctx k).thread = none ∧ (t.ctx k).vq = [] ∧ (t.ctx k).x = [] ∧ (t.ctx k).b = []

/-- Whether a park of partition p is complete as it is asked for (15 R291): no thread but the issuer is resident, and no operation
runs; those that wait are PARKED at once. -/
def parksAtOnce (st : State) (p : Nat) : Prop :=
  (∀ x ∈ st.residents p, x = st.cur) ∧
    ∀ c ∈ st.coresOf p, ∀ e ∈ (st.core c).slots, e.2.pending = true → e.2.st = .parked ∨ e.2.phase = .waiting

end Sys2Proof.Claims

/-- TLBI (R285), once no access that holds a translation is under way: the cached translations of the page, of the partition or,
at M, of everything are gone from its cores, all others stay, and xd gets 0. SEQR (R293) gives the last sequence number of a
unit of a core, at S of the partition's own cores only. -/
def Obligations.TranslationAndSequence : Prop :=
  ∀ (st : State) (s : Fin 4) (d a b : Fin 32), Settled st →
    (let v := st.me.rx b.val
     let kind := fldW v 0 2
     fldW v 2 62 = 0 → kind ≠ 3 → (st.me.sys.cpl = .m ∨ (st.me.sys.cpl = .s ∧ kind ≠ 2)) →
     let cs := if kind = 2 then List.range 160 else st.coresOf st.myPart
     (st.tlbiReady kind = true → ∃ t, exec (.tlbi s d a b) st = .next t ∧ Answered st t d 0 id ∧
       (∀ c ∈ cs, ∀ x, x ∈ (t.core c).tlb ↔ x ∈ (st.core c).tlb ∧ ¬ dropped kind st.myPart (st.me.rx a.val) x) ∧
       (∀ c, c ∉ cs → t.core c = st.core c) ∧ ∀ p, t.peek p = st.peek p) ∧
     (st.tlbiReady kind = false → exec (.tlbi s d a b) st = .next (st.block s (.tlbi d kind (st.me.rx a.val))))) ∧
    (let v := st.me.rx a.val
     let c := fldW v 0 8
     let unit := fldW v 8 3
     st.me.sys.cpl ≠ .u → c < 160 → unit < 6 → fldW v 11 53 = 0 → ∃ t, exec (.seqr s d a) st = .next t ∧
       st.WroteReg t d (if st.me.sys.cpl = .s ∧ c ∉ st.coresOf st.myPart then BitVec.allOnes 64
         else BitVec.ofNat 64 (tget 0 (st.core c).seqs unit)) (st.me.pc + 4))

/-- HALT (R290) stops a core once it holds no thread, record or operation, and restarts one that is halted; PARK (R291) asks every
other thread of a partition to stop at its own CSA, parks the operations that wait, and is complete at once when no other thread is
resident and no operation runs; else the word waits. That the issuing thread, resident or not, is neither asked to stop nor waited for is the
model's reading (DEDUCED, log entry 61). PCAN (R292) cancels all that a partition has, and ends a thread of it that issues it. -/
def Obligations.CoreAndPartitionControl : Prop :=
  ∀ (st : State) (s : Fin 4) (d a b : Fin 32), Settled st → st.me.sys.cpl = .m →
    let n := (st.me.rx a.val).toNat
    let v := st.me.rx b.val
    (n < 160 → v = 1 → (st.core n).halted = true → (st.core n).stopped = false → ∃ t, exec (.halt s d a b) st = .next t ∧
      Answered st t d 0 id ∧ t.core n = { st.core n with halted := false } ∧ ∀ c, c ≠ n → t.core c = st.core c) ∧
    (n < 160 → v = 1 → ((st.core n).halted = false ∨ (st.core n).stopped = true) → ∃ t, exec (.halt s d a b) st = .next t ∧
      st.WroteReg t d 1 (st.me.pc + 4)) ∧
    (n < 160 → v = 0 → ((st.core n).halted = true ∨ (st.core n).stopped = true) → ∃ t, exec (.halt s d a b) st = .next t ∧
      st.WroteReg t d 1 (st.me.pc + 4)) ∧
    (n < 160 → v = 0 → (st.core n).halted = false → (st.core n).stopped = false → ∃ t, exec (.halt s d a b) st = .next t ∧
      (∀ c, c ≠ n → t.core c = st.core c) ∧
      (st.haltReady n = true → t.core n = { st.core n with halted := true, halting := false } ∧ Answered st t d 0 id) ∧
      (st.haltReady n = false → t.core n = { st.core n with halting := true } ∧ t.me.wait = some (.halt d n) ∧ t.me.pc = st.me.pc)) ∧
    (n < 40 → v = 1 → (st.part n).parked = false → ∃ t, exec (.park s d a b) st = .next t ∧ st.WroteReg t d 1 (st.me.pc + 4)) ∧
    (n < 40 → v = 1 → (st.part n).parked = true → (∀ im ∈ (st.part n).images, im.park = true → im.ctx ≠ st.cur) →
      ∃ t, exec (.park s d a b) st = .next t ∧ (t.part n).parked = false ∧ st.me.Wrote t.me d 0 ∧
      st.me.Passed t.me (st.me.pc + 4) ∧ ∀ c ∈ st.coresOf n, ∀ i, (t.slot c i).st ≠ .parked ∨ (st.slot c i).left = .parked) ∧
    (n < 40 → v = 0 → (st.part n).parked = true → ∃ t, exec (.park s d a b) st = .next t ∧ st.WroteReg t d 1 (st.me.pc + 4)) ∧
    (n < 40 → v = 0 → (st.part n).parked = false → (∀ c ∈ st.coresOf n, tsorted (st.core c).slots = true) →
      (parksAtOnce st n → ∃ t, exec (.park s d a b) st = .next t ∧ st.me.Wrote t.me d 0 ∧ st.me.Passed t.me (st.me.pc + 4) ∧
        (t.part n).parked = true ∧ (t.part n).parking = false ∧
        ∀ c ∈ st.coresOf n, ∀ e ∈ (st.core c).slots, e.2.pending = true → (t.slot c e.1).st = .parked) ∧
      (¬ parksAtOnce st n → ∃ t, exec (.park s d a b) st = .next t ∧ (t.part n).parked = false ∧ (t.part n).parking = true ∧
        t.me.wait = some (.park d n) ∧ t.me.pc = st.me.pc ∧ t.me.x = st.me.x ∧
        ∀ c ∈ st.residents n, c ≠ st.cur → ∃ r, (t.ctx c).saving = some r ∧ r.park = true ∧ r.pa = (st.ctx c).sys.csa.toNat)) ∧
    (n < 40 → st.hasWork n = false → ∃ t, exec (.pcan s d a) st = .next t ∧ st.WroteReg t d 1 (st.me.pc + 4)) ∧
    (n < 40 → st.hasWork n = true → (∀ x, st.me.thread = some x → x.part ≠ n) → ∃ t, exec (.pcan s d a) st = .next t ∧
      st.me.Wrote t.me d 0 ∧ st.me.Passed t.me (st.me.pc + 4) ∧ (t.part n).images = [] ∧
      ∀ l, st.alive n l = true → (t.launch n l).cancelled = true) ∧
    (n < 40 → st.hasWork n = true → (∃ x, st.me.thread = some x ∧ x.part = n) → ∃ t, exec (.pcan s d a) st = .next t ∧
      t.me.thread = none ∧ t.me.sys.cpl = .u ∧ (t.part n).images = [] ∧ ∀ l, st.alive n l = true → (t.launch n l).cancelled = true)

/-- CTXSV (R288) gives 1 for an empty context, and asks a resident thread to stop at its boundary, once; CTXLD (R289, R340, R341)
loads a valid image into the context it names, marks it spent, and gives 0. That the device knows an image by the address it wrote it to,
so that a copy elsewhere gives 2, is the model's reading (DEDUCED, log entry 43). -/
def Obligations.ContextMoves : Prop :=
  ∀ (st : State) (s : Fin 4) (d a b : Fin 32), Settled st → st.me.sys.cpl ≠ .u →
    st.badTarget (st.me.rx a.val) (st.me.rx b.val) = none →
    let c := (st.me.rx a.val).toNat
    let pa := (st.me.rx b.val).toNat
    ((st.ctx c).thread = none → ∃ t, exec (.ctxsv s d a b) st = .next t ∧ st.WroteReg t d 1 (st.me.pc + 4)) ∧
    ((st.ctx c).thread ≠ none → (st.ctx c).saving = none → ∃ t, exec (.ctxsv s d a b) st = .next t ∧
      (∃ r, (t.ctx c).saving = some r ∧ r.pa = pa ∧ r.by_ = some st.cur ∧ r.park = false ∧ r.pool = none) ∧
      t.me.wait = some (.ctxsv d c (st.ctx c).uid pa) ∧ t.me.pc = st.me.pc ∧ ∀ k, k ≠ c → k ≠ st.cur → t.ctx k = st.ctx k) ∧
    ((st.ctx c).thread ≠ none → ∃ t, exec (.ctxld s d a b) st = .next t ∧ st.WroteReg t d 1 (st.me.pc + 4)) ∧
    ((st.ctx c).thread = none → (∀ i ∈ (st.part st.myPart).images, i.pa ≠ pa ∨ i.ctx ≠ c) →
      ∃ t, exec (.ctxld s d a b) st = .next t ∧ st.WroteReg t d 2 (st.me.pc + 4)) ∧
    ∀ i, (st.ctx c).thread = none → st.areaFails (coreOf st.cur) pa 0x14000 = none → ((st.part st.myPart).images.find? fun i => i.pa = pa && i.ctx = c) = some i →
      st.imageValid st.myPart c pa = true → ∃ t, exec (.ctxld s d a b) st = .next t ∧
        st.me.Wrote t.me d 0 ∧ st.me.Passed t.me (st.me.pc + 4) ∧
        (∀ r : Fin 32, r ≠ 0 → (t.ctx c).rx r.val = areaDword st (pa + 0x11800 + 8 * r.val)) ∧
        (t.ctx c).pc = areaDword st (pa + 0x11E48) ∧ (t.ctx c).icnt = areaDword st (pa + 0x11E50) ∧
        (t.ctx c).sys.epc = areaDword st (pa + 0x11A10) ∧ (∃ th, (t.ctx c).thread = some th ∧ th.uid = i.uid) ∧
        i ∉ (t.part st.myPart).images ∧ t.peek (pa + 0x11E42) = st.peek (pa + 0x11E42) ||| 2 ∧
        ∀ p, p ≠ pa + 0x11E42 → t.peek p = st.peek p

/-- BSET (R286, R287) writes the descriptor that it reads into its entry, with VIS and VOID clear, or empties the entry; it gives 1
while the entry has a writer, and 2 for a range that overlaps another entry's. With R it writes the entry to memory. -/
def Obligations.BufferTable : Prop :=
  ∀ (st : State) (s : Fin 4) (d a b : Fin 32), Settled st → st.me.sys.cpl ≠ .u → fldW (st.me.rx a.val) 9 55 = 0 →
    (st.me.rx b.val).toNat % 8 = 0 →
    let i := fldW (st.me.rx a.val) 0 8
    let p := st.myPart
    (∀ (l : List Word) (u : State), (st.me.rx a.val).getLsbD 8 = false → st.fetchDwords (st.me.rx b.val) 4 = .vals l u →
      st.badBuf p l = false →
      let w := fun (j : Nat) => l.getD j 0
      let base := fldW (w 0) 16 40 * 65536
      (st.bufBusy p i = true → ∃ t, exec (.bset s d a b) st = .next t ∧ st.me.Wrote t.me d 1 ∧ t.parts = st.parts) ∧
      (st.bufBusy p i = false → (w 0).getLsbD 0 = true → (st.part p).bufMeets i base (w 1).toNat = true →
        ∃ t, exec (.bset s d a b) st = .next t ∧ st.me.Wrote t.me d 2 ∧ t.parts = st.parts) ∧
      (st.bufBusy p i = false → ((w 0).getLsbD 0 = true → (st.part p).bufMeets i base (w 1).toNat = false) →
        ∃ t, exec (.bset s d a b) st = .next t ∧ st.me.Wrote t.me d 0 ∧ st.me.Passed t.me (st.me.pc + 4) ∧
          (∀ j, j ≠ i → thas (t.part p).bufs j = thas (st.part p).bufs j) ∧
          thas (t.part p).bufs i = (w 0).getLsbD 0 ∧
          ((w 0).getLsbD 0 = true →
            tget ⟨0, 0, 0, 0, false, false⟩ (t.part p).bufs i = ⟨base, (w 1).toNat, (w 2).toNat, (w 3).toNat, false, false⟩) ∧
          (∀ q, q ≠ p → t.part q = st.part q) ∧ ∀ x, t.peek x = st.peek x)) ∧
    (∀ locs : List Loc, (st.me.rx a.val).getLsbD 8 = true →
      st.locate (coreOf st.cur) st.myPart st.me.sys.cpl .write true (st.me.rx b.val) 32 = .inl locs → st.isMmio locs = false →
      (locs.map st.visible).Nodup → st.brokenLink (coreOf st.cur) (locs.map st.visible) = none → ∃ t, exec (.bset s d a b) st = .next t ∧ st.me.Wrote t.me d 0 ∧
        (locs.map st.visible).map t.peek = ((st.part p).bufDwords i).flatMap (fun w => leBytes 8 w.toNat) ∧
        (∀ x, x ∉ locs.map st.visible → t.peek x = st.peek x) ∧ t.parts = st.parts)

/-- SRW of PART at M, and PART_WRITE by a context at M whose core runs, in CONFIG and after GO (R354, R357): a composition that is not
refused becomes the partition's, and every core of a quad that moves is clean, but for the firmware's own context in CONFIG. That the PID
of the value names the partition that is composed is the model's reading (DEDUCED, log entry 16). -/
def Obligations.Composition : Prop :=
  ∀ (st : State),
    (∀ (s : Fin 4) (b : Fin 32), Settled st → st.me.sys.cpl = .m → st.partRefused st.myPart (st.me.rx b.val) = false →
      let v := st.me.rx b.val
      let p := fldW v 0 6
      let m : BitVec 40 := BitVec.ofNat 40 (fldW v 8 40)
      let old : BitVec 40 := if (st.part p).composed then (st.part p).qmask else 0
      ∃ t, exec (.srw s 0x22 b) st = .next t ∧ (t.part p).qmask = m ∧ (t.part p).composed = decide (m ≠ 0) ∧
        (∀ c, quadCores (m ^^^ old) c → Clean st t c) ∧
        (¬ quadCores (m ^^^ old) (coreOf st.cur) ∨ firmware st st.cur → st.me.Wrote t.me 0 0 ∧ st.me.Passed t.me (st.me.pc + 4))) ∧
    ∀ (c : Nat) (v : Word), c < 640 → (st.woad.boot = .config ∨ st.woad.boot = .run) → (st.ctx c).sys.cpl = .m →
      (st.core (coreOf c)).halted = false → (st.core (coreOf c)).stopped = false → st.partRefused (st.partOf (coreOf c)) v = false →
      let p := fldW v 0 6
      let m : BitVec 40 := BitVec.ofNat 40 (fldW v 8 40)
      let old : BitVec 40 := if (st.part p).composed then (st.part p).qmask else 0
      ∃ t, exec (.partWrite c v) st = .next t ∧ (t.part p).qmask = m ∧ (t.part p).composed = decide (m ≠ 0) ∧
        ∀ c, quadCores (m ^^^ old) c → Clean st t c

/-! ### Engine words -/

namespace Sys2Proof.Claims

open Sys2Proof.Machine

/-- An engine word (10 R249): whether it names a predecessor, its token register, the operation's kind, what xa and xb give, and
the checks of its own rules that the machine must meet for it to issue. -/
structure EngineForm where
  p : Bool
  t : Fin 32
  kind : OpKind
  xa : Word
  xb : Word
  legal : Prop

/-- The bytes of a copy (10 R252) are within its limit. -/
def copyFits (k : Ctx) : Prop := fldW k.ctrl.csh 32 32 * fldW k.ctrl.csh 0 32 ≤ 2 ^ 41 - 512

/-- The captured format of VT. -/
def format (k : Ctx) : Fmt := fmtOf k.ctrl.vt

/-- A data collective (10 R267): a format of 8 bits or more, a rounding mode other than 5, rows of whole elements. -/
def collectiveLegal (k : Ctx) : Prop :=
  8 ≤ (format k).width ∧ fldW k.ctrl.vt 12 3 ≠ 5 ∧ fldW k.ctrl.csh 0 32 % ((format k).width / 8) = 0

/-- No brick, mask or table that the word captures has still to be written (10 R249, 09 R223, R234). -/
def quietVector (k : Ctx) : Prop := k.vq = [] ∧ k.landing = []

/-- The partner of an even register (07 R178). -/
def odd (a : Fin 32) : Nat := (a.val + 1) % 32

def engineForm (st : State) : Instr → Option EngineForm
  | .copy _ p t a b => some ⟨p, t, .copy, st.me.rx a.val, st.me.rx b.val, copyFits st.me⟩
  | .copyf _ p t a b => some ⟨p, t, .copyf, st.me.rx a.val, st.me.rx b.val, copyFits st.me ∧ (st.me.rx (odd a)).toNat % 8 = 0⟩
  | .copym _ p t a b => some ⟨p, t, .copym, st.me.rx a.val, st.me.rx b.val, copyFits st.me ∧ quietVector st.me ∧
      fldW (st.me.rx b.val) 36 28 = 0 ∧
      (st.withMatrix { st.capture .copym (st.me.rx a.val) (st.me.rx b.val) with xa1 := st.me.rx (odd a) }).mmaRefused = none⟩
  | .grows _ p t a _ => some ⟨p, t, .grows, st.me.rx a.val, 0, st.me.frozen = false ∧ quietVector st.me ∧
      (format st.me = .i32 ∨ format st.me = .n32 ∨ format st.me = .i64 ∨ format st.me = .n64) ∧
      vlFits (format st.me).width st.me.ctrl.vl = true⟩
  | .publish _ p t a => some ⟨p, t, .publish, st.me.rx a.val, 0,
      (st.me.rx a.val).toNat < 256 ∧ thas (st.part st.myPart).bufs (st.me.rx a.val).toNat = true⟩
  | .mma _ p t a b => some ⟨p, t, .mma, st.me.rx a.val, st.me.rx b.val, quietVector st.me ∧ fldW (st.me.rx a.val) 22 42 = 0 ∧
      fldW (st.me.rx b.val) 13 51 = 0 ∧
      (st.withMatrix (st.capture .mma (st.me.rx a.val) (st.me.rx b.val))).mmaRefused = none⟩
  | .mmas _ p t a b => some ⟨p, t, .mmas, st.me.rx a.val, st.me.rx b.val, quietVector st.me ∧ fldW (st.me.rx a.val) 22 42 = 0 ∧
      fldW (st.me.rx b.val) 13 51 = 0 ∧
      (st.withMatrix (st.capture .mmas (st.me.rx a.val) (st.me.rx b.val))).mmaRefused = none⟩
  | .mclr _ p t => some ⟨p, t, .mclr, 0, 0, True⟩
  | .mrd _ p t a => some ⟨p, t, .mrd, st.me.rx a.val, 0, fldW (st.me.rx a.val) 22 42 = 0 ∧
      (let c := mftC st.me.ctrl.mft
       (c = .f32 ∨ c = .f64 ∨ c = .i32) ∧ badCell (st.withMatrix (st.capture .mrd (st.me.rx a.val) 0)).dim c = false)⟩
  | .train _ p t a b => some ⟨p, t, .train, 0, 0, st.me.frozen = false ∧ quietVector st.me ∧ 8 ≤ (format st.me).width ∧
      vlFits (format st.me).width st.me.ctrl.vl = true ∧
      ({ st.capture .train 0 0 with brickA := st.me.brick a.val, brickB := st.me.brick b.val
                                    mask := st.me.mask (fldW st.me.ctrl.vm 0 3) }.actives.all (· < 256)) = true⟩
  | .credSum _ p t a b => some ⟨p, t, .cred .sum, st.me.rx a.val, st.me.rx b.val, collectiveLegal st.me⟩
  | .credMax _ p t a b => some ⟨p, t, .cred .max, st.me.rx a.val, st.me.rx b.val, collectiveLegal st.me⟩
  | .credMin _ p t a b => some ⟨p, t, .cred .min, st.me.rx a.val, st.me.rx b.val, collectiveLegal st.me⟩
  | .credAnd _ p t a b => some ⟨p, t, .cred .and, st.me.rx a.val, st.me.rx b.val, collectiveLegal st.me⟩
  | .credOr _ p t a b => some ⟨p, t, .cred .or, st.me.rx a.val, st.me.rx b.val, collectiveLegal st.me⟩
  | .credXor _ p t a b => some ⟨p, t, .cred .xor, st.me.rx a.val, st.me.rx b.val, collectiveLegal st.me⟩
  | .cgat _ p t a b => some ⟨p, t, .cgat, st.me.rx a.val, st.me.rx b.val, collectiveLegal st.me⟩
  | .cbc _ p t a b => some ⟨p, t, .cbc, st.me.rx a.val, st.me.rx b.val, collectiveLegal st.me⟩
  | .cbar _ p t => some ⟨p, t, .cbar, 0, 0, True⟩
  | .migrOut _ p t a b => some ⟨p, t, .migrOut, st.me.rx a.val, st.me.rx b.val,
      fldW (st.me.rx b.val) 56 8 = 0 ∧ (st.me.rx a.val).toNat % 65536 = 0⟩
  | .migrIn _ p t a b => some ⟨p, t, .migrIn, st.me.rx a.val, st.me.rx b.val,
      fldW (st.me.rx b.val) 56 8 = 0 ∧ (st.me.rx a.val).toNat % 65536 = 0⟩
  | _ => none

/-- What an operation keeps of its issue (10 R249, 02 R41, R45). -/
structure Captured (st : State) (f : EngineForm) (o : EngOp) : Prop where
  word : o.kind = f.kind ∧ o.xa = f.xa ∧ o.xb = f.xb ∧ o.ctx = st.cur ∧ o.iaddr = st.me.pc
  ctls : o.csh = st.me.ctrl.csh ∧ o.cst = st.me.ctrl.cst ∧ o.msh = st.me.ctrl.msh ∧ o.mft = st.me.ctrl.mft ∧ o.ctm = st.me.ctrl.ctm
  vector : o.ctl.vl = st.me.ctrl.vl ∧ o.ctl.vm = st.me.ctrl.vm ∧ o.ctl.vt = st.me.ctrl.vt
  of : o.level = st.me.sys.cpl ∧ o.part = st.myPart ∧ o.lid = st.myLid ∧ o.clock = st.me.clock
  pred : o.pred = if f.p then (let v := st.me.rx f.t.val
    if (slotOf st v).gen = fldW v 14 24 ∧ (slotOf st v).st ≠ .free then some v else none) else none

end Sys2Proof.Claims

/-- Every engine word whose checks pass takes a FREE slot of its core, with the slot's next generation (R249, R39, R41): its
operation waits there with what the word captured, xt receives the token, and the chunks that it will write are cleared
(R253). No memory, no other slot and no other register changes. With no FREE slot the word waits, or traps TOKEN_FULL
when only the end of its own launch could free one (R44). -/
def Obligations.EngineWords : Prop :=
  ∀ (i : Instr) (f : EngineForm) (st : State), engineForm st i = some f → i.wf = true → Settled st → f.legal →
    (f.p = true → st.badToken (st.me.rx f.t.val) = false) → st.me.vlPending = false → st.me.fences = [] →
    (∀ x ∈ st.badCells, x.2.1 ≠ st.cur) →
    let c := coreOf st.cur
    (st.freeSlots c ≠ [] → ∃ t n, exec i st = .next t ∧ n ∈ st.freeSlots c ∧ (t.slot c n).st = .waiting ∧
      (t.slot c n).gen = (if 0xFFFFFF ≤ (st.slot c n).gen then 1 else (st.slot c n).gen + 1) ∧ (t.slot c n).owner = some st.cur ∧
      (t.slot c n).pri = fldW st.me.ctrl.opri 0 2 ∧ Captured st f (t.slot c n).op ∧
      Answered st t f.t (token c n (t.slot c n).gen) id ∧ (∀ k, k ≠ n → t.slot c k = st.slot c k) ∧
      (∀ j, j < 6144 → (t.core c).chunks.getLsbD j =
        ((st.core c).chunks.getLsbD j && !((t.slot c n).op.chunks.any fun x => x.1 % 6144 == j))) ∧
      (∀ k, k ≠ c → t.core k = st.core k) ∧ (∀ k, k ≠ st.cur → t.ctx k = st.ctx k) ∧ ∀ p, t.peek p = st.peek p) ∧
    (st.freeSlots c = [] → st.slotsStuck c = false → exec i st = .next (st.block (match i with
      | .copy s .. | .copyf s .. | .copym s .. | .grows s .. | .publish s .. | .mma s .. | .mmas s .. | .mclr s .. | .mrd s ..
      | .train s .. | .credSum s .. | .credMax s .. | .credMin s .. | .credAnd s .. | .credOr s .. | .credXor s .. | .cgat s ..
      | .cbc s .. | .cbar s .. | .migrOut s .. | .migrIn s .. => s
      | _ => 0) .slot)) ∧
    (st.freeSlots c = [] → st.slotsStuck c = true → st.me.sys.cpl = .u → st.me.opened = [] →
      ∃ t, exec i st = .next t ∧ st.TookTrap t Code.tokenFull st.me.pc)

/-! ### Vector words -/

namespace Sys2Proof.Claims

open Sys2Proof.Machine

/-- The operation of a vector word, with its C and S (07 R159, R167). -/
def laneOp : Instr → Option (Bool × Fin 4 × VOp)
  | .vadd c s d a b => some (c, s, .int .add d a b)
  | .vsub c s d a b => some (c, s, .int .sub d a b)
  | .vmul c s d a b => some (c, s, .int .mul d a b)
  | .vmulh c s d a b => some (c, s, .int .mulh d a b)
  | .vmin c s d a b => some (c, s, .int .min d a b)
  | .vmax c s d a b => some (c, s, .int .max d a b)
  | .vand c s d a b => some (c, s, .int .and d a b)
  | .vor c s d a b => some (c, s, .int .or d a b)
  | .vxor c s d a b => some (c, s, .int .xor d a b)
  | .vandn c s d a b => some (c, s, .int .andn d a b)
  | .vsll c s d a b => some (c, s, .int .sll d a b)
  | .vsrl c s d a b => some (c, s, .int .srl d a b)
  | .vsra c s d a b => some (c, s, .int .sra d a b)
  | .vadds c s d a b => some (c, s, .int .adds d a b)
  | .vsubs c s d a b => some (c, s, .int .subs d a b)
  | .vavg c s d a b => some (c, s, .int .avg d a b)
  | .vabs c s d a => some (c, s, .int .abs d a 0)
  | .vclz c s d a => some (c, s, .int .clz d a 0)
  | .vffs c s d a => some (c, s, .int .ffs d a 0)
  | .vpopc c s d a => some (c, s, .int .popc d a 0)
  | .vaddVs c s d a x => some (c, s, .intVs .add d a x)
  | .vsubVs c s d a x => some (c, s, .intVs .sub d a x)
  | .vmulVs c s d a x => some (c, s, .intVs .mul d a x)
  | .vmulhVs c s d a x => some (c, s, .intVs .mulh d a x)
  | .vminVs c s d a x => some (c, s, .intVs .min d a x)
  | .vmaxVs c s d a x => some (c, s, .intVs .max d a x)
  | .vandVs c s d a x => some (c, s, .intVs .and d a x)
  | .vorVs c s d a x => some (c, s, .intVs .or d a x)
  | .vxorVs c s d a x => some (c, s, .intVs .xor d a x)
  | .vandnVs c s d a x => some (c, s, .intVs .andn d a x)
  | .vsllVs c s d a x => some (c, s, .intVs .sll d a x)
  | .vsrlVs c s d a x => some (c, s, .intVs .srl d a x)
  | .vsraVs c s d a x => some (c, s, .intVs .sra d a x)
  | .vaddsVs c s d a x => some (c, s, .intVs .adds d a x)
  | .vsubsVs c s d a x => some (c, s, .intVs .subs d a x)
  | .vavgVs c s d a x => some (c, s, .intVs .avg d a x)
  | .vfadd c s d a b => some (c, s, .fp .add d a b)
  | .vfsub c s d a b => some (c, s, .fp .sub d a b)
  | .vfmul c s d a b => some (c, s, .fp .mul d a b)
  | .vfmac c s d a b => some (c, s, .fp .mac d a b)
  | .vfnmac c s d a b => some (c, s, .fp .nmac d a b)
  | .vfmin c s d a b => some (c, s, .fp .min d a b)
  | .vfmax c s d a b => some (c, s, .fp .max d a b)
  | .vfdiv c s d a b => some (c, s, .fp .div d a b)
  | .vfabs c s d a => some (c, s, .fp .abs d a 0)
  | .vfneg c s d a => some (c, s, .fp .neg d a 0)
  | .vfsqrt c s d a => some (c, s, .fp .sqrt d a 0)
  | .vfrec c s d a => some (c, s, .fp .recip d a 0)
  | .vfexp2 c s d a => some (c, s, .fp .exp2 d a 0)
  | .vflog2 c s d a => some (c, s, .fp .log2 d a 0)
  | .vfclass c s d a => some (c, s, .fp .fclass d a 0)
  | .vfaddVs c s d a x => some (c, s, .fpVs .add d a x)
  | .vfsubVs c s d a x => some (c, s, .fpVs .sub d a x)
  | .vfmulVs c s d a x => some (c, s, .fpVs .mul d a x)
  | .vfmacVs c s d a x => some (c, s, .fpVs .mac d a x)
  | .vfnmacVs c s d a x => some (c, s, .fpVs .nmac d a x)
  | .vfminVs c s d a x => some (c, s, .fpVs .min d a x)
  | .vfmaxVs c s d a x => some (c, s, .fpVs .max d a x)
  | .vfdivVs c s d a x => some (c, s, .fpVs .div d a x)
  | .vcmp c s o m a b => some (c, s, .cmp o m a b)
  | .vfcmp c s o m a b => some (c, s, .fcmp o m a b)
  | .vslup c s d a x => some (c, s, .slup d a x)
  | .vsldn c s d a x => some (c, s, .sldn d a x)
  | .vdup c s d a x => some (c, s, .dup d a x)
  | .vcomp c s d a => some (c, s, .comp d a)
  | .vexp c s d a => some (c, s, .exp d a)
  | .vtrn c s d a p => some (c, s, .trn d a p)
  | .viota c s d => some (c, s, .iota d)
  | .vsel c s d a b => some (c, s, .sel d a b)
  | .vtbl c s d a n h f => some (c, s, .tbl d a h n f)
  | .vrsum c s d a => some (c, s, .red .sum d a)
  | .vrmax c s d a => some (c, s, .red .max d a)
  | .vrmin c s d a => some (c, s, .red .min d a)
  | .vrand c s d a => some (c, s, .red .and d a)
  | .vror c s d a => some (c, s, .red .or d a)
  | .vrxor c s d a => some (c, s, .red .xor d a)
  | .vscan c s d a => some (c, s, .scan d a)
  | .vcvt c s d a t => some (c, s, .cvt d a t)
  | .amul c s d a b => some (c, s, .amul d a b)
  | .amac c s d a b => some (c, s, .amac d a b)
  | .aconj c s d a => some (c, s, .aconj d a)
  | .anorm c s d a => some (c, s, .anorm d a)
  | .ald c s j a => some (c, s, .ald j a)
  | .scac c s d a k => some (c, s, .scac d a k)
  | .omovF c s d a dx dy dz => some (c, s, .off true .mov d a 0 dx dy dz)
  | .oaddF c s d a dx dy dz b => some (c, s, .off true .add d a b dx dy dz)
  | .osubF c s d a dx dy dz b => some (c, s, .off true .sub d a b dx dy dz)
  | .omacF c s d a dx dy dz b => some (c, s, .off true .mac d a b dx dy dz)
  | .omov c s d a dx dy dz => some (c, s, .off false .mov d a 0 dx dy dz)
  | .oadd c s d a dx dy dz b => some (c, s, .off false .add d a b dx dy dz)
  | .osub c s d a dx dy dz b => some (c, s, .off false .sub d a b dx dy dz)
  | .omac c s d a dx dy dz b => some (c, s, .off false .mac d a b dx dy dz)
  | .vld c s b a i => some (c, s, .ld .space b a i)
  | .vst c s b a i => some (c, s, .st .space b a i)
  | .vldl c s b a i => some (c, s, .ld .lane b a i)
  | .vstl c s b a i => some (c, s, .st .lane b a i)
  | .vldx c s b a i => some (c, s, .ld .cross b a i)
  | .vstx c s b a i => some (c, s, .st .cross b a i)
  | .vldi c s b a i => some (c, s, .ldi b a i)
  | .vsti c s b a i => some (c, s, .sti b a i)
  | .vstia c s b a i => some (c, s, .stia b a i)
  | .vlda c s b a i => some (c, s, .lda b a i)
  | .gathb c s b a i m => some (c, s, .gathb b a i m)
  | .mand c s d a b => some (c, s, .mask .and d a b)
  | .mor c s d a b => some (c, s, .mask .or d a b)
  | .mxor c s d a b => some (c, s, .mask .xor d a b)
  | .mnot c s d a => some (c, s, .mask .not d a 0)
  | .mpopc c s d a => some (c, s, .mpopc d a)
  | .mffs c s d a => some (c, s, .mffs d a)
  | .mset c s d a b => some (c, s, .mset d a b)
  | .mget c s d a b => some (c, s, .mget d a b)
  | .vsplat c s d x => some (c, s, .splat d x)
  | .vext c s d a x => some (c, s, .ext d a x)
  | .vins c s d a x => some (c, s, .ins d a x)
  | .vsetl c s d a => some (c, s, .setl d a)
  | .vsetb c s d a => some (c, s, .setb d a)
  | .nbset c s d a b => some (c, s, .nbset d a b)
  | .nbget c s a b d => some (c, s, .nbget a b d)
  | .waitv c s m a b x => some (c, s, .waitv m a b x)
  | .scld s k a b => some (false, s, .scld k a b)
  | _ => none

/-- VSETL and VSETB, which write at issue (09 R228). -/
def isLength : VOp → Bool
  | .setl .. | .setb .. => true
  | _ => false

/-- What a queued word holds of its issue (07 R163): its operands' registers and the seven control registers, as they stood. -/
structure Queued (st : State) (c : Bool) (s : Fin 4) (op : VOp) (e : VEntry) : Prop where
  word : e.op = op ∧ e.s = s ∧ e.cv = c ∧ e.addr = st.me.pc ∧ e.q = op.queue
  scalars : e.xa = st.me.rx op.scalars.1.val ∧ e.xb = st.me.rx op.scalars.2.1.val ∧ e.xi = st.me.rx op.scalars.2.2.val
  ctl : e.ctl = ⟨st.me.ctrl.vl, st.me.ctrl.vm, st.me.ctrl.vs, st.me.ctrl.vt, st.me.ctrl.vmt, st.me.ctrl.vf, st.me.ctrl.seed⟩
  at_ : e.icnt = st.me.icnt ∧ e.clock = st.me.clock ∧ e.level = st.me.sys.cpl
  fresh : e.started = false ∧ e.prog = 0 ∧ e.slip = false

/-- The context with its vector queue and what goes with it left out. -/
def noQueue (k : Ctx) : Ctx := { k with vq := [], wic := 0, landed := [] }

/-- The word that the issuing context queues, with the activity that it starts with (07 R163, R172). -/
def laneWord (st : State) (s : Fin 4) (op : VOp) : VEntry :=
  { st.entry false s op with act := st.me.mask (fldW st.me.ctrl.vm 0 3) }

/-- The sequencer runs at once (log entry 3), the vector side is idle and whole, and the word's operands are legal (09 R210). -/
structure Startable (st : State) (s : Fin 4) (op : VOp) : Prop where
  prompt : st.prompt = true
  idle : st.me.vq = [] ∧ st.me.opened = [] ∧ st.me.landing = [] ∧ st.me.vstep = 0
  runs : st.me.frozen = false ∧ st.me.saving = none ∧ (st.core (coreOf st.cur)).stopped = false ∧
    (st.core (coreOf st.cur)).halted = false
  sound : st.badCells = []
  settled : Settled st
  legal : st.operandChecks st.cur (laneWord st s op) (laneWord st s op).on = []

/-- Element i of a brick after a word has written it by 03 R66: outside VL it stays; an element the word writes takes `res`; the
others are zeroed when VM.MZ = 1. -/
def Merged (e : VEntry) (old new : BitVec 16384) (on : Nat → Bool) (res : Nat → Nat) : Prop :=
  ∀ i, i < brickElems e.w → elem new e.w i =
    if inVL e.w e.ctl.vl i = false then elem old e.w i else if on i then res i % 2 ^ e.w
    else if bitW e.ctl.vm 6 then 0 else elem old e.w i

/-- The same for a mask (09 R219); bits past the format's elements stay. -/
def MergedMask (e : VEntry) (old new : BitVec 4096) (on : Nat → Bool) (res : Nat → Bool) : Prop :=
  ∀ i, i < 4096 → new.getLsbD i =
    if brickElems e.w ≤ i ∨ inVL e.w e.ctl.vl i = false then old.getLsbD i else if on i then res i
    else if bitW e.ctl.vm 6 then false else old.getLsbD i

/-- The flags that elements raise, each in its lane (04 R96). -/
def Raised (w : Nat) (k k' : Ctx) (on : Nat → Bool) (fl : Nat → Flags) : Prop :=
  ∀ n b, (k'.lane n).getLsbD b = true ↔ (k.lane n).getLsbD b = true ∨
    ∃ i, i < brickElems w ∧ on i = true ∧ laneOf w i = n ∧ (fl i).getLsbD b = true

/-- The bricks, masks and scale registers but one. -/
def OtherBricks (k k' : Ctx) (d : Nat) : Prop := (∀ r, r ≠ d → k'.brick r = k.brick r) ∧ k'.m = k.m ∧ k'.k = k.k
def OtherMasks (k k' : Ctx) (m : Nat) : Prop := (∀ r, r ≠ m → k'.mask r = k.mask r) ∧ k'.b = k.b ∧ k'.k = k.k

/-- A vector word that has been performed whole (07 R167, R173): issue goes on, the queue is empty, and neither the scalar
registers, the control registers and the links nor anything else of the module has changed. -/
structure Performed (st t : State) : Prop where
  passed : st.me.Passed t.me (st.me.pc + 4)
  scalars : st.me.Wrote t.me 0 0
  idle : t.me.vq = [] ∧ t.me.opened = [] ∧ t.me.landing = []
  regs : t.me.ctrl = st.me.ctrl ∧ t.me.sys = st.me.sys ∧ t.me.links = st.me.links ∧ t.me.tabs = st.me.tabs ∧
    t.me.landed = st.me.landed ∧ t.me.clock = st.me.clock ∧ t.me.wic = st.me.wic
  only : st.OnlyMe t

/-- What the arithmetic words of a convoy compute for element i (09 R212 to R216, R220, R233, 04 R103, R107 to R109): the destination,
and the code with its flags, from whole bricks. -/
def arithmetic (k : Ctx) (e : VEntry) : Option (Fin 32 × (Nat → Nat × Flags)) :=
  let f := e.fmt
  let w := e.w
  let x := fun (r : Fin 32) (i : Nat) => elem (k.brick r.val) w i
  let tab := k.table (vtAlg e.ctl.vt)
  let n := algDim tab
  let rdn := (e.rnd 0).rdn
  let comp := fun (r : Fin 32) (i j : Nat) => f.decode (e.rnd 0).inf (x r (i / n * n + j))
  match e.op with
  | .int o d a b => some (d, fun i => intElem o f (x a i) (x b i))
  | .intVs o d a _ => some (d, fun i => intElem o f (x a i) e.sigma)
  | .fp o d a b => some (d, fun i => fpElem o f (e.rnd i) (x d i) (x a i) (x b i))
  | .fpVs o d a _ => some (d, fun i => fpElem o f (e.rnd i) (x d i) (x a i) e.sigma)
  | .cvt d a src => some (d, fun i => convert src f (e.rnd i) (elem (k.brick a.val) src.width i))
  | .amul d a b => some (d, fun i => f.finish (e.rnd i) (algProd tab rdn (i % n) (comp a i) (comp b i)))
  | .amac d a b => some (d, fun i =>
      let p := algProd tab rdn (i % n) (comp a i) (comp b i)
      let c := f.decode (e.rnd 0).inf (x d i)
      let q := c.add p.v rdn
      let all := c :: (algTerms tab (i % n) (comp a i) (comp b i)).map fun t => (Val.fma (.zero false) t.1 t.2 rdn).v
      f.finish (e.rnd i) ⟨q.v, q.f ||| p.f ||| infClash all⟩)
  | .aconj d a => some (d, fun i =>
      if algConj tab (i % n) then ((fnegElem f (e.rnd i) (x a i)).1, sigFlag [f.decode (e.rnd 0).inf (x a i)]) else (x a i, 0))
  | .anorm d a => some (d, fun i => if i % n = 0 then f.finish (e.rnd i) (algNorm tab rdn (comp a i)) else (0, 0))
  | .scac d a s => some (d, fun i =>
      scacElem (e.rnd i) (x d i) (x a i) (fld (k.scale s.val).toNat (8 * (i / 2 ^ vtBl e.ctl.vt)) 8))
  | _ => none

/-- The comparisons, and the mask words that write a mask (09 R219, R231): the mask, the elements written, and the bits. -/
def testing (k : Ctx) (e : VEntry) : Option (Fin 8 × (Nat → Bool) × (Nat → Bool × Flags)) :=
  let x := fun (r : Fin 32) (i : Nat) => elem (k.brick r.val) e.w i
  let m := fun (r : Fin 8) (i : Nat) => (k.mask r.val).getLsbD i
  match e.op with
  | .cmp o d a b => some (d, e.on, fun i => (cmpInt o e.fmt (x a i) (x b i), 0))
  | .fcmp o d a b => some (d, e.on, fun i => cmpFp o e.fmt (e.rnd i).inf (x a i) (x b i))
  | .mask .and d a b => some (d, inVL e.w e.ctl.vl, fun i => (m a i && m b i, 0))
  | .mask .or d a b => some (d, inVL e.w e.ctl.vl, fun i => (m a i || m b i, 0))
  | .mask .xor d a b => some (d, inVL e.w e.ctl.vl, fun i => (m a i ^^ m b i, 0))
  | .mask .not d a _ => some (d, inVL e.w e.ctl.vl, fun i => (!m a i, 0))
  | _ => none

/-- The integer operations on codes of w bits (09 R212), by BitVec; `sg` says that the format is signed. -/
def laneInt {w : Nat} (f : VInt) (sg : Bool) (a b : BitVec w) : BitVec w :=
  let v := fun (x : BitVec w) => if sg then x.toInt else (x.toNat : Int)
  let lo : Int := if sg then -(2 ^ (w - 1)) else 0
  let hi : Int := if sg then 2 ^ (w - 1) - 1 else 2 ^ w - 1
  let clamp := fun (i : Int) => BitVec.ofInt w (if i < lo then lo else if hi < i then hi else i)
  match f with
  | .add => a + b | .sub => a - b | .mul => a * b
  | .mulh => BitVec.ofInt w (v a * v b / 2 ^ w)
  | .min => if v a ≤ v b then a else b
  | .max => if v a ≤ v b then b else a
  | .and => a &&& b | .or => a ||| b | .xor => a ^^^ b | .andn => a &&& ~~~b
  | .sll => a <<< (b.toNat % w) | .srl => a >>> (b.toNat % w) | .sra => a.sshiftRight (b.toNat % w)
  | .adds => clamp (v a + v b) | .subs => clamp (v a - v b)
  | .avg => BitVec.ofInt w ((v a + v b + 1) / 2)
  | .abs => if v a < 0 then -a else a
  | .clz => BitVec.ofNat w (if a = 0 then w else w - 1 - a.toNat.log2)
  | .ffs => BitVec.ofNat w (((List.range w).find? fun i => a.getLsbD i).getD w)
  | .popc => BitVec.ofNat w ((List.range w).filter fun i => a.getLsbD i).length

/-- The words that move elements (09 R221 to R227): the destination, the elements written, and their values with flags. -/
def moved (k : Ctx) (e : VEntry) : Option (Fin 32 × (Nat → Bool) × (Nat → Nat × Flags)) :=
  let src := fun (r : Fin 32) (i : Nat) =>
    if i < brickElems e.w ∧ inVL e.w e.ctl.vl i = true then elem (k.brick r.val) e.w i else e.ctl.vf.toNat % 2 ^ e.w
  let before := fun (i : Nat) => ((List.range i).filter e.on).length
  match e.op with
  | .slup d a _ => some (d, e.on, fun i => (if e.xa.toNat ≤ i then src a (i - e.xa.toNat) else e.ctl.vf.toNat % 2 ^ e.w, 0))
  | .sldn d a _ => some (d, e.on, fun i => (src a (i + e.xa.toNat), 0))
  | .dup d a _ => some (d, e.on, fun _ => (src a e.xa.toNat, 0))
  | .splat d _ => some (d, e.on, fun _ => (e.xa.toNat % 2 ^ e.w, 0))
  | .exp d a => some (d, e.on, fun i => (elem (k.brick a.val) e.w (e.inside.getD (before i) 0), 0))
  | .iota d => some (d, e.on, fun i => iotaElem e.fmt (e.rnd i) (before i))
  | .trn d a p => some (d, e.on, fun i =>
      let (x, y, z) := coord e.w i
      (src a (match p with | .xy => elemAt e.w y x z | .yz => elemAt e.w x z y | .xz => elemAt e.w z y x), 0))
  | .sel d a b => some (d, inVL e.w e.ctl.vl, fun i =>
      (if maskedIn e.ctl.vm e.act i then elem (k.brick a.val) e.w i else elem (k.brick b.val) e.w i, 0))
  | _ => none

/-- The elements that take part in a reduction or a scan, up to position n. -/
def actives (e : VEntry) (n : Nat) : List Nat := (List.range (min n (brickElems e.w))).filter e.on

/-- Memory at rest: no write is in flight, no byte has an older value that a read might return, every home knows the
frontiers that the thread's clock names, and no FENCE waits (05 R116 to R120, R126). -/
structure AtRest (st : State) : Prop where
  none : st.hist = [] ∧ st.writes = [] ∧ st.me.loose = [] ∧ st.badLines = [] ∧ st.deadChannels = [] ∧ st.me.fences = []
  known : ∀ d, d < 4 → st.me.clock.le (st.knownAt d) = true

/-- The locations that a word's probe finds for each of its elements, when it finds nothing else (07 R172). -/
def Probed (st : State) (s : Fin 4) (op : VOp) (locs : Table (List Loc)) : Prop :=
  st.prepare st.cur (st.entry false s op) = ({ laneWord st s op with locs := locs }, [])

/-- The number that the bytes of element i hold, or its nibble (10 R237, R240). -/
def loaded (st : State) (e : VEntry) (locs : Table (List Loc)) (i : Nat) : Nat :=
  let v := leNat ((tget [] locs i).map fun l => st.peek (st.visible l))
  match (e.addrOf 0 i).2 with
  | some n => v / 2 ^ (4 * n) % 16
  | none => v

/-- What a store writes for element i (10 R237, R241, R244). -/
def storedPart (st : State) (e : VEntry) (locs : Table (List Loc)) (b : Fin 32) (i : Nat) : List WPart :=
  let l := tget [] locs i
  let v := elem (st.me.brick b.val) e.w i
  match e.op, (e.addrOf 0 i).2 with
  | .stia .., _ => [{ locs := l, bytes := leBytes (e.w / 8) v
                      rmw := some (if e.fmt.isInt then .add else .fadd e.fmt e.ctl.vt (laneOf e.w i)), elem := i }]
  | _, some n => [{ locs := l, bytes := [BitVec.ofNat 8 v], nibble := some n, elem := i }]
  | _, none => (storeParts l (st.addr0 l) (BitVec.ofNat 64 v)).map fun p => { p with elem := i }

/-- The limits of a convoy of several words (07 R171): no solo word, one load, two arithmetic words and one store. -/
def convoyFits (ws : List VEntry) : Prop :=
  (∀ e ∈ ws, e.op.solo = false) ∧ (ws.filter (·.q = .load)).length ≤ 1 ∧ (ws.filter (·.q = .arith)).length ≤ 2 ∧
    (ws.filter (·.q = .store)).length ≤ 1

/-- What VSCAN gives element j (09 R230, 04 R99): the groups before j's, and the tree of its own up to j, combined at j; with the flags that
the combinations raise. -/
def scanTree (e : VEntry) (b : BitVec 16384) (j : Nat) : Option Nat × List (Nat × Flags) :=
  let m := groupElems e.w
  let f := redCombine .sum e.fmt e.rnd
  let before := reduceBelow f m (e.live b) (j / m)
  let own := groupTree f m (j / m) (j % m) (e.live b)
  let r := combineAt f j before.1 own.1
  (r.1, before.2 ++ own.2 ++ r.2)

/-- The flags of a list have been raised, each in the lane of its element (04 R96). -/
def RaisedAll (w : Nat) (k k' : Ctx) (l : List (Nat × Flags)) : Prop :=
  ∀ n b, (k'.lane n).getLsbD b = true ↔ (k.lane n).getLsbD b = true ∨ ∃ x ∈ l, laneOf w x.1 = n ∧ x.2.getLsbD b = true

end Sys2Proof.Claims

/-- Every vector word but VSETL and VSETB is queued at issue with the registers it captures (R163, R167): with C = 0 and no open
convoy it joins its queue, its place among the counted stores is taken (R33), and VLDA and GATHB clear the landed bits of the
groups they will write (R245); with C = 1 it joins the convoy that its last word will close (R171). The word that closes a convoy of
several queues all of it, or traps CONVOY where it breaks the limits (R171). A full queue holds it back (R167), and a vector side that is
frozen refuses it (15 R281). Nothing else changes. -/
def Sys2Proof.Claims.VectorWordsQueue : Prop :=
  ∀ (i : Instr) (c : Bool) (s : Fin 4) (op : VOp) (st : State), laneOp i = some (c, s, op) → isLength op = false →
    Settled st → st.me.vlPending = false →
    (c = true → ∃ t e, exec i st = .next t ∧ t.me.opened = st.me.opened ++ [e] ∧ Queued st c s op e ∧
      st.me.Wrote t.me 0 0 ∧ st.me.Passed t.me (st.me.pc + 4) ∧
      { t.me.still with opened := [] } = { st.me.still with opened := [] } ∧ st.OnlyMe t) ∧
    (c = false → st.me.opened = [] → st.me.frozen = false → st.me.queueFull op.queue = false → st.prompt = false →
      ∃ t e, exec i st = .next t ∧ t.me.vq = st.me.vq ++ [e] ∧ Queued st c s op e ∧
        t.me.wic = st.me.wic + (if op.isStore = true ∧ op.isLoose = false then 1 else 0) ∧
        e.stores = (if op.isStore = true ∧ op.isLoose = false then st.me.wic + 1 else 0) ∧
        (op.lands = none → t.me.landed = st.me.landed) ∧
        (∀ b, op.lands = some b → (∀ r, r ≠ b → t.me.land r = st.me.land r) ∧ ∀ g, g < 8 →
          (t.me.land b).getLsbD g = ((st.me.land b).getLsbD g && !(groupsInVL e.w st.me.ctrl.vl).contains g)) ∧
        st.me.Wrote t.me 0 0 ∧ st.me.Passed t.me (st.me.pc + 4) ∧ noQueue t.me.still = noQueue st.me.still ∧ st.OnlyMe t) ∧
    (c = false → st.me.opened = [] → st.me.frozen = false → st.me.queueFull op.queue = true →
      exec i st = .next (st.block s (.queue [op.queue]))) ∧
    (c = false → st.me.opened = [] → st.me.frozen = true → st.me.sys.cpl = .s →
      ∃ t, exec i st = .next t ∧ TookTrapM st t Code.illop st.me.pc) ∧
    ∀ (e0 : VEntry) (rest : List VEntry), c = false → st.me.opened = e0 :: rest → st.me.frozen = false → st.prompt = false →
      let ws := st.me.opened ++ [st.entry false s op]
      let full := [VQ.load, VQ.arith, VQ.store].filter fun q => st.me.queueFull q && ws.any fun e => e.q = q
      Queued st false s op (st.entry false s op) ∧
      (convoyFits ws → full = [] → ∃ t, exec i st = .next t ∧ t.me.vq = st.me.vq ++ numberWords st.me.wic ws ∧ t.me.opened = [] ∧
        t.me.wic = st.me.wic + (ws.filter fun e => e.op.isStore && !e.op.isLoose).length ∧ t.me.landed = st.me.landed ∧
        st.me.Wrote t.me 0 0 ∧ st.me.Passed t.me (st.me.pc + 4) ∧
        { noQueue t.me.still with opened := [] } = { noQueue st.me.still with opened := [] } ∧ st.OnlyMe t) ∧
      (convoyFits ws → full ≠ [] → exec i st = .next (st.block s (.queue full))) ∧
      (¬ convoyFits ws → st.me.sys.cpl = .u → ∃ t, exec i st = .next t ∧ st.TookTrap t Code.convoy e0.addr)

/-- VSETL grants min(xa, 64·X) elements, in VL and xd; VSETB a box clamped to the format's, and a zero extent is an illegal
operand (R228). Both have written when the next word issues. -/
def Sys2Proof.Claims.VectorLength : Prop :=
  ∀ (st : State) (s : Fin 4) (d a : Fin 32), Settled st → st.me.vlPending = false → st.me.opened = [] → st.me.frozen = false →
    st.me.queueFull .arith = false → st.prompt = false →
    let x := 256 / (format st.me).width
    let v := st.me.rx a.val
    let n := BitVec.ofNat 64 (min v.toNat (64 * x))
    let box := BitVec.ofNat 64 (2 ^ 63 + min (fldW v 12 4) 8 * 2 ^ 12 + min (fldW v 8 4) 8 * 2 ^ 8 + min (fldW v 0 8) x)
    let others := fun (k : Ctx) => { noQueue k with ctrl := { k.ctrl with vl := 0 } }
    (∃ t, exec (.vsetl false s d a) st = .next t ∧ st.me.Wrote t.me d n ∧ t.me.ctrl.vl = n ∧
      st.me.Passed t.me (st.me.pc + 4) ∧ others t.me.still = others st.me.still ∧ st.OnlyMe t) ∧
    (fldW v 0 8 ≠ 0 → fldW v 8 4 ≠ 0 → fldW v 12 4 ≠ 0 → ∃ t, exec (.vsetb false s d a) st = .next t ∧
      st.me.Wrote t.me d box ∧ t.me.ctrl.vl = box ∧ st.me.Passed t.me (st.me.pc + 4) ∧ others t.me.still = others st.me.still ∧
      st.OnlyMe t) ∧
    (fldW v 0 8 = 0 ∨ fldW v 8 4 = 0 ∨ fldW v 12 4 = 0 → st.me.sys.cpl = .u →
      ∃ t, exec (.vsetb false s d a) st = .next t ∧ st.TookTrap t Code.illop st.me.pc)

/-- Vector words wait their turn in their queues (R163, R167), but those that set VL, which are done at issue. -/
def Obligations.VectorQueues : Prop := Claims.VectorWordsQueue ∧ Claims.VectorLength

/-- The arithmetic words (R212 to R216, R220, R233): performed whole, every element inside VL that is active takes the result of
its elements in the bricks as they stood, a masked one is left or zeroed (R66), one outside VL is left; each active element
raises its flags in its lane (R96), and nothing else changes. Of the model's choice are the bit-for-bit copy of a component that ACONJ does
not negate (log entry 82), the infinities and the signs of zeros in AMAC and ANORM (log entry 70), and that VFCLASS and SCAC with 0xFF
raise nothing for a signalling NaN (log entry 98). -/
def Sys2Proof.Claims.LaneArithmetic : Prop :=
  ∀ (i : Instr) (s : Fin 4) (op : VOp) (d : Fin 32) (res : Nat → Nat × Flags) (st : State), laneOp i = some (false, s, op) →
    Startable st s op → arithmetic st.me (laneWord st s op) = some (d, res) →
    let e := laneWord st s op
    ∃ t, exec i st = .next t ∧ Merged e (st.me.brick d.val) (t.me.brick d.val) e.on (fun j => (res j).1) ∧
      Raised e.w st.me t.me e.on (fun j => (res j).2) ∧ OtherBricks st.me t.me d.val ∧ Performed st t

/-- The comparisons and the mask words (R219, R231): performed whole, they write the bits of their mask register. -/
def Sys2Proof.Claims.LaneTests : Prop :=
  ∀ (i : Instr) (s : Fin 4) (op : VOp) (d : Fin 8) (on : Nat → Bool) (res : Nat → Bool × Flags) (st : State),
    laneOp i = some (false, s, op) → Startable st s op → testing st.me (laneWord st s op) = some (d, on, res) →
    let e := laneWord st s op
    ∃ t, exec i st = .next t ∧ MergedMask e (st.me.mask d.val) (t.me.mask d.val) on (fun j => (res j).1) ∧
      Raised e.w st.me t.me on (fun j => (res j).2) ∧ OtherMasks st.me t.me d.val ∧ Performed st t

/-- The arithmetic, comparison and mask words on bricks (R212 to R220, R231, R233). -/
def Obligations.LaneArithmeticAndTests : Prop := Claims.LaneArithmetic ∧ Claims.LaneTests

/-- The integer operations (R212): on two codes of an integer format, the code that the same operation gives on bit vectors of the
format's width; only the saturating ones raise a flag, when they clamp. -/
def Obligations.LaneIntegers : Prop :=
  ∀ (f : VInt) (t : Fmt) (a b : Nat), t.isInt = true → a < 2 ^ t.width → b < 2 ^ t.width →
    let x := BitVec.ofNat t.width a
    let y := BitVec.ofNat t.width b
    let sum : Int := if f = .adds then t.intOf a + t.intOf b else t.intOf a - t.intOf b
    (intElem f t a b).1 = (laneInt f t.isSigned x y).toNat ∧
    (intElem f t a b).2 = if (f = .adds ∨ f = .subs) ∧ (sum < t.minInt ∨ t.maxInt < sum) then SATF else 0

/-- The words that move elements (R221, R222, R224, R225, R227): performed whole, each element that they write takes the element that
their rule names, or the fill value where that lies outside VL (R69). -/
def Sys2Proof.Claims.LaneMoves : Prop :=
  ∀ (i : Instr) (s : Fin 4) (op : VOp) (d : Fin 32) (on : Nat → Bool) (res : Nat → Nat × Flags) (st : State),
    laneOp i = some (false, s, op) → Startable st s op → moved st.me (laneWord st s op) = some (d, on, res) →
    let e := laneWord st s op
    ∃ t, exec i st = .next t ∧ Merged e (st.me.brick d.val) (t.me.brick d.val) on (fun j => (res j).1) ∧
      Raised e.w st.me t.me on (fun j => (res j).2) ∧ OtherBricks st.me t.me d.val ∧ Performed st t

/-- VCOMP packs the active elements of its source to the front of its destination, and in length mode VL becomes their number
(R223); VTBL looks its indices up in a table of bricks (R226). -/
def Sys2Proof.Claims.CompressAndLookup : Prop :=
  (∀ (s : Fin 4) (d a : Fin 32) (st : State), Startable st s (.comp d a) →
    let e := laneWord st s (.comp d a)
    let live := actives e (brickElems e.w)
    ∃ t, exec (.vcomp false s d a) st = .next t ∧ (∀ i, i < brickElems e.w → elem (t.me.brick d.val) e.w i =
        if inVL e.w e.ctl.vl i = false then elem (st.me.brick d.val) e.w i
        else match live[((List.range i).filter (inVL e.w e.ctl.vl)).length]? with
          | some j => elem (st.me.brick a.val) e.w j
          | none => if bitW e.ctl.vm 6 then 0 else elem (st.me.brick d.val) e.w i) ∧
      t.me.ctrl.vl = (if vlBox st.me.ctrl.vl then st.me.ctrl.vl else BitVec.ofNat 64 live.length) ∧
      OtherBricks st.me t.me d.val ∧ t.me.vq = [] ∧ st.me.Passed t.me (st.me.pc + 4) ∧ st.me.Wrote t.me 0 0 ∧
      t.me.flags = st.me.flags ∧ st.OnlyMe t) ∧
  ∀ (s : Fin 4) (d a : Fin 32) (h : Bool) (n : Fin 8) (f : BitVec 8) (st : State), Startable st s (.tbl d a h n f) →
    let e := laneWord st s (.tbl d a h n f)
    ∃ t, exec (.vtbl false s d a n h f) st = .next t ∧ (∀ p, p < 2048 →
        let i := p - (if h then 1024 else 0)
        let x := elem (st.me.brick d.val) 16 i
        elem (t.me.brick d.val) 8 p =
          if p < (if h then 1024 else 0) ∨ 1024 ≤ i ∨ inVL 16 e.ctl.vl i = false then elem (st.me.brick d.val) 8 p
          else if e.on i then (if x < 2048 * (n.val + 1) then elem (st.me.brick (a.val + x / 2048)) 8 (x % 2048) else f.toNat)
          else if bitW e.ctl.vm 6 then 0 else elem (st.me.brick d.val) 8 p) ∧
      OtherBricks st.me t.me d.val ∧ Performed st t ∧ t.me.flags = st.me.flags

/-- The words that move elements within bricks (R221 to R227). -/
def Obligations.LaneMoveWords : Prop := Claims.LaneMoves ∧ Claims.CompressAndLookup

/-- The reductions and VSCAN (R229, R230, R98, R99): element 0 of the destination takes the tree of the active elements, and with VSCAN
each active element takes the tree of those up to it, with the flags that the combinations raise; for an integer sum that is their
sum modulo 2^w, and no flag. -/
def Obligations.Reductions : Prop :=
  (∀ (i : Instr) (s : Fin 4) (f : VRed) (d a : Fin 32) (st : State), laneOp i = some (false, s, .red f d a) →
    Startable st s (.red f d a) →
    let e := laneWord st s (.red f d a)
    let v := elem (st.me.brick a.val) e.w
    let tree := reduceBelow (redCombine f e.fmt e.rnd) (groupElems e.w) (e.live (st.me.brick a.val)) 8
    ∃ t, exec i st = .next t ∧ elem (t.me.brick d.val) e.w 0 = tree.1.getD (redNone f e.fmt (e.rnd 0).inf) % 2 ^ e.w ∧
      (f = .sum → e.fmt.isInt = true → elem (t.me.brick d.val) e.w 0 = ((actives e (brickElems e.w)).map v).sum % 2 ^ e.w) ∧
      (∀ j, 0 < j → j < brickElems e.w → elem (t.me.brick d.val) e.w j = elem (st.me.brick d.val) e.w j) ∧
      RaisedAll e.w st.me t.me tree.2 ∧
      OtherBricks st.me t.me d.val ∧ Performed st t ∧ (e.fmt.isInt = true → t.me.flags = st.me.flags)) ∧
  ∀ (s : Fin 4) (d a : Fin 32) (st : State), Startable st s (.scan d a) →
    let e := laneWord st s (.scan d a)
    let b := st.me.brick a.val
    ∃ t, exec (.vscan false s d a) st = .next t ∧
      Merged e (st.me.brick d.val) (t.me.brick d.val) e.on (fun j => (scanTree e b j).1.getD 0) ∧
      RaisedAll e.w st.me t.me ((actives e (brickElems e.w)).flatMap fun j => (scanTree e b j).2) ∧
      (e.fmt.isInt = true → ∀ j, j < brickElems e.w → e.on j = true →
        elem (t.me.brick d.val) e.w j = ((actives e (j + 1)).map (elem b e.w)).sum % 2 ^ e.w) ∧
      OtherBricks st.me t.me d.val ∧ Performed st t ∧ (e.fmt.isInt = true → t.me.flags = st.me.flags)

/-- The words between scalar registers, elements, masks and links (R227, R231, R232, R235): VEXT, VINS, MPOPC, MFFS, MSET, MGET, NBSET and
NBGET. That NBGET with one register for both images leaves the second in it is the model's choice (log entry 85). -/
def Obligations.ElementAndMaskMoves : Prop :=
  ∀ (st : State) (s : Fin 4) (d a x : Fin 32) (m : Fin 8),
    (∀ op, Startable st s op → let e := laneWord st s op
      let inside := e.inside.filter fun i => (st.me.mask m.val).getLsbD i
      let kept := fun (t : State) => st.me.Passed t.me (st.me.pc + 4) ∧ t.me.vq = [] ∧ t.me.ctrl = st.me.ctrl ∧
        t.me.flags = st.me.flags ∧ st.OnlyMe t
      let regs := fun (t : State) => t.me.b = st.me.b ∧ t.me.m = st.me.m ∧ t.me.links = st.me.links
      (op = .ext d a x → ∃ t, exec (.vext false s d a x) st = .next t ∧ kept t ∧ regs t ∧
        let v := if (st.me.rx x.val).toNat < brickElems e.w ∧ inVL e.w e.ctl.vl (st.me.rx x.val).toNat = true
          then elem (st.me.brick a.val) e.w (st.me.rx x.val).toNat else st.me.ctrl.vf.toNat % 2 ^ e.w
        st.me.Wrote t.me d (if e.fmt.isInt = true ∧ e.fmt.isSigned = true then BitVec.ofInt 64 (sint e.w v) else BitVec.ofNat 64 v)) ∧
      (op = .ins d a x → ∃ t, exec (.vins false s d a x) st = .next t ∧ kept t ∧ st.me.Wrote t.me 0 0 ∧
        OtherBricks st.me t.me d.val ∧ ∀ j, j < brickElems e.w → elem (t.me.brick d.val) e.w j =
          if (st.me.rx x.val).toNat = j ∧ e.on j = true then (st.me.rx a.val).toNat % 2 ^ e.w
          else elem (st.me.brick d.val) e.w j) ∧
      (op = .mpopc d m → ∃ t, exec (.mpopc false s d m) st = .next t ∧ kept t ∧ regs t ∧
        st.me.Wrote t.me d (BitVec.ofNat 64 inside.length)) ∧
      (op = .mffs d m → ∃ t, exec (.mffs false s d m) st = .next t ∧ kept t ∧ regs t ∧
        st.me.Wrote t.me d (BitVec.ofNat 64 (inside.head?.getD 4096))) ∧
      (op = .mset m a x → ∃ t, exec (.mset false s m a x) st = .next t ∧ kept t ∧ st.me.Wrote t.me 0 0 ∧
        OtherMasks st.me t.me m.val ∧ ∀ j, j < 4096 → (t.me.mask m.val).getLsbD j =
          if j / 64 = (st.me.rx x.val).toNat then (st.me.rx a.val).getLsbD (j % 64) else (st.me.mask m.val).getLsbD j) ∧
      (op = .mget d m x → ∃ t, exec (.mget false s d m x) st = .next t ∧ kept t ∧ regs t ∧
        st.me.Wrote t.me d ((st.me.mask m.val).extractLsb' (64 * (st.me.rx x.val).toNat) 64)) ∧
      (op = .nbset d a x → ∃ t, exec (.nbset false s d a x) st = .next t ∧ kept t ∧ st.me.Wrote t.me 0 0 ∧ t.me.b = st.me.b ∧
        t.me.link d.val = (st.me.rx a.val, st.me.rx x.val &&& 0xFFFFFFFFFFF) ∧ ∀ r, r ≠ d.val → t.me.link r = st.me.link r) ∧
      (op = .nbget d a x → ∃ t, exec (.nbget false s d a x) st = .next t ∧ kept t ∧ regs t ∧
        ∀ r : Fin 32, t.me.rx r.val = if r = a ∧ r ≠ 0 then (st.me.link x.val).2
          else if r = d ∧ r ≠ 0 then (st.me.link x.val).1 else st.me.rx r.val))

/-- The offset words (R217, R73, R74): performed whole, with every neighbour found in a register of the thread itself or outside every
brick, each active element takes its operation on the neighbour, read as it stood before the word. -/
def Obligations.OffsetWords : Prop :=
  ∀ (i : Instr) (s : Fin 4) (op : VOp) (float : Bool) (f : VOff) (d a b : Fin 32) (dx dy dz : Off) (st : State) (links : Table Src),
    laneOp i = some (false, s, op) → op = .off float f d a b dx dy dz → Startable st s op →
    st.prepare st.cur (st.entry false s op) = ({ laneWord st s op with res := links }, []) →
    (∀ x ∈ links, x.2 = .fill ∨ ∃ r j, x.2 = .reg st.cur r j) →
    let e := laneWord st s op
    let neighbour := fun (j : Nat) => match tget .fill links j with
      | .reg _ r k => elem (st.me.brick r) e.w k
      | _ => e.ctl.vf.toNat % 2 ^ e.w
    let res := fun (j : Nat) => offElem float f e.fmt (e.rnd j) (elem (st.me.brick d.val) e.w j) (neighbour j) (elem (st.me.brick b.val) e.w j)
    ∃ t, exec i st = .next t ∧ Merged e (st.me.brick d.val) (t.me.brick d.val) e.on (fun j => (res j).1) ∧
      Raised e.w st.me t.me e.on (fun j => (res j).2) ∧ OtherBricks st.me t.me d.val ∧ Performed st t

/-- The vector loads (R240, R243): with memory at rest, each active element takes the bytes at its address. -/
def Sys2Proof.Claims.VectorLoads : Prop :=
  ∀ (i : Instr) (s : Fin 4) (op : VOp) (b : Fin 32) (locs : Table (List Loc)) (st : State), laneOp i = some (false, s, op) →
    ((∃ p x j, op = .ld p b x j) ∨ ∃ x j, op = .ldi b x j) → Startable st s op → AtRest st → Probed st s op locs →
    let e := laneWord st s op
    ∃ t, exec i st = .next t ∧ Merged e (st.me.brick b.val) (t.me.brick b.val) e.on (loaded st e locs) ∧
      OtherBricks st.me t.me b.val ∧ t.me.vq = [] ∧ st.me.Passed t.me (st.me.pc + 4) ∧ st.me.Wrote t.me 0 0 ∧
      t.me.ctrl = st.me.ctrl ∧ t.me.flags = st.me.flags ∧ (∀ p, t.peek p = st.peek p) ∧ ∀ c, c ≠ st.cur → t.ctx c = st.ctx c

/-- The vector stores (R240, R241, R243, R244): with memory at rest, one counted write with a part for each active element, in ascending
order, is in flight, and no byte has changed yet; VSTX leaves its parts among the thread's loose writes (R116). -/
def Sys2Proof.Claims.VectorStores : Prop :=
  ∀ (i : Instr) (s : Fin 4) (op : VOp) (b : Fin 32) (locs : Table (List Loc)) (st : State), laneOp i = some (false, s, op) →
    ((∃ p x j, op = .st p b x j) ∨ (∃ x j, op = .sti b x j) ∨ ∃ x j, op = .stia b x j) → Startable st s op → AtRest st →
    Probed st s op locs →
    let e := laneWord st s op
    let parts := (actives e (brickElems e.w)).flatMap (storedPart st e locs b)
    ∃ t, exec i st = .next t ∧
      (op.isLoose = false → ∃ w, t.writes = [w] ∧ w.ctx = st.cur ∧ w.num = st.issued.at (dieOf (coreOf st.cur)) + 1 ∧
        w.id = st.me.wic + 1 ∧ w.growing = false ∧ w.parts = parts ∧ t.me.wic = st.me.wic + 1 ∧ t.me.loose = []) ∧
      (op.isLoose = true → t.writes = [] ∧ t.me.wic = st.me.wic ∧ t.me.loose = parts.map fun p => ⟨p, st.me.icnt⟩) ∧
      t.me.b = st.me.b ∧ t.me.m = st.me.m ∧ t.me.vq = [] ∧ st.me.Passed t.me (st.me.pc + 4) ∧ st.me.Wrote t.me 0 0 ∧
      (∀ p, t.peek p = st.peek p) ∧ ∀ c, c ≠ st.cur → t.ctx c = st.ctx c

/-- The vector loads and stores with memory at rest (R240 to R244). -/
def Obligations.VectorLoadsAndStores : Prop := Claims.VectorLoads ∧ Claims.VectorStores

/-- ALD and SCLD load a table and a scale register (R234, R247); VLDA and GATHB start the landing of their groups, and GATHB marks
the active elements whose index an earlier active one has (R245, R246); WAITV begins to wait for its flags (R248). -/
def Obligations.VectorMemoryOthers : Prop :=
  ∀ (st : State) (s : Fin 4) (locs : Table (List Loc)), AtRest st →
    (∀ (j : Fin 8) (x : Fin 32), Startable st s (.ald j x) → Probed st s (.ald j x) locs →
      let img : BitVec 576 := BitVec.ofNat 576 (leNat ((tget [] locs 0).map fun l => st.peek (st.visible l)))
      badTable img = false → ∃ t, exec (.ald false s j x) st = .next t ∧ t.me.table j.val = img ∧
        (∀ n, n ≠ j.val → t.me.table n = st.me.table n) ∧ t.me.b = st.me.b ∧ t.me.vq = [] ∧ st.me.Passed t.me (st.me.pc + 4)) ∧
    (∀ (k : Fin 4) (a b : Fin 32), Startable st s (.scld k a b) → Probed st s (.scld k a b) locs →
      ∃ t, exec (.scld s k a b) st = .next t ∧ (∀ i, i < 512 → (t.me.scale k.val).extractLsb' (8 * i) 8 =
          st.peek (st.visible ((tget [] locs i).headD (.phys 0)))) ∧
        (∀ n, n ≠ k.val → t.me.scale n = st.me.scale n) ∧ t.me.b = st.me.b ∧ t.me.vq = [] ∧ st.me.Passed t.me (st.me.pc + 4)) ∧
    (∀ (b x i : Fin 32), Startable st s (.lda b x i) → Probed st s (.lda b x i) locs →
      let e := laneWord st s (.lda b x i)
      ∃ t, exec (.vlda false s b x i) st = .next t ∧
        (t.me.landing.map fun l => (l.reg, l.group, l.entry.locs)) = (groupsInVL e.w e.ctl.vl).map (fun g => (b.val, g, locs)) ∧
        (∀ g ∈ groupsInVL e.w e.ctl.vl, (t.me.land b.val).getLsbD g = false) ∧ t.me.b = st.me.b ∧ t.me.vq = [] ∧
        st.me.Passed t.me (st.me.pc + 4)) ∧
    (∀ (b x i : Fin 32) (m : Fin 8), Startable st s (.gathb b x i m) → Probed st s (.gathb b x i m) locs →
      let e := laneWord st s (.gathb b x i m)
      let idx := elem (st.me.brick i.val) e.w
      ∃ t, exec (.gathb false s b x i m) st = .next t ∧
        (t.me.landing.map fun l => (l.reg, l.group, l.entry.locs)) = (groupsInVL e.w e.ctl.vl).map (fun g => (b.val, g, locs)) ∧
        (∀ j, j < 4096 → (t.me.mask m.val).getLsbD j =
          if j < brickElems e.w ∧ inVL e.w e.ctl.vl j = true then (e.on j && (actives e j).any fun h => idx h == idx j)
          else (st.me.mask m.val).getLsbD j) ∧ OtherMasks st.me t.me m.val ∧ t.me.vq = [] ∧ st.me.Passed t.me (st.me.pc + 4)) ∧
    ∀ (m : Fin 8) (a b x : Fin 32), Startable st s (.waitv m a b x) → Probed st s (.waitv m a b x) locs →
      let e := laneWord st s (.waitv m a b x)
      ∃ t, exec (.waitv false s m a b x) st = .next t ∧ t.me.pc = st.me.pc + 4 ∧ t.me.vq.length = 1 ∧ t.me.waited = 0 ∧
        t.me.wait = some (.flags m ((actives e (brickElems e.w)).map fun i =>
          ⟨i, BitVec.ofNat 64 (elem (st.me.brick a.val) 64 i), BitVec.ofNat 64 (elem (st.me.brick b.val) 64 i), false, {}⟩)
          e.ctl st.me.icnt (st.me.rx x.val))

/-! ### Events of memory and of the sequencers -/

namespace Sys2Proof.Claims

open Sys2Proof.Machine

/-- Only the contexts of the list may have changed. -/
structure OnlyCtxs (st t : State) (l : List Nat) : Prop where
  rest : { t with ctxs := st.ctxs } = st
  ctxs : ∀ c, c ∉ l → t.ctx c = st.ctx c

/-- The machine as context c issues in it. -/
def seenBy (st : State) (c : Nat) : State := { st with cur := c }

/-- A thread's wait ends with a result: its word is done, xd holds v, and nothing else of the module has changed. -/
def Ended (st t : State) (c : Nat) (d : Fin 32) (v : Word) : Prop :=
  (seenBy st c).WroteReg (seenBy t c) d v ((st.ctx c).pc + 4) ∧ t.cur = st.cur

/-- A timed wait that has a limit and is not met: its destination, and what it gives when the time is up (08 R203, R205, R208). -/
def timedOut (st : State) (c : Nat) : Wait → Option (Fin 32 × Word)
  | .token d core slot gen t => if t ≠ 0 ∧ (seenBy st c).tokenReady core slot gen = false then some (d, 3) else none
  | .any d m t | .ffr d m t => if t ≠ 0 ∧ (seenBy st c).anyReady m = false then some (d, 64) else none
  | .all d m t => if t ≠ 0 ∧ (seenBy st c).allReady m = false then some (d, 2) else none
  | .chunks d first n t => if t ≠ 0 ∧ (seenBy st c).chunksReady first n = false then some (d, 1) else none
  | _ => none

/-- A link that has not failed, with room in its replay buffer and nothing waiting for it, so that a message leaves by it at once (19
R348). -/
def Clear (st : State) (n : Nat) : Prop :=
  let l := tget {} st.links n
  l.failed = false ∧ l.held.length < 2 ^ 16 ∧ l.waiting = []

/-- A wait for room or for an earlier result: the word is issued again once its need is met (02 R44, 07 R167, 09 R223, R234, 10 R249). -/
def reissues (st : State) (c : Nat) : Wait → Prop
  | .queue full => ∀ q ∈ full, (st.ctx c).queueFull q = false
  | .vl => (st.ctx c).vlPending = false
  | .ald => (st.ctx c).loadingTable = false
  | .bricks => (st.ctx c).writing = false
  | .slot => st.freeSlots (coreOf c) ≠ [] ∨ (seenBy st c).slotsStuck (coreOf c) = true
  | .retry => True
  | _ => False

/-- The result of a wait whose condition holds, for the waits that change nothing else than registers and clocks (08 R198, R205, R208, 02
R50, 15 R288). -/
def metWith (st : State) (c : Nat) : Wait → Option (Fin 32 × Word)
  | .any d m _ | .ffr d m _ => if st.masked m = [] then some (d, 65) else none
  | .chunks d first n _ => if (List.range n).all (fun i => (st.core (coreOf c)).chunks.getLsbD (first + i)) then some (d, 0) else none
  | .tryPop d => if (st.core (coreOf c)).fifo.all (fun e => e.r.gen || e.r.lid != st.myLid || e.lent.isSome) then some (d, 1) else none
  | .pwait d => let l := st.launch st.myPart st.myLid
    if l.pred = none ∧ st.me.thread ≠ none then some (d, BitVec.ofNat 64 l.predStat) else none
  | .ctxsv d k uid _ => if (st.ctx k).thread = none ∨ (st.ctx k).uid ≠ uid then some (d, 1) else none
  | _ => none

/-- No line of memory is lost (17 R325), so that a read or write of it meets no error and rebuilds nothing. -/
def Whole (st : State) : Prop := st.badLines = [] ∧ st.deadChannels = []

/-- Nothing but a context and what the translation buffers of cores hold has changed. -/
structure OnlyBuffers (st t : State) (c : Nat) : Prop where
  rest : { t with ctxs := st.ctxs, cores := st.cores } = st
  cores : ∀ k, { t.core k with tlb := [] } = { st.core k with tlb := [] }
  ctxs : ∀ k, k ≠ c → t.ctx k = st.ctx k

/-- An integer word on two bricks of its own convoy, at the head of the queues of context c, with an integer format and a legal
length, that reads no failed slot (09 R210, R212, 18 R345). -/
structure HeadWord (st : State) (c : Nat) (e : VEntry) (f : VInt) (d a b : Fin 32) : Prop where
  head : (st.ctx c).vq.head? = some e ∧ e.cv = false ∧ e.op = .int f d a b ∧ e.resumed = false
  legal : e.fmt.isInt = true ∧ vlFits e.w e.ctl.vl = true
  sound : st.badCells = []
  runs : st.vecRuns c = true

end Sys2Proof.Claims

/-- WRITE_APPLY, LOOSE_WRITE_APPLY, WRITE_ACKNOWLEDGE and FRONTIER_RECEIVE (R116, R117, R119, R122, R33): a part of a numbered write whose
clock its homes' frontiers cover, and whose turn it is among its thread's writes, leaves its bytes in memory with its number and
clock, at a moment later than all before, and no other byte changes, and what is left of its access goes to the same backing (R134); a loose
write does, without a number. A write wholly applied is acknowledged: WDC steps, unless its core has stopped (R355), and for a write of the host the completion leaves. A die's frontier is the largest number up to which its
writes are applied, and another die learns it, unless the link between them has failed (R17). -/
def Sys2Proof.Claims.WritesAtHomes : Prop :=
  ∀ (st : State), Whole st →
    (∀ (i n : Nat) (w : Write) (p : WPart), st.writes[i]? = some w → w.parts[n]? = some p →
      let pas := p.locs.map st.visible
      pas.Nodup → p.bytes.length = pas.length → (p.nibble ≠ none → pas.length = 1) →
      (st.applicable w pas = true → st.stoppedAhead w.ctx (some w.die.val) w.clock pas = false →
        st.inOrder i w (w.parts.take n) p = true → ∃ t, exec (.writeApply i n) st = .next t ∧
        pas.map t.peek = (p.leaves (pas.map fun x => (st.last x).val)).1 ∧ (∀ x, x ∉ pas → t.peek x = st.peek x) ∧
        t.time = st.time + 1 ∧ (∀ x ∈ pas, (t.last x).num = w.num ∧ (t.last x).clock = w.clock ∧ (t.last x).time = st.time + 1) ∧
        t.writes = mapAt (fun w => { w with parts := (dropAt w.parts n).map (st.stay p) }) st.writes i ∧
        t.cores = st.cores ∧ ∀ c, c ≠ w.ctx → t.ctx c = st.ctx c) ∧
      (st.applicable w pas = false ∨ st.stoppedAhead w.ctx (some w.die.val) w.clock pas = true ∨
        st.inOrder i w (w.parts.take n) p = false → exec (.writeApply i n) st = .next st)) ∧
    (∀ (c i : Nat) (l : Loose) (p : Nat), (st.ctx c).loose[i]? = some l → (st.ctx c).vq = [] →
      let pas := l.part.locs.map st.visible
      pas.Nodup → l.part.bytes.length = pas.length → (l.part.nibble ≠ none → pas.length = 1) →
      (∀ q ∈ (st.ctx c).loose.take i, ∀ x ∈ q.part.locs, st.visible x ∉ pas) → ∃ t, exec (.looseWriteApply c i) st = .next t ∧
        pas.map t.peek = (l.part.leaves (pas.map fun x => (st.last x).val)).1 ∧ (p ∉ pas → t.peek p = st.peek p) ∧
        (p ∈ pas → (t.last p).num = 0) ∧ t.writes = st.writes ∧ (t.ctx c).loose = (dropAt (st.ctx c).loose i).map (fun q =>
          if q.icnt = l.icnt then { q with part := st.stay l.part q.part } else q) ∧
        ∀ k, k ≠ c → t.ctx k = st.ctx k) ∧
    (∀ (i : Nat) (w : Write), st.writes[i]? = some w → w.parts = [] → w.growing = false →
      ∃ t, exec (.writeAcknowledge i) st = .next t ∧ t.writes = dropAt st.writes i ∧
        (w.ctx < noCtx → (st.core (coreOf w.ctx)).stopped = false →
          t.ctx w.ctx = { st.ctx w.ctx with wdc := (st.ctx w.ctx).wdc + 1 }) ∧
        ((st.core (coreOf w.ctx)).stopped = true → w.ctx < noCtx → t.ctx w.ctx = st.ctx w.ctx) ∧
        (∀ c, c ≠ w.ctx → t.ctx c = st.ctx c) ∧
        (w.ctx = noCtx → Clear st 32 → t.out = st.out ++ [.completion (w.id - 1) 0 []]) ∧
        (t.knownAt w.die.val).at w.die.val = max ((st.knownAt w.die.val).at w.die.val) (t.frontier w.die.val) ∧
        ∀ x, t.peek x = st.peek x) ∧
    ∀ (d e : Fin 4), st.fabric = [] →
      let cut := d ≠ e ∧ (tget {} st.links (dieLink d.val e.val)).failed = true
      ∃ t, exec (.frontierReceive d e) st = .next t ∧
        (t.knownAt e.val).at e.val = max ((st.knownAt e.val).at e.val) (st.frontier e.val) ∧
        (¬ cut → (t.knownAt d.val).at e.val = max ((st.knownAt d.val).at e.val) ((t.knownAt e.val).at e.val)) ∧
        (cut → t.knownAt d.val = st.knownAt d.val) ∧
        (∀ x y : Fin 4, (y ≠ e ∨ (x ≠ d ∧ x ≠ e)) → (t.knownAt x.val).at y.val = (st.knownAt x.val).at y.val) ∧
        { t with known := st.known } = st

/-- READ_SERVE, WAIT_SATISFIED and WAIT_TIMEOUT (R52, R120, R122, R203 to R208, R198, R50, R285, R288, R290, R291, R248): a read that may be
served gives its thread the values its bytes have held since what it may not read behind; a wait for room ends, with its word to be issued
again, and one whose condition holds ends as its word does, with what that word does; a timed wait not met gives its word's code for a time
that has run out. That a load which the thread has gone past is served in the same way, with its word counted already, is the model's
(log entry 96); so are that the issuer of PARK is not waited for (log entry 61), and
that QTRY's status wins where xd is among x8 to x15 (log entry 107). -/
def Sys2Proof.Claims.WaitsEnd : Prop :=
  (∀ (st : State) (c : Nat) (r : Deferred) (rest : List Deferred), st.ctxRuns c = true → (st.ctx c).wait = none →
    (st.ctx c).reads = r :: rest → (seenBy st c).readReady r.locs = true →
    let pas := r.locs.map st.visible
    Sound (seenBy st c) r.va pas → st.histOk → r.locs.length = r.acc.size → 0 < r.acc.size →
    ∃ (t : State) (vs : Nat → Ver), exec (.readServe c) st = .next t ∧
      Read st pas r.acc.size (st.floorOf c (st.ctx c).clock) (st.addr0 r.locs % r.acc.size = 0) vs ∧
      (st.ctx c).Wrote (t.ctx c) r.dst (extended r.acc.zext r.acc.size (leNat ((List.range r.acc.size).map fun k => (vs k).val))) ∧
      (t.ctx c).reads = rest ∧ (t.ctx c).pc = (st.ctx c).pc ∧ (t.ctx c).icnt = (st.ctx c).icnt ∧
      (∀ k, k ≠ c → t.ctx k = st.ctx k) ∧ { t with ctxs := st.ctxs } = st) ∧
  ∀ (st : State) (c : Nat) (w : Wait), st.ctxRuns c = true → (st.ctx c).wait = some w →
    let u := seenBy st c
    let here := coreOf c
    let passed := fun (t : State) (d : Fin 32) (v : Word) => (st.ctx c).Wrote (t.ctx c) d v ∧ (st.ctx c).Passed (t.ctx c) ((st.ctx c).pc + 4)
    (∀ (d : Fin 32) (acc : Acc) (va : Word) (locs : List Loc), w = .read d acc va locs false → st.isMmio locs = false →
      let pas := locs.map st.visible
      u.readReady locs = true → Sound u va pas → st.histOk → locs.length = acc.size → 0 < acc.size →
      ∃ (t : State) (vs : Nat → Ver), exec (.readServe c) st = .next t ∧
        Read st pas acc.size (st.floorOf c (st.ctx c).clock) (st.addr0 locs % acc.size = 0) vs ∧
        passed t d (extended acc.zext acc.size (leNat ((List.range acc.size).map fun k => (vs k).val))) ∧
        (∀ k, k ≠ c → t.ctx k = st.ctx k) ∧ { t with ctxs := st.ctxs } = st) ∧
    (∀ (d : Fin 32) (v : Word), timedOut st c w = some (d, v) → ∃ t, exec (.waitTimeout c) st = .next t ∧ Ended st t c d v) ∧
    (∀ (m : Fin 8) (fs : List Flag) (ctl : VCtl) (n lim : Word) (e : VEntry) (l : List VEntry), w = .flags m fs ctl n lim →
      (st.ctx c).vq = e :: l →
      let ended := fun (t : State) (late : Nat → Bool) => (t.ctx c).vq = l ∧ (t.ctx c).wait = none ∧ (t.ctx c).pc = (st.ctx c).pc ∧
        (t.ctx c).x = (st.ctx c).x ∧ (∀ k, k ≠ c → t.ctx k = st.ctx k) ∧ ∀ i, i < 4096 → ((t.ctx c).mask m.val).getLsbD i =
          if i < brickElems (fmtOf ctl.vt).width ∧ inVL (fmtOf ctl.vt).width ctl.vl i = true then late i
          else ((st.ctx c).mask m.val).getLsbD i
      ((∀ f ∈ fs, f.met = true) → (st.ctx c).fences = [] → ∃ t, exec (.waitSatisfied c) st = .next t ∧ ended t fun _ => false) ∧
      (∀ (f : Flag) (acq : Clock) (pas : List Nat) (vs : List Ver), fs = [f] → f.met = false → u.readFlag e f = .met acq pas vs →
        (st.ctx c).fences = [] → ∃ t, exec (.waitSatisfied c) st = .next t ∧ (ended t fun _ => false) ∧
          (t.ctx c).clock = (st.ctx c).clock.join acq ∧ (t.ctx c).looseFrom = st.time) ∧
      (lim ≠ 0 → fs.all (·.met) = false → ∃ t, exec (.waitTimeout c) st = .next t ∧
        ended t fun i => fs.any fun f => !f.met && f.elem == i)) ∧
    ((st.ctx c).fences = [] →
     (reissues st c w → ∃ t, exec (.waitSatisfied c) st = .next t ∧ t.ctx c = { st.ctx c with wait := none } ∧ OnlyCtxs st t [c]) ∧
     (w = .stall → (st.ctx c).vq = [] → (st.ctx c).opened = [] → (st.ctx c).landing = [] →
       ∃ t, exec (.waitSatisfied c) st = .next t ∧ Ended st t c 0 0) ∧
     (∀ (d : Fin 32) (v : Word), metWith u c w = some (d, v) → ∃ t, exec (.waitSatisfied c) st = .next t ∧ passed t d v ∧
       t.cores = st.cores ∧ (∀ k, k ≠ c → t.ctx k = st.ctx k) ∧ ∀ p, t.peek p = st.peek p) ∧
     (∀ (d : Fin 32) (core slot gen : Nat) (lim : Word), w = .token d core slot gen lim → (st.slot core slot).gen = gen →
       (st.slot core slot).st.terminal = true → u.ownsSlot (st.slot core slot) = true →
       ∃ t, exec (.waitSatisfied c) st = .next t ∧ passed t d (endCode (st.slot core slot).st) ∧
         t.slot core slot = reportedSlot (st.slot core slot) ∧ SlotsKept st t [(core, slot)] ∧ ∀ k, k ≠ c → t.ctx k = st.ctx k) ∧
     (∀ (d : Fin 32) (m lim : Word) (i : Nat) (l : List Nat), u.maskedEnded m = i :: l →
       (w = .any d m lim → ∃ t, exec (.waitSatisfied c) st = .next t ∧ passed t d (BitVec.ofNat 64 i) ∧
         t.slot here i = reportedSlot (st.slot here i) ∧ SlotsKept st t [(here, i)] ∧ ∀ k, k ≠ c → t.ctx k = st.ctx k) ∧
       (w = .ffr d m lim → ∃ t j, exec (.waitSatisfied c) st = .next t ∧ passed t d (BitVec.ofNat 64 j) ∧ j ∈ i :: l ∧ (t.ctx c).sptr = j ∧
         (i :: l).find? ((st.ctx c).sptr < ·) = (if (st.ctx c).sptr < j then some j else none) ∧ (j ≤ (st.ctx c).sptr → j = i) ∧
         t.slot here j = reportedSlot (st.slot here j) ∧ SlotsKept st t [(here, j)] ∧ ∀ k, k ≠ c → t.ctx k = st.ctx k)) ∧
     (∀ (d : Fin 32) (m lim : Word), w = .all d m lim → ((u.masked m).all fun e => e.2.st.terminal) = true →
       ∃ t, exec (.waitSatisfied c) st = .next t ∧ passed t d (if (u.masked m).any (fun e => e.2.st ≠ .done) then 1 else 0) ∧
         (∀ e ∈ u.masked m, (st.slot here e.1).st = .done → (t.slot here e.1).st = .free) ∧
         SlotsKept st t ((u.masked m).map fun e => (here, e.1)) ∧ ∀ k, k ≠ c → t.ctx k = st.ctx k) ∧
     (∀ (pre post : List QEntry) (e : QEntry), (st.core here).fifo = pre ++ e :: post → (∀ x ∈ pre, ¬ mine u x) → mine u e →
       st.ackedTo e.prod e.wic = true → (w = .pop ∨ ∃ d, w = .tryPop d) →
       ∃ t, exec (.waitSatisfied c) st = .next t ∧ (t.core here).fifo = pre ++ post ∧
         (∀ r : Fin 32, (∀ d, w = .tryPop d → r ≠ d) → (t.ctx c).rx r.val =
           if 8 ≤ r.val ∧ r.val < 16 then e.r.dw (r.val - 8) else (st.ctx c).rx r.val) ∧
         (∀ d : Fin 32, w = .tryPop d → (t.ctx c).rx d.val = 0) ∧ (st.ctx c).Passed (t.ctx c) ((st.ctx c).pc + 4) ∧
         (t.ctx c).clock = (st.ctx c).clock.join e.clock ∧ (t.ctx c).looseFrom = st.time ∧ ∀ k, k ≠ c → t.ctx k = st.ctx k) ∧
     (∀ (d : Fin 32) (n : Nat), w = .halt d n → st.haltReady n = true → ∃ t, exec (.waitSatisfied c) st = .next t ∧ passed t d 0 ∧
       t.core n = { st.core n with halted := true, halting := false } ∧ (∀ k, k ≠ n → t.core k = st.core k) ∧
       ∀ k, k ≠ c → t.ctx k = st.ctx k) ∧
     (∀ (d : Fin 32) (p : Nat), w = .park d p → (∀ x ∈ st.residents p, x = c) →
       (∀ k ∈ st.coresOf p, ∀ e ∈ (st.core k).slots, e.2.pending = true → e.2.st = .parked) →
       ∃ t, exec (.waitSatisfied c) st = .next t ∧ passed t d 0 ∧ (t.part p).parked = true ∧ (t.part p).parking = false ∧
         (∀ q, q ≠ p → t.part q = st.part q) ∧ t.cores = st.cores ∧ ∀ k, k ≠ c → t.ctx k = st.ctx k) ∧
     (∀ (d : Fin 32) (kind : Nat) (va : Word), w = .tlbi d kind va → u.tlbiReady kind = true →
       let cs := if kind = 2 then List.range 160 else st.coresOf u.myPart
       ∃ t, exec (.waitSatisfied c) st = .next t ∧ Answered u (seenBy t c) d 0 id ∧
         (∀ k ∈ cs, ∀ x, x ∈ (t.core k).tlb ↔ x ∈ (st.core k).tlb ∧ ¬ dropped kind u.myPart va x) ∧
         (∀ k, k ∉ cs → t.core k = st.core k) ∧ ∀ p, t.peek p = st.peek p) ∧
     ∀ (d : Fin 32) (k uid pa : Nat), w = .ctxsv d k uid pa → k ≠ c → (st.ctx k).thread ≠ none → (st.ctx k).uid = uid →
       (st.ctx k).saving = none → ∃ t, exec (.waitSatisfied c) st = .next t ∧ (t.ctx c).wait = some w ∧
         (∃ r, (t.ctx k).saving = some r ∧ r.pa = pa ∧ r.by_ = some c ∧ r.park = false) ∧ ∀ j, j ≠ c → j ≠ k → t.ctx j = st.ctx j)

/-- The events of writes in flight, and of threads that wait (R116 to R122, R52). -/
def Obligations.MemoryEvents : Prop := Claims.WritesAtHomes ∧ Claims.WaitsEnd

/-- VECTOR_WORD_START and CONVOY_STEP (R168, R172, R173): a convoy whose checks and probes find nothing starts, with its activity fixed;
what a word finds is trapped before anything is written, but that a page in the move is waited for. At a step every word of the convoy whose
turn it is processes one group, where no word stands still for another (log entry 97), and a convoy wholly finished leaves the queue; an integer word on two bricks writes the group of its destination (R66, R212). -/
def Obligations.ConvoyEvents : Prop :=
  ∀ (st : State) (c : Nat),
    (∀ (e : VEntry) (f : VInt) (d a b : Fin 32), HeadWord st c e f d a b → e.started = false →
      ∃ t e', exec (.vectorWordStart c) st = .next t ∧ (t.ctx c).vq = e' :: (st.ctx c).vq.drop 1 ∧ e'.started = true ∧
        e'.act = (st.ctx c).mask (fldW e.ctl.vm 0 3) ∧ e'.op = e.op ∧ e'.prog = e.prog ∧
        { t.ctx c with vq := [], vstep := 0 } = { st.ctx c with vq := [], vstep := 0 } ∧ OnlyCtxs st t [c]) ∧
    (∀ (e : VEntry) (f : VInt) (d a b : Fin 32) (g : Nat), HeadWord st c e f d a b → e.started = true → e.late = false →
      e.olds = [] → (st.ctx c).landing = [] → e.groups[e.prog]? = some g → e.prog ≤ (st.ctx c).vstep →
      let k := st.ctx c
      let view := if bitW e.ctl.vm 5 then e.act else k.mask (fldW e.ctl.vm 0 3)
      ∃ t, exec (.convoyStep c) st = .next t ∧
        (∀ j, j < brickElems e.w → j / groupElems e.w = g → elem ((t.ctx c).brick d.val) e.w j =
          if inVL e.w e.ctl.vl j = false then elem (k.brick d.val) e.w j
          else if active e.w e.ctl.vl e.ctl.vm view j then
            (intElem f e.fmt (elem (k.brick a.val) e.w j) (elem (k.brick b.val) e.w j)).1 % 2 ^ e.w
          else if bitW e.ctl.vm 6 then 0 else elem (k.brick d.val) e.w j) ∧
        OtherBricks k (t.ctx c) d.val ∧ OnlyCtxs st t [c]) ∧
    (let es := markLate [] (firstConvoy (st.ctx c).vq)
     let ws := es.map fun e => (st.prepare c e).1
     Whole st → st.vecRuns c = true → es ≠ [] → (∀ e ∈ (st.ctx c).vq.head?, e.started = false) → (∀ e ∈ ws, (st.ctx c).indexLanded e = true) →
     ((∀ e ∈ es, (st.prepare c e).2 = []) → bitW (st.ctx c).ctrl.dchk 0 = false → ∃ t, exec (.vectorWordStart c) st = .next t ∧
       (t.ctx c).vq = (ws.map fun e => { e with started := true }) ++ (st.ctx c).vq.drop es.length ∧
       { t.ctx c with vq := [], vstep := 0 } = { st.ctx c with vq := [], vstep := 0 } ∧ OnlyBuffers st t c) ∧
     (∀ (e : VEntry) (f : Found), es = [e] → (st.prepare c e).2 = [f] → f.2.1 ≠ 0 → (st.ctx c).sys.cpl = .u →
       ∃ t, exec (.vectorWordStart c) st = .next t ∧ (t.ctx c).sys.cpl = .s ∧ (t.ctx c).sys.epc = (st.ctx c).resumeAt ∧
         (t.ctx c).sys.ecause = cause true f.2.1 ∧ (t.ctx c).vq = (st.ctx c).vq ∧ (t.ctx c).b = (st.ctx c).b ∧
         (t.ctx c).m = (st.ctx c).m ∧ (∀ k, k ≠ c → t.ctx k = st.ctx k) ∧ ∀ x, t.peek x = st.peek x)) ∧
    let conv := st.convoy c
    let due := dueAt (st.ctx c).vstep conv
    let after := fun (j : Nat) (e : VEntry) => e.prog + (if (due.map (·.1)).contains j then 1 else 0)
    st.vecRuns c = true → (∀ e ∈ (st.ctx c).vq.head?, e.started = true ∧ e.op.solo = false) → (st.ctx c).vq ≠ [] →
    (∀ x ∈ conv, x.1.late = false) →
    (∀ j g e d, (j, g) ∈ due → conv[j]? = some (e, d) → e.prog + d = (st.ctx c).vstep ∧
      st.ownHolds c ((conv.take j).map (·.1)) e g = false ∧ readsAhead c (conv.take j) e g = false) →
    (∀ j g e d, (j, g) ∈ due → conv[j]? = some (e, d) → st.groupReady c e g = true) →
    ∃ t, exec (.convoyStep c) st = .next t ∧
      ((∀ j e d, conv[j]? = some (e, d) → e.groups.length ≤ after j e) →
        (t.ctx c).vq = (st.ctx c).vq.drop conv.length ∧ (t.ctx c).vstep = 0) ∧
      ((∃ j e d, conv[j]? = some (e, d) ∧ after j e < e.groups.length) → (t.ctx c).vstep = (st.ctx c).vstep + 1 ∧
        ∀ j e d, conv[j]? = some (e, d) → ∃ e', (t.ctx c).vq[j]? = some e' ∧ e'.prog = after j e ∧ e'.op = e.op ∧ e'.act = e.act) ∧
      (t.ctx c).x = (st.ctx c).x ∧ (t.ctx c).pc = (st.ctx c).pc ∧ (t.ctx c).sys = (st.ctx c).sys ∧
      (∀ k, k ≠ c → t.ctx k = st.ctx k) ∧ ∀ x, t.peek x = st.peek x

/-- REMOTE_GROUP_SERVE and GROUP_LAND (R76, R78, R245, R246): a landed group of another context is served whole to the first word that needs
it. A landing group takes the bytes of its active elements, and its landed bit is set when no later word writes the group. -/
def Obligations.GroupEvents : Prop :=
  ∀ (st : State) (c : Nat),
    (∀ (src j : Nat) (r : Fin 32) (g : Fin 8) (e : VEntry), (firstConvoy (st.ctx c).vq)[j]? = some e →
      e.needsRemote c src r.val g.val = true →
      (∀ i e', i < j → (firstConvoy (st.ctx c).vq)[i]? = some e' → e'.needsRemote c src r.val g.val = false) →
      (∀ l ∈ (st.ctx src).landing, l.reg ≠ r.val ∨ l.group ≠ g.val) → ((st.ctx src).land r.val).getLsbD g.val = true →
      ∃ t, exec (.remoteGroupServe c src r g) st = .next t ∧ (t.ctx c).vq = mapAt (fun e => { e with
          served := e.served ++ [⟨src, r.val, g.val, groupOf ((st.ctx src).brick r.val) g.val⟩] }) (st.ctx c).vq j ∧
        { t.ctx c with vq := [] } = { st.ctx c with vq := [] } ∧ OnlyCtxs st t [c]) ∧
    ∀ (r : Fin 32) (g : Fin 8) (pre post : List Landing) (l : Landing), (st.ctx c).landing = pre ++ l :: post →
      (∀ q ∈ pre, q.reg ≠ r.val ∨ q.group ≠ g.val) → l.reg = r.val → l.group = g.val → l.after = [] → l.got = [] →
      AtRest (seenBy st c) → st.landReady c l = true →
      let e := l.entry
      e.op.lands = some r.val →
      ∃ t, exec (.groupLand c r g) st = .next t ∧
        ((t.ctx c).landing.map fun q => (q.reg, q.group, q.entry)) = (pre ++ post).map (fun q => (q.reg, q.group, q.entry)) ∧
        (∀ j, j < brickElems e.w → elem ((t.ctx c).brick r.val) e.w j =
          if j / groupElems e.w ≠ g.val ∨ inVL e.w e.ctl.vl j = false then elem ((st.ctx c).brick r.val) e.w j
          else if e.on j then loaded st e e.locs j % 2 ^ e.w
          else if bitW e.ctl.vm 6 then 0 else elem ((st.ctx c).brick r.val) e.w j) ∧
        ((∀ q ∈ post, q.reg ≠ r.val ∨ q.group ≠ g.val) → (st.ctx c).vq = [] → (st.ctx c).opened = [] →
          ((t.ctx c).land r.val).getLsbD g.val = true) ∧
        OtherBricks (st.ctx c) (t.ctx c) r.val ∧ (∀ k, k ≠ c → t.ctx k = st.ctx k) ∧ ∀ x, t.peek x = st.peek x

/-! ### Events of the dispatcher and the task queues -/

namespace Sys2Proof.Claims

open Sys2Proof.Machine

/-- Only the cores of the list may have changed. -/
structure OnlyCores (st t : State) (l : List Nat) : Prop where
  rest : { t with cores := st.cores } = st
  cores : ∀ c, c ∉ l → t.core c = st.core c

/-- A context has taken a record (02 R29, R34): the thread of its launch starts at CODE at U, with FRAME in x3, the record in x8 to x15
and 0 in every other scalar register, no flag raised, and the clock of the record joined into its own, as by an acquire load; its vector registers are
cleared unless the thread before was of the same launch. -/
structure Begun (st t : State) (c : Nat) (r : Rec8) (k : Clock) : Prop where
  thread : (t.ctx c).thread = some ⟨r, st.partOf (coreOf c), r.lid, (st.launch (st.partOf (coreOf c)) r.lid).job, st.nextOrder⟩
  at_ : (t.ctx c).pc = r.d0 ∧ (t.ctx c).sys.cpl = .u ∧ (t.ctx c).icnt = 0 ∧ (t.ctx c).wait = none
  regs : ∀ i : Fin 32, (t.ctx c).rx i.val = if i = 3 then r.d1 else if 8 ≤ i.val ∧ i.val < 16 then r.dw (i.val - 8) else 0
  flags : (t.ctx c).flags = []
  clock : (t.ctx c).clock = (st.ctx c).clock.join k ∧ (t.ctx c).looseFrom = st.time
  fresh : (st.ctx c).prev ≠ some (st.partOf (coreOf c), r.lid) → (t.ctx c).b = [] ∧ (t.ctx c).m = [] ∧ (t.ctx c).k = [] ∧
    (t.ctx c).links = [] ∧ (t.ctx c).tabs = [] ∧ (t.ctx c).ctrl = { ({} : Ctrl) with opri := BitVec.ofNat 64 r.pri }
  same : (st.ctx c).prev = some (st.partOf (coreOf c), r.lid) → (t.ctx c).b = (st.ctx c).b ∧ (t.ctx c).m = (st.ctx c).m ∧
    (t.ctx c).k = (st.ctx c).k ∧ (t.ctx c).links = (st.ctx c).links ∧ (t.ctx c).tabs = (st.ctx c).tabs ∧ (t.ctx c).ctrl = (st.ctx c).ctrl
  others : ∀ k, k ≠ c → t.ctx k = st.ctx k
  bytes : ∀ x, t.peek x = st.peek x

/-- The record of block n of a launch (02 R27, 16 R303): CODE and FRAME of the descriptor, the launch id with GEN and the queue's PRI,
and the block's place in the grid. -/
def blockRecord (l : Launch) (lid pri n : Nat) : Rec8 :=
  ⟨l.desc.d0, l.desc.d1, 0, BitVec.ofNat 64 (lid + 2 ^ 32 + pri * 2 ^ 34), BitVec.ofNat 64 (n % l.gx), BitVec.ofNat 64 (n / l.gx % l.gy),
    BitVec.ofNat 64 (n / l.gx / l.gy), BitVec.ofNat 64 n⟩

/-- An entry whose effective priority has risen a level, to 3 at most (02 R53). -/
def older (e : QEntry) : QEntry := { e with eff := min 3 (e.eff + 1) }

/-- The place where a context's image has a scalar register (18 R340). -/
def imageReg (pa r : Nat) : Nat := pa + 0x11800 + 8 * r

end Sys2Proof.Claims

/-- TASK_TAKE, DISPATCH_GENERATE and DISPATCH_PREEMPT (R29, R303 to R306): a free context takes the first record of its core that it may,
once the record's stamp is met, unless a generated one goes before it, or the thread that was pre-empted of it; the dispatcher
generates the next block of the launch it serves next onto the context that R305 names; for a queue of PRI 3 with no context
free it asks a victim to stop, unless the victim's context would go to work of the launch's predecessor (R49). -/
def Sys2Proof.Claims.TaskStarts : Prop :=
  ∀ (st : State) (c : Nat),
    let p := st.partOf (coreOf c)
    st.partRuns p = true →
    (∀ (i : Nat) (e : QEntry), st.freeCtx c = true → st.poolFor p c = none → st.recordFor p c = some (i, e) →
      atMost (st.generatedFor p c) e.eff = true → st.stampMet e = true → ∃ t, exec (.taskTake c) st = .next t ∧
        (t.core (coreOf c)).fifo = dropAt (st.core (coreOf c)).fifo i ∧ Begun st t c e.r e.clock ∧ t.parts = st.parts ∧
        ∀ k, k ≠ coreOf c → t.core k = st.core k) ∧
    (∀ im : Image, st.freeCtx c = true → st.poolFor p c = some im → atMost ((st.recordFor p c).map (·.2.eff)) im.eff = true →
      atMost (st.generatedFor p c) im.eff = true → st.areaFails (coreOf im.ctx) im.pa 0x14000 = none → im.ctx = c →
      ∃ t, exec (.taskTake c) st = .next t ∧
        (∃ th, (t.ctx c).thread = some th ∧ th.uid = im.uid) ∧ (t.ctx c).pc = areaDword st (im.pa + 0x11E48) ∧
        (∀ r : Fin 32, r ≠ 0 → (t.ctx c).rx r.val = areaDword st (imageReg im.pa r.val)) ∧ im ∉ (t.part p).images ∧
        t.peek (im.pa + 0x11E42) = st.peek (im.pa + 0x11E42) ||| 2 ∧ (∀ x, x ≠ im.pa + 0x11E42 → t.peek x = st.peek x) ∧
        ∀ k, k ≠ c → t.ctx k = st.ctx k) ∧
    (∀ lid : Nat, lid < 2 ^ 32 → st.nextLaunch p = some lid → st.place p = some c → st.permits p (st.launch p lid).eff = true →
      st.yields p lid c = false → st.recordFor p c = none → st.poolFor p c = none →
      let l := st.launch p lid
      let pri := (tget 0 (st.part p).qctl l.queue).toNat % 4
      ∃ t, exec (.dispatchGenerate p lid) st = .next t ∧ Begun st t c (blockRecord l lid pri l.made) l.clock ∧
        t.launch p lid = { l with made := l.made + 1, counter := l.counter + 1, eff := pri } ∧
        (∀ x, x ≠ lid → t.launch p x = st.launch p x) ∧ tget 0 (t.part p).lastServed l.eff = lid ∧ t.cores = st.cores) ∧
    ∀ (lid v n : Nat), st.eligible p lid = true → st.queuePri p (st.launch p lid).queue = 3 → st.allFull p = true →
      (∀ k ∈ st.coresOf p, ∀ x ∈ ctxsOf k, st.freeCtx x = false ∧ ∀ r, (st.ctx x).saving = some r → r.next ≠ some lid) →
      st.victim p = some v → st.freeArea p = some n → st.yields p lid v = false →
      (∀ th, (st.ctx v).thread = some th → st.runningPred p lid ≠ some th.lid) → ∃ t, exec (.dispatchPreempt p lid) st = .next t ∧
        t.ctx v = { st.ctx v with saving := some { pool := some n, next := some lid } } ∧
        OnlyCtxs st t [v]

/-- THREAD_SAVE (R338, R340, R341, R48, R296): a thread at its boundary leaves its image in the area, which is the one of its number in the pool
as the pool then lies for a thread that the dispatcher has pre-empted, with its scalar registers and pc where R340 has
them, its context free, and its slots held for it; a CTXSV that waits for it returns 0. -/
def Sys2Proof.Claims.ThreadSave : Prop :=
  ∀ (st : State) (c : Nat) (r : SaveReq) (th : Thread), st.saveReady c = true → (st.ctx c).saving = some r →
    (st.ctx c).thread = some th → r.next = none → (st.ctx c).opened = [] →
    let area := match r.pool with | some i => (st.part th.part).ppb.toNat + 0x14000 * i | none => r.pa
    ∃ t, exec (.threadSave c) st = .next t ∧ (t.ctx c).thread = none ∧ (t.ctx c).saving = none ∧ (t.ctx c).vq = [] ∧
      (∃ im, (t.part th.part).images = (st.part th.part).images ++ [im] ∧ im.pa = area ∧ im.ctx = c ∧ im.lid = th.lid ∧
        im.uid = th.uid ∧ im.park = r.park ∧ im.pool = r.pool) ∧
      (∀ i : Fin 32, areaDword t (imageReg area i.val) = (st.ctx c).rx i.val) ∧
      areaDword t (area + 0x11E48) = (st.ctx c).pc ∧ areaDword t (area + 0x11E50) = (st.ctx c).icnt ∧
      areaDword t (area + 0x11A10) = (st.ctx c).sys.epc ∧
      (∀ x, x < area ∨ area + 0x14000 ≤ x → t.peek x = st.peek x) ∧
      (∀ core i x, (core, i, x) ∈ st.ownSlots c → (t.slot core i).saved = true) ∧
      (r.by_ = none → ∀ k, k ≠ c → t.ctx k = st.ctx k) ∧
      ∀ (b u pa : Nat) (d : Fin 32), r.by_ = some b → b ≠ c → (st.core (coreOf b)).stopped = false → (st.ctx b).wait = some (.ctxsv d c u pa) →
        (st.ctx b).Wrote (t.ctx b) d 0 ∧ (st.ctx b).Passed (t.ctx b) ((st.ctx b).pc + 4)

/-- How threads start on contexts and leave them (R29, R303 to R306, R338 to R342). -/
def Obligations.ThreadStartAndSave : Prop := Claims.TaskStarts ∧ Claims.ThreadSave

/-- TASK_PRIORITY_AGE, LAUNCH_PRIORITY_AGE, RING_REFILL, JOIN_BUFFER_DRAIN and PUSH_ARRIVAL (R53, R303, R308, R35, R197): work that waits rises a
level; records keep the core's one FIFO order as they go from its ring to its queue and from its join buffer to its tail; a pushed
record arrives at the tail, or is refused, or, of a cancelled launch, is discarded once there is room for it (R37), and its status returns to the
pusher whose word waits for it, unless the dies of the two cores have no link (R17, R347). A
refill is a pop, which waits for the record's stamp (R33). -/
def Sys2Proof.Claims.QueueEvents : Prop :=
  ∀ (st : State) (c : Nat),
    let k := st.core c
    (∀ i, i < k.fifo.length → ∃ t, exec (.taskPriorityAge c (64 + i)) st = .next t ∧
      (t.core c).fifo = mapAt older k.fifo i ∧ (t.core c).joinBuf = k.joinBuf ∧ OnlyCores st t [c]) ∧
    (∀ i, i < k.joinBuf.length → ∃ t, exec (.taskPriorityAge c (64 + k.fifo.length + i)) st = .next t ∧
      (t.core c).joinBuf = mapAt older k.joinBuf i ∧ (t.core c).fifo = k.fifo ∧ OnlyCores st t [c]) ∧
    (∀ i, i < 64 → (st.slot c i).wantsArray = true → (st.slot c i).pending = true → ∃ t, exec (.taskPriorityAge c i) st = .next t ∧
      t.slot c i = { st.slot c i with eff := min 3 ((st.slot c i).eff + 1) } ∧ SlotsKept st t [(c, i)]) ∧
    (∀ p lid, st.eligible p lid = true → ∃ t, exec (.launchPriorityAge p lid) st = .next t ∧
      t.launch p lid = { st.launch p lid with eff := min 3 ((st.launch p lid).eff + 1) } ∧
      (∀ x, x ≠ lid → t.launch p x = st.launch p x) ∧ { t with parts := st.parts } = st) ∧
    (∀ e l, k.ring = e :: l →
      (k.queue.length < 32 → st.stampMet e = true → ∃ t, exec (.ringRefill c) st = .next t ∧ (t.core c).fifo = k.fifo ∧
        (t.core c).queue = k.queue ++ [e] ∧ OnlyCores st t [c]) ∧
      (st.stampMet e = false → exec (.ringRefill c) st = .next st)) ∧
    (∀ e l, k.joinBuf = e :: l → Room st c → st.discards c e = false → ∃ t, exec (.joinBufferDrain c) st = .next t ∧ (t.core c).fifo = k.fifo ++ [e] ∧
      (t.core c).joinBuf = l ∧ OnlyCores st t [c]) ∧
    ∀ (i : Nat) (v : Travel), st.travel[i]? = some v → v.core = c → (st.ctx v.ctx).wait = some (.push v.dst v.id) →
      let cut := dieOf (coreOf v.ctx) ≠ dieOf c ∧ (tget ({} : Link) st.links (dieLink (dieOf (coreOf v.ctx)) (dieOf c))).failed = true
      (¬ cut → ∃ t, exec (.pushArrival i) st = .next t ∧ t.travel = dropAt st.travel i ∧ (∀ x, x ≠ v.ctx → t.ctx x = st.ctx x) ∧
        (st.ctx v.ctx).Passed (t.ctx v.ctx) ((st.ctx v.ctx).pc + 4) ∧ (∀ x, x ≠ c → t.core x = st.core x) ∧
        let down := k.halting = true ∨ k.halted = true
        let gone := v.gone = true ∨ st.discards c v.e = true
        (¬ down → ¬ gone → Room st c → (t.core c).fifo = k.fifo ++ [v.e] ∧ (st.ctx v.ctx).Wrote (t.ctx v.ctx) v.dst 0) ∧
        (¬ down → gone → Room st c → t.core c = k ∧ (st.ctx v.ctx).Wrote (t.ctx v.ctx) v.dst 0) ∧
        (down ∨ ¬ Room st c → t.core c = k ∧ (st.ctx v.ctx).Wrote (t.ctx v.ctx) v.dst 1)) ∧
      (cut → (st.ctx v.ctx).sys.cpl = .u → (st.ctx v.ctx).opened = [] → ∃ t, exec (.pushArrival i) st = .next t ∧
        (seenBy { st with travel := dropAt st.travel i } v.ctx).TookTrap (seenBy t v.ctx) Code.link (st.ctx v.ctx).pc)

/-- STEAL_ASK, STEAL_LEND, STEAL_ANSWER, LEND_ACKNOWLEDGE, LEND_ANSWER and LEND_EXPIRY (R310, R311): an idle core asks the cores of its partition in
turn; the victim lends its first record that is neither lent nor held, in its place, under a fresh number, or says that it has
none; the thief acknowledges once a context is free for it and has nothing to take first (R304); the victim removes the record if it is still lent under the number and not held since (R365), and
the thief's context then takes it, and otherwise refuses. A victim that a failed link cuts off counts as one that has none, and an
acknowledgement does not reach it (the model's choice, log entry 88); an expired loan is unlent in its place. -/
def Sys2Proof.Claims.Stealing : Prop :=
  ∀ (st : State) (thief v : Nat), v ≠ thief →
    let k := st.core thief
    let p := st.partOf thief
    let steal := fun (t : State) (x : Option Steal) => t.core thief = { k with steal := x } ∧ { t with cores := st.cores } = st
    (k.steal = none → st.idleCore thief = true → st.askAfter thief thief = some v →
      ∃ t, exec (.stealAsk thief) st = .next t ∧ steal t (some (.ask v)) ∧ ∀ c, c ≠ thief → t.core c = st.core c) ∧
    (k.steal = some (.ask v) →
      (st.takeable v = none ∨ st.apart v thief = true → ∃ t, exec (.stealLend v thief) st = .next t ∧ steal t (some (.none v)) ∧
        ∀ c, c ≠ thief → t.core c = st.core c) ∧
      ∀ i e, st.takeable v = some (i, e) → st.apart v thief = false →
        let n := ((st.core v).lendSeq + 1) % 65536
        ∃ t, exec (.stealLend v thief) st = .next t ∧ steal t (some (.copy v n e)) ∧
          (t.core v).fifo = mapAt (fun e => { e with lent := some (thief, n) }) (st.core v).fifo i ∧ (t.core v).lendSeq = n ∧
          ∀ c, c ≠ thief → c ≠ v → t.core c = st.core c) ∧
    (k.steal = some (.none v) → ∃ t, exec (.stealAnswer thief) st = .next t ∧ steal t ((st.askAfter thief v).map .ask)) ∧
    (∀ n e c, k.steal = some (.copy v n e) → ((ctxsOf thief).find? fun x =>
        st.wantsSteal p x && st.permits p e.eff && !st.yields p e.r.lid x) = some c →
      ∃ t, exec (.stealAnswer thief) st = .next t ∧ steal t (some (.acked v n c e))) ∧
    (∀ n c e pre x post, k.steal = some (.acked v n c e) → (st.core v).fifo = pre ++ x :: post → x.lent = some (thief, n) →
      (∀ y ∈ pre, y.lent ≠ some (thief, n)) →
      (st.apart v thief = true → exec (.lendAcknowledge thief) st = .next st) ∧
      (st.apart v thief = false → (st.held v x = true ∨ st.heldSaved v x = true) → ∃ t, exec (.lendAcknowledge thief) st = .next t ∧
        steal t (some .refused) ∧ t.core v = st.core v) ∧
      (st.apart v thief = false → st.held v x = false → st.heldSaved v x = false → ∃ t, exec (.lendAcknowledge thief) st = .next t ∧
        steal t (some (.accepted v n c e)) ∧ (t.core v).fifo = pre ++ post)) ∧
    (∀ n c e, k.steal = some (.acked v n c e) → (∀ y ∈ (st.core v).fifo, y.lent ≠ some (thief, n)) →
      ∃ t, exec (.lendAcknowledge thief) st = .next t ∧ steal t (some .refused) ∧ t.core v = st.core v) ∧
    (k.steal = some .refused → ∃ t, exec (.lendAnswer thief) st = .next t ∧ steal t none) ∧
    (∀ n c e, k.steal = some (.accepted v n c e) → (st.ctx c).thread = none → st.partRuns p = true → st.stampMet e = true →
      ∃ t, exec (.lendAnswer thief) st = .next t ∧ (t.core thief).steal = none ∧ Begun st t c e.r e.clock) ∧
    ∀ n, ∃ t, exec (.lendExpiry v n) st = .next t ∧ (t.core v).fifo = (st.core v).fifo.map (fun e => match e.lent with
        | some (x, m) => if m = n then { e with lent := none } else { e with lent := some (x, m) }
        | none => e) ∧ OnlyCores st t [v]

/-- The events of the task queues, and of stealing (R53, R308 to R311). -/
def Obligations.TaskQueueEvents : Prop := Claims.QueueEvents ∧ Claims.Stealing

/-! ### Events of launches, gangs and cores that stop -/

namespace Sys2Proof.Claims

open Sys2Proof.Machine

/-- A dword in memory that the device writes for a launch at its level (02 R31): where it lies, in storage that can be reached and has
lost nothing (17 R325, 18 R347). -/
structure LaunchDword (st : State) (p lid : Nat) (a : Word) (pas : List Nat) : Prop where
  found : ∃ locs, st.locate (st.dispatcherCore p) p (st.launch p lid).level .atomic true a 8 = .inl locs ∧ st.isMmio locs = false ∧
    pas = locs.map st.visible
  apart : pas.Nodup
  sound : st.hardError (st.dispatcherCore p) a pas = none

/-- What a dword at these bytes holds in coherence order (05 R120). -/
def lastNat (st : State) (pas : List Nat) : Nat := leNat (pas.map fun x => (st.last x).val)

/-- A launch is complete with a STAT (02 R31, R42, R50, 16 R300): its completion word has it in bits 15:8 with the flags kept below and
zeros above, its detached and orphaned operations are released, and a launch whose predecessor it is learns the STAT. -/
structure Completed (st t : State) (p lid stat : Nat) (pas : List Nat) : Prop where
  done : (t.launch p lid).done = true ∧ (t.launch p lid).stat = stat
  word : pas.map t.peek = leBytes 8 (lastNat st pas % 256 + stat * 256)
  bytes : ∀ x, x ∉ pas → t.peek x = st.peek x
  slots : ∀ e ∈ st.looseSlots p lid, (t.slot e.1 e.2).st = .free
  heard : ∀ x, x ≠ lid → (t.launch p x).predStat =
    if (st.launch p x).pred = some lid ∧ (st.launch p x).done = false then stat else (st.launch p x).predStat
  rest : (∀ x, (t.launch p x).cancelled = (st.launch p x).cancelled) ∧ t.ctxs = st.ctxs
  gang : t.out = st.out ++ (match (st.launch p lid).gang with
    | some g => if g.initiator then [] else [.gangReport p lid st.modNum.toNat (decide (stat ≠ 1))]
    | none => [])

/-- The launch has no operation in a slot and no image, so that cancelling it touches no memory. -/
def Bare (st : State) (p lid : Nat) : Prop :=
  (st.part p).images = [] ∧ ∀ c ∈ st.coresOf p, ∀ e ∈ (st.core c).slots, e.2.op.lid ≠ lid ∨ e.2.op.part ≠ p

end Sys2Proof.Claims

/-- CANCEL_REACHES_THREAD, LAUNCH_COMPLETE, CANCEL_DRAINED, GRAPH_COMPLETE, PHASE_COMPLETE and JOB_COMPLETE (R31, R36, R37, R50, R300, R301): a
thread of a cancelled launch stops and its context is free; a drained launch is complete with STAT 1, or, cancelled, with 2, or 3 at
the initiator of a failed gang; a closed graph, phase or job with a counter of 0 is gone. What the report of a gang's member holds is the
model's reading (DEDUCED, log entry 60). -/
def Sys2Proof.Claims.LevelsEnd : Prop :=
  ∀ (st : State) (p lid : Nat),
    let l := st.launch p lid
    (∀ (c : Nat) (th : Thread), (st.ctx c).thread = some th → (st.launch th.part th.lid).cancelled = true →
      ∃ t, exec (.cancelReachesThread c) st = .next t ∧ (t.ctx c).thread = none ∧ (t.ctx c).vq = [] ∧ (t.ctx c).opened = [] ∧
        (t.ctx c).wait = none ∧ (t.ctx c).sys.cpl = .u ∧ (∀ k, k ≠ c → t.ctx k = st.ctx k) ∧
        ∀ core i x, (core, i, x) ∈ st.ownSlots c → st.slot core i = x →
          (x.detached = false → (t.slot core i).st = .free) ∧ (x.detached = true → (t.slot core i).owner = none)) ∧
    (∀ pas, LaunchDword st p lid l.cword pas → st.drained p lid = true →
      (∀ g, l.gang = some g → g.initiator = false → Clear st (st.portOf g.home)) →
      (l.cancelled = false → l.blocks ≤ l.made → l.gangDone st.modNum.toNat = true →
        ∃ t, exec (.launchComplete p lid) st = .next t ∧ Completed st t p lid 1 pas) ∧
      (l.cancelled = true → l.reportsIn st.modNum.toNat = true → ∃ t, exec (.cancelDrained p lid) st = .next t ∧
        Completed st t p lid (match l.gang with | some g => if g.initiator ∧ g.failed.isSome then 3 else 2 | none => 2) pas)) ∧
    (st.drained p lid = false → exec (.launchComplete p lid) st = .next st ∧ exec (.cancelDrained p lid) st = .next st) ∧
    (∀ job g, g ∈ (st.part p).graphs → g.job = job → g.last = true → st.graphCount p job g.id = 0 →
      ∃ t, exec (.graphComplete p job g.id) st = .next t ∧
        t.part p = { st.part p with graphs := (st.part p).graphs.filter fun x => !(x.job = job && x.id = g.id) } ∧
        { t with parts := st.parts } = st) ∧
    (∀ job g, g ∈ (st.part p).phases → g.job = job → g.last = true → st.phaseCount p job g.id = 0 →
      (∀ e ∈ (st.part p).launches, e.2.inPhase job g.id = true → ∀ d, d < 4 → e.2.stores.le (st.knownAt d) = true) →
      ∃ t, exec (.phaseComplete p job g.id) st = .next t ∧
        t.part p = { st.part p with phases := (st.part p).phases.filter fun x => !(x.job = job && x.id = g.id) } ∧
        { t with parts := st.parts } = st) ∧
    ∀ job, job ∈ (st.part p).closedJobs → st.jobCount p job = 0 → ∃ t, exec (.jobComplete p job) st = .next t ∧
      (∀ x, x ∈ (t.part p).closedJobs ↔ x ∈ (st.part p).closedJobs ∧ x ≠ job) ∧
      (job ≠ 0 → ∀ e ∈ (t.part p).qjob, e.2.toNat ≠ job) ∧ { t with parts := st.parts } = st

/-- The events of a gang (R312 to R314): a member takes a copy of the launch into the queue of the same number, or refuses; the
initiator counts the acknowledgements and the reports; a refusal, or an acknowledgement that does not come, cancels the launch and
names the member in FAIL; a copy that a member cancelled cancels every copy once all have acknowledged. What the messages of a gang hold
(`gangAck`, `gangCancel`, `gangReport`, and the dwords of a copy) is the model's reading (DEDUCED, log entry 60). -/
def Sys2Proof.Claims.GangEvents : Prop :=
  ∀ (st : State) (p : Nat),
    (∀ (q home : Nat) (desc : List Word), Clear st (st.portOf home) →
      let lid := st.nextLid p 1030 (st.part p).nextId
      (st.pstate p = 1 ∨ st.pstate p = 2 → q < 64 → st.accepts p q = true → ∃ t, exec (.gangLaunchReceive p q home desc) st = .next t ∧
        (t.launch p lid).desc = Rec8.ofList desc ∧ (t.launch p lid).windows = (desc.drop 8).take 16 ∧ (t.launch p lid).queue = q ∧
        (t.launch p lid).gang = some { home := home } ∧ (t.launch p lid).moment = st.time ∧ (t.launch p lid).made = 0 ∧ (t.launch p lid).done = false ∧
        (∀ x, x ≠ lid → t.launch p x = st.launch p x) ∧ t.out = st.out ++ [.gangAck p q home true] ∧ t.ctxs = st.ctxs ∧ t.cores = st.cores) ∧
      (st.pstate p = 0 ∨ st.pstate p = 3 ∨ 64 ≤ q ∨ st.accepts p q = false → ∃ t, exec (.gangLaunchReceive p q home desc) st = .next t ∧
        t.out = st.out ++ [.gangAck p q home false] ∧ t.parts = st.parts)) ∧
    ∀ (lid m : Nat) (g : Gang), (st.launch p lid).gang = some g → st.alive p lid = true →
      let gone := (st.launch p lid).cancelled
      (g.initiator = true → m ∈ g.members → m ∉ g.acked → (gone = true ∨ g.anyCancelled = false) → Clear st (st.portOf m) →
        ∃ t, exec (.gangAck p lid m) st = .next t ∧ (t.launch p lid).gang = some { g with acked := m :: g.acked } ∧
          t.out = st.out ++ (if gone then [.gangCancel p lid m] else []) ∧ t.ctxs = st.ctxs) ∧
      (g.initiator = true → m ∈ g.members → m ∉ g.acked → gone = false → g.anyCancelled = true →
        (∀ x ∈ g.members, x = m ∨ x ∈ g.acked) → ∃ t, exec (.gangAck p lid m) st = .next t ∧ (t.launch p lid).cancelled = true) ∧
      (g.initiator = true → m ∈ g.members → m ∉ g.acked → g.failed = none → gone = false → Bare st p lid →
        ∀ pas, LaunchDword st p lid (st.launch p lid).desc.d7 pas → ∀ i ∈ [Instr.gangRefusal p lid m, .gangAckTimeout p lid m],
          ∃ t, exec i st = .next t ∧ (t.launch p lid).cancelled = true ∧ (t.launch p lid).gang = some { g with failed := some m } ∧
            pas.map t.peek = leBytes 8 (lastNat st pas % 2 ^ 48 + m % 65536 * 2 ^ 48) ∧ (∀ x, x ∉ pas → t.peek x = st.peek x)) ∧
      (g.initiator = true → m ∈ g.members → m ∉ g.finished → ∀ b : Bool, ∃ t, exec (.gangMemberReport p lid m b) st = .next t ∧
        ((b = false ∧ g.anyCancelled = false) ∨ gone = true ∨ (∃ x ∈ g.members, x ∉ g.acked) →
          (t.launch p lid).gang = some { g with finished := m :: g.finished, anyCancelled := g.anyCancelled || b } ∧ t.ctxs = st.ctxs) ∧
        ((b = true ∨ g.anyCancelled = true) → gone = false → (∀ x ∈ g.members, x ∈ g.acked) → (t.launch p lid).cancelled = true)) ∧
      (g.initiator = false → gone = false → ∃ t, exec (.gangCancel p lid) st = .next t ∧ (t.launch p lid).cancelled = true ∧
        (∀ c ∈ st.coresOf p, ∀ e ∈ (t.core c).fifo ++ (t.core c).joinBuf, e.r.lid ≠ lid) ∧
        ((st.part p).images = [] → t.ctxs = st.ctxs))

/-- How launches, levels and gangs come to their end (R30, R36, R37, R312, R314). -/
def Obligations.LevelEvents : Prop := Claims.LevelsEnd ∧ Claims.GangEvents

/-- WOAD_CORE_STOP, STATE_PARITY_ERROR and SCRUB (R355, R345, R346): for a core that a trap at M has stopped, Woad records the M record,
cancels its partition and stops it; a parity error of a unit's state stops the partition, and every thread of it below M traps
ECC_UNCORR to M, but for those of a core that has stopped; scrubbing walks the chunks of a core's window and changes no value; and the report of an error that a core's storage
corrected changes nothing but Woad's telemetry and the core's numbers (log entry 92). -/
def Obligations.CoreErrors : Prop :=
  ∀ (st : State) (n : Nat),
    (let p := st.partOf n
     (st.core n).stopped = true → (st.core n).halted = false → Whole st → ∃ t, exec (.woadCoreStop n) st = .next t ∧ (t.core n).halted = true ∧
      (t.part p).stopped = true ∧ (t.part p).images = [] ∧ t.woad.telemetry = st.woad.telemetry ++ [(st.core n).stopRec] ∧
      (∀ l, st.alive p l = true → (t.launch p l).cancelled = true) ∧ ((st.part p).images = [] → t.ctxs = st.ctxs)) ∧
    (∀ unit, unit < 6 → st.pstate n ≠ 0 → (st.part n).errStop = false → ∃ t, exec (.stateParityError n unit) st = .next t ∧
      (t.part n).errStop = true ∧ (∀ q, q ≠ n → t.part q = st.part q) ∧ (∀ x, t.peek x = st.peek x) ∧
      (∀ c ∈ st.residents n, (st.core (coreOf c)).stopped = false → (st.ctx c).sys.cpl ≠ .m → (t.ctx c).sys.cpl = .m ∧ (t.ctx c).sys.mppl = (st.ctx c).sys.cpl ∧
        (t.ctx c).sys.mepc = (st.ctx c).resumeAt ∧ (t.ctx c).sys.mcause = cause false Code.eccUncorr ∧
        (t.ctx c).pc = vector st.mvec Code.eccUncorr ∧ (t.ctx c).x = (st.ctx c).x) ∧
      ∀ c, c ∉ st.residents n ∨ (st.core (coreOf c)).stopped = true → t.ctx c = st.ctx c) ∧
    (n < 160 → ∃ t, exec (.scrub n) st = .next t ∧ (t.core n).scrub = ((st.core n).scrub + 1) % 8192 ∧ (∀ x, t.peek x = st.peek x) ∧
      t.ctxs = st.ctxs ∧ t.parts = st.parts ∧ t.badCells = st.badCells) ∧
    ∀ (rest : List Move) (loc : Nat) (va : Word), n < 160 → st.woad.boot = .run → st.agenda = .corrected n loc va :: rest →
      ∃ t, step st = .next t ∧ (∃ r, t.woad.telemetry = st.woad.telemetry ++ [r] ∧ r.d5 = va) ∧ (∀ x, t.peek x = st.peek x) ∧
        t.ctxs = st.ctxs ∧ t.parts = st.parts ∧ t.badCells = st.badCells

/-! ### Events of the engines -/

namespace Sys2Proof.Claims

open Sys2Proof.Machine

/-- Memory at rest for an operation (05 R116 to R120, 17 R325, 18 R347): no byte has an older value, nothing is in flight, no link or
line has failed, and every home knows the frontiers its clock names. -/
structure RestFor (st : State) (o : EngOp) : Prop where
  none : st.hist = [] ∧ st.writes = [] ∧ st.links = [] ∧ st.badLines = [] ∧ st.deadChannels = [] ∧ st.badCells = []
  known : ∀ d, d < 4 → o.clock.le (st.knownAt d) = true

/-- Addresses of an operation that reach these locations (10 R249, R252). -/
def Reaches (st : State) (core : Nat) (o : EngOp) (k : Kind) (va : List Word) (l : List Loc) : Prop :=
  va.map (st.reach core o k) = l.map .here

/-- Step n of an operation of `total` steps is complete (10 R250): its progress, or, with the last step, DONE. -/
def Stepped (t : State) (core slot n total : Nat) : Prop :=
  (total ≤ n → (t.slot core slot).st = .done) ∧ (n < total → (t.slot core slot).prog = n ∧ (t.slot core slot).phase = .running)

/-- An operation has ended FAULTED with a code and a place in its record (02 R41, 18 R331). -/
def FaultedAt (t : State) (core slot code opnd loc : Nat) : Prop :=
  (t.slot core slot).st = .faulted ∧ fldW (t.slot core slot).frec.d0 0 8 = code ∧ fldW (t.slot core slot).frec.d0 16 4 = opnd ∧
    fldW (t.slot core slot).frec.d2 32 16 = loc % 65536

/-- The chunk bits of a core after step n of an operation (10 R253): the step sets those whose bytes it brings to their end. -/
def ChunksAfter (st t : State) (o : EngOp) (n : Nat) : Prop :=
  ∀ c j, j < 6144 →
    let mine := o.chunks.filter fun x => x.1 == 6144 * c + j
    (t.core c).chunks.getLsbD j = ((st.core c).chunks.getLsbD j || (mine.all (fun x => x.2 ≤ n) && mine.any fun x => x.2 == n))

/-- A component of an operand of the array (10 R259): element n of a run of codes of w bits at a window offset. -/
def windowCode (st : State) (core w base n : Nat) : Nat :=
  let v := leNat ((List.range (max 1 (w / 8))).map fun x => st.peek (windowAddr core (base + n * w / 8 + x)))
  if w = 4 then v / 16 ^ (n % 2) % 16 else v

/-- The device has written these bytes, and no others. -/
def Wrote (st t : State) (pas : List Nat) (bs : List Byte) : Prop :=
  pas.map t.peek = bs ∧ ∀ x, x ∉ pas → t.peek x = st.peek x

/-- Step n of an operation has nothing written yet, and shares no aligned 8-byte unit with another step (05 R130: such a unit is
written whole, with the later step's bytes). -/
structure FreshStep (o : EngOp) (n : Nat) : Prop where
  ahead : o.ahead = [] ∧ thas o.held n = false
  acked : o.unacked = 0 ∧ o.awaiting = false
  apart : ∀ off, off < o.nRows * o.rowLen → o.stepOf off ≠ n → ∀ i ∈ o.stepOffsets n, (o.dstAt off).toNat / 8 ≠ (o.dstAt i).toNat / 8

/-- What a step that has begun afresh comes to: all its bytes written and `done`; or a part of them, a free choice (02 R47, log
entry 33), with the rest held for its next move. Nothing else is written. -/
def StepMade (st t : State) (core slot n : Nat) (pas : List Nat) (bs : List Byte) (done : Prop) : Prop :=
  (∀ x, x ∉ pas → t.peek x = st.peek x) ∧
    ((pas.map t.peek = bs ∧ done) ∨
      (thas (t.slot core slot).op.held n = true ∧ (t.slot core slot).prog = (st.slot core slot).prog ∧
        (t.slot core slot).phase = .running ∧ ∀ i, i < pas.length → t.peek (pas.getD i 0) = bs.getD i 0 ∨
          t.peek (pas.getD i 0) = st.peek (pas.getD i 0)))

/-- What step n of an operation has read and still has to write, in this module: the locations and the bytes. -/
def Held (o : EngOp) (n : Nat) (dst : List Loc) (bs : List Byte) : Prop :=
  thas o.held n = true ∧ (tget [] o.held n).map (·.dst) = dst.map .here ∧ (tget [] o.held n).map (·.val) = bs ∧
    ((tget [] o.held n).map (·.addr)).Nodup ∧ o.unacked = 0 ∧ o.awaiting = false

/-- A running operation of a partition whose operations may step: in RUN (19 R356), not parked, nor held by a park whose count has ended
(18 R343), and not stopped by an error (R345). -/
def Running (st : State) (core slot : Nat) : Prop :=
  (st.slot core slot).phase = .running ∧ st.woad.boot = .run ∧ let q := st.part (st.slot core slot).op.part
    q.parked = false ∧ q.errStop = false ∧ (q.parking = false ∨ q.drained = false)

end Sys2Proof.Claims

/-- OP_START and PREDECESSOR_FAULT (R45, R41, R129, R263): an operation whose needs hold is accepted and runs, or is DONE when it has no step; an
array command takes the free array for its thread, with the accumulators zero for another job; the second part of a COPYM takes it
too; an operation whose predecessor did not end DONE faults with the predecessor's code, and names it where the code is one of an operation's own
(from 0x20 on), or the link where it is LINK (R330). -/
def Obligations.OperationsStart : Prop :=
  ∀ (st : State) (core slot : Nat),
    let x := st.slot core slot
    let o := x.op
    let clock := match o.predOut with | some (_, _, k) => o.clock.join k | none => o.clock
    (x.phase = .waiting → x.pending = true → o.kind ∈ [OpKind.copy, .copyf, .copym, .grows, .publish, .migrOut, .migrIn] →
      st.mayStart core x = true → ∃ t, exec (.opStart core slot) st = .next t ∧ (∀ b, t.peek b = st.peek b) ∧
        (∀ c, t.ctx c = st.ctx c) ∧
        (0 < o.steps → (t.slot core slot).phase = .running ∧ (t.slot core slot).op.clock = clock ∧ (t.slot core slot).prog = x.prog) ∧
        (o.steps = 0 → (t.slot core slot).st = .done)) ∧
    (x.phase = .waiting → x.pending = true → o.kind ∈ [OpKind.mma, .mmas, .mclr, .mrd] → st.arrayTakes core slot = true →
      (o.kind = .mrd → o.mrdBad = none) → (o.kind = .mma ∨ o.kind = .mmas → o.shapeBad = none) → 0 < o.steps →
      ∃ t, exec (.opStart core slot) st = .next t ∧ (t.slot core slot).phase = .running ∧ (t.slot core slot).op.clock = clock ∧
        (t.core core).holder = some (o.ctx, o.uid) ∧ (∀ b, t.peek b = st.peek b) ∧
        (t.core core).acc = (if (st.core core).holder ≠ some (o.ctx, o.uid) ∧ (st.core core).holder ≠ none ∧ (st.core core).holderJob ≠ o.job
          then [] else (st.core core).acc)) ∧
    (x.phase = .running → o.kind = .copym → st.arrayTakes core slot = true → o.shapeBad = none →
      ∃ t, exec (.opStart core slot) st = .next t ∧ (t.slot core slot).op.started = true ∧ (t.core core).holder = some (o.ctx, o.uid) ∧
        (t.slot core slot).phase = .running) ∧
    ∀ (ending : SlotState) (code : Nat) (k : Clock) (tok : Word), o.predOut = some (ending, code, k) → o.pred = some tok → x.phase = .waiting →
      x.pending = true → ending ≠ .done → st.opsRun o.part true = true → code < 256 →
      ∃ t, exec (.predecessorFault core slot) st = .next t ∧ FaultedAt t core slot code 15 0 ∧
        (t.slot core slot).frec.d4 = (if 0x20 ≤ code then tok else 0) ∧ (code = Code.link → (t.slot core slot).frec.d3 = o.predD0) ∧
        (t.slot core slot).prog = x.prog

/-- COPY_STEP, GROWS_ROW and PUBLISH_EXCHANGE (R252 to R257, R134, R135, R250): with memory at rest, a step of a copy writes its 512
bytes, as they were when it read them, to their destinations, at once or in two moves, and then sets the chunks that it completes; the
flag of a COPYF follows its data, and its last step is complete with it; a row of a GROWS goes to the place of its rank, and its
progress counts the leading rows; a PUBLISH exchanges the backings of its buffer, and one that is void faults. -/
def Sys2Proof.Claims.CopySteps : Prop :=
  ∀ (st : State) (core slot : Nat), Running st core slot →
    let x := st.slot core slot
    let o := x.op
    let n := x.prog + 1
    let written := fun t => ChunksAfter st t o n ∧ (o.kind ≠ .copyf ∨ n < o.copySteps → Stepped t core slot n o.steps) ∧
      (o.kind = .copyf → n = o.copySteps → (t.slot core slot).op.started = true ∧ (t.slot core slot).phase = .running ∧
        (t.slot core slot).prog = x.prog)
    let rowDone := fun (row : Nat) (t : State) => (∀ k, k < (t.slot core slot).prog → k ∈ row :: o.rows) ∧
      ((t.slot core slot).prog = o.growRows.length → (t.slot core slot).st = .done) ∧
      ((t.slot core slot).prog ≠ o.growRows.length → (t.slot core slot).prog ∉ row :: o.rows) ∧
      (t.slot core slot).op.rows = row :: o.rows
    let rowFree := fun (row : Nat) => row < o.growRows.length ∧ row ∉ o.rows ∧
      ∀ k, k < row → k ∉ o.rows → rangesMeet (o.dstAt (k * o.rb)).toNat o.rb (o.dstAt (row * o.rb)).toNat o.rb = false
    (∀ (src dst : List Loc), o.kind = .copy ∨ o.kind = .copym ∨ (o.kind = .copyf ∧ o.started = false) → n ≤ o.copySteps → FreshStep o n →
      RestFor st o → Reaches st core o .read ((o.stepOffsets n).map fun i => o.xa + BitVec.ofNat 64 (i / o.rb) * o.spch + BitVec.ofNat 64 (i % o.rb)) src →
      Reaches st core o .write ((o.stepOffsets n).map fun i => o.dst + BitVec.ofNat 64 (i / o.rb) * o.dpch + BitVec.ofNat 64 (i % o.rb)) dst →
      (dst.map st.hidden).Nodup → ∃ t, exec (.copyStep core slot) st = .next t ∧
        StepMade st t core slot n (dst.map st.hidden) (src.map fun a => st.peek (st.visible a)) (written t) ∧ ∀ c, t.ctx c = st.ctx c) ∧
    (∀ (dst : List Loc) (bs : List Byte), o.kind = .copy ∨ o.kind = .copym ∨ (o.kind = .copyf ∧ o.started = false) → n ≤ o.copySteps →
      Held o n dst bs → RestFor st o → (dst.map st.hidden).Nodup → ∃ t, exec (.copyStep core slot) st = .next t ∧
        Wrote st t (dst.map st.hidden) bs ∧ written t) ∧
    (∀ dst : List Loc, o.kind = .copyf → o.started = true → o.awaiting = false → n = o.copySteps → RestFor st o →
      st.frontierFull (dieOf core) = true → (∀ d, d < 4 → x.clock.le (st.knownAt d) = true) →
      Reaches st core o .write ((List.range 8).map fun i => o.xa1 + BitVec.ofNat 64 i) dst → (dst.map st.hidden).Nodup →
      ∃ t, exec (.copyStep core slot) st = .next t ∧ Wrote st t (dst.map st.hidden) (leBytes 8 o.xb1.toNat) ∧
        (t.slot core slot).st = .done ∧
        (o.clock.at (dieOf core) ≤ st.issued.at (dieOf core) → ∀ p ∈ dst.map st.hidden, o.clock.le (t.last p).clock = true)) ∧
    (∀ (row : Nat) (src : List Loc), o.kind = .grows → rowFree row → FreshStep o (row + 1) → RestFor st o →
      Reaches st core o .read ((List.range o.rb).map fun b => o.xa + BitVec.ofNat 64 (o.growRows.getD row 0) * o.spch + BitVec.ofNat 64 b) src →
      (o.dstAt (row * o.rb)).toNat + o.rb ≤ scratchBytes →
      ∃ t, exec (.growsRow core slot row) st = .next t ∧
        StepMade st t core slot (row + 1) ((List.range o.rb).map fun b => windowAddr core ((o.dstAt (row * o.rb)).toNat + b))
          (src.map fun a => st.peek (st.visible a)) (rowDone row t)) ∧
    (∀ (row : Nat) (dst : List Loc) (bs : List Byte), o.kind = .grows → rowFree row → Held o (row + 1) dst bs → RestFor st o →
      (dst.map st.hidden).Nodup → ∃ t, exec (.growsRow core slot row) st = .next t ∧ Wrote st t (dst.map st.hidden) bs ∧ rowDone row t) ∧
    (o.kind = .publish →
      let b := tget ⟨0, 0, 0, 0, false, false⟩ (st.part o.part).bufs o.xa.toNat
      (b.void = false → ∃ t, exec (.publishExchange core slot) st = .next t ∧
        tget ⟨0, 0, 0, 0, false, false⟩ (t.part o.part).bufs o.xa.toNat = { b with vis := !b.vis } ∧
        (∀ j, j ≠ o.xa.toNat → tget ⟨0, 0, 0, 0, false, false⟩ (t.part o.part).bufs j = tget ⟨0, 0, 0, 0, false, false⟩ (st.part o.part).bufs j) ∧
        (t.slot core slot).st = .done ∧ ∀ p, t.peek p = st.peek p) ∧
      (b.void = true → o.wrote = [] → o.page = none → ∃ t, exec (.publishExchange core slot) st = .next t ∧
        FaultedAt t core slot 0x21 0 o.xa.toNat ∧
        tget ⟨0, 0, 0, 0, false, false⟩ (t.part o.part).bufs o.xa.toNat = { b with void := false }))

/-- MMA_K_BLOCK, MCLR_STEP and MRD_ROW (R259 to R264, R100): with memory at rest, a block of 128 positions adds its groups to every cell of M × N, from
the codes in the scratchpad and the B-store, in order, and no other cell changes; two runs whose residues both disagree
fault with the column; MCLR clears every cell; a row of C goes to the scratchpad, component by component, at once or in two moves. -/
def Sys2Proof.Claims.ArraySteps : Prop :=
  ∀ (st : State) (core slot : Nat), Running st core slot → RestFor st (st.slot core slot).op →
    let x := st.slot core slot
    let o := x.op
    let n := x.prog + 1
    let copies := if o.kind = .copym then o.copySteps else 0
    (∀ miss1 miss2 : Option (Fin 128), o.kind = .mma ∨ o.kind = .mmas ∨ (o.kind = .copym ∧ o.started = true) → copies < n → n ≤ o.steps →
      mshM o.msh ≤ 128 → mshN o.msh ≤ 128 →
      (miss1 = none ∨ miss2 = none → ∃ t, exec (.mmaKBlock core slot miss1 miss2) st = .next t ∧
        (∀ i j, i < mshM o.msh → j < mshN o.msh →
          let a := fun (k c : Nat) => windowCode st core (mftA o.mft).width o.aoff ((i * o.kPrime + o.column k) * o.dim + c)
          let b := fun (k c : Nat) => windowCode st core (mftB o.mft).width (scratchBytes + 8192 * j + o.boff) (k * o.dim + c)
          tget 0 (t.core core).acc (128 * i + j) = o.cell (o.blockGroups (n - copies - 1)) a b
            (if n - copies = 1 ∧ mftAcc o.mft = false then 0 else tget 0 (st.core core).acc (128 * i + j))) ∧
        (∀ k, (∀ i j, i < mshM o.msh → j < mshN o.msh → k ≠ 128 * i + j) → tget 0 (t.core core).acc k = tget 0 (st.core core).acc k) ∧
        Stepped t core slot n o.steps ∧ ∀ p, t.peek p = st.peek p) ∧
      (∀ j1 j2, miss1 = some j1 → miss2 = some j2 → o.wrote = [] → o.page = none → ∃ t,
        exec (.mmaKBlock core slot miss1 miss2) st = .next t ∧
        FaultedAt t core slot 0x23 2 j2.val ∧ (t.core core).acc = (st.core core).acc ∧ (t.slot core slot).prog = x.prog)) ∧
    (o.kind = .mclr → ∃ t, exec (.mclrStep core slot) st = .next t ∧ (t.core core).acc = [] ∧ (t.slot core slot).st = .done ∧
      ∀ p, t.peek p = st.peek p) ∧
    (o.kind = .mrd → x.prog < mshM o.msh → o.mrdAt n ≤ scratchBytes → FreshStep o n →
      let w := (mftC o.mft).width / 8
      ∃ t, exec (.mrdRow core slot) st = .next t ∧
        StepMade st t core slot n ((List.range o.mrdRow).map fun k => windowAddr core (o.mrdAt x.prog + k))
          ((List.range o.mrdRow).map fun k =>
            (leBytes w (cellGet (mftC o.mft) (tget 0 (st.core core).acc (128 * x.prog + k / w / o.dim)) (k / w % o.dim))).getD (k % w) 0)
          (Stepped t core slot n (mshM o.msh) ∧ ChunksAfter st t o n)) ∧
    ∀ (dst : List Loc) (bs : List Byte), o.kind = .mrd → x.prog < mshM o.msh → Held o n dst bs → (dst.map st.hidden).Nodup →
      ∃ t, exec (.mrdRow core slot) st = .next t ∧ Wrote st t (dst.map st.hidden) bs ∧ Stepped t core slot n (mshM o.msh) ∧ ChunksAfter st t o n

/-- The steps of copies and of the matrix array (R256 to R266). -/
def Obligations.OperationSteps : Prop := Claims.CopySteps ∧ Claims.ArraySteps

/-! ### Events of teams and of migration -/

namespace Sys2Proof.Claims

open Sys2Proof.Machine

/-- The members of a collective that this module holds, when every one has joined and none has failed or disagrees (10 R265, R266). -/
def Joined (st : State) (core slot : Nat) (ms : List (Nat × Nat)) : Prop :=
  st.collBad core slot = none ∧ st.allJoined core slot = true ∧ ms = st.localMembers core slot ∧ ms.Nodup

/-- Byte x of the destination of a data collective (10 R267), from what its members have read of their sources: the root's byte, the byte of
the member whose part it lies in, or a byte of the members' elements combined in the tree over their indices. -/
def collByte (st : State) (core slot : Nat) (o : EngOp) (x : Nat) : Byte :=
  let byte := fun (m i : Nat) => st.memberByte core slot m i
  match o.kind with
  | .cbc => byte o.teamRoot x
  | .cgat => byte (x / o.rb) (x % o.rb)
  | .cred f =>
    let w := (fmtOf o.ctl.vt).width / 8
    let codes := (List.range o.teamCount).map fun m => leNat ((List.range w).map fun i => byte m (x / w * w + i))
    (leBytes w (credElem f (fmtOf o.ctl.vt) (Rnd.ofVt o.ctl.vt 0) codes)).getD (x % w) 0
  | _ => 0

/-- The offsets of the destination that come from the offsets lo to hi of each member's source (10 R267). -/
def collSpan (o : EngOp) (lo hi : Nat) : List Nat :=
  let at_ := (List.range (hi - lo)).map fun i => lo + i
  match o.kind with
  | .cgat => (List.range o.teamCount).flatMap fun m => at_.map fun i => m * o.rb + i
  | _ => at_

/-- Every other member that takes this member's data has taken it up to an offset (10 R267). -/
def AllTook (st : State) (core slot need : Nat) : Prop :=
  let o := (st.slot core slot).op
  o.gives o.teamSelf = false ∨ ∀ m p, m < o.teamCount → m ≠ o.teamSelf → st.partnerSlot core slot m = some p →
    (st.slot p.1 p.2).op.receives = false ∨ (st.slot p.1 p.2).st = .done ∨ need ≤ (st.slot p.1 p.2).op.took

/-- A reduction's rows hold whole elements of 8 bits or more, as its issue has checked (10 R267). -/
def wholeElements (o : EngOp) : Prop :=
  ∀ f, o.kind = .cred f → 8 ≤ (fmtOf o.ctl.vt).width ∧ o.rb % ((fmtOf o.ctl.vt).width / 8) = 0

/-- A page that Madder has in the move (17 R328): its leaf, the leaf's address and level, and its frame, with no link that has failed on the way
to them (18 R347). -/
structure Moving (st : State) (core : Nat) (o : EngOp) (w : Word) (a level frame : Nat) : Prop where
  page : o.page = some (w, a, level, frame)
  idle : st.inUse (fun pa => o.kind = .migrOut && frame ≤ pa && pa < frame + pageSize level) = false
  link : (st.part o.part).hlw ≠ 0 ∧ (tget {} st.links 32).failed = false
  leaf : st.walkRead a = w
  storage : st.moveFails core (span a 8) = none ∧ st.brokenLink core (linesOf frame (pageSize level)) = none

/-- Eight bytes at an address. -/
def eight (a : Nat) : List Nat := (List.range 8).map fun i => a + i

/-- No core holds a translation of the page (10 R271). -/
def Untranslated (t : State) (o : EngOp) (va size : Nat) : Prop :=
  ∀ c, ∀ x ∈ (t.core c).tlb, x.part = o.part → rangesMeet x.base x.size va size = false

end Sys2Proof.Claims

/-- TRAIN_APPLY and TRAIN_ACK (R269, R137, R250): the elements of a train for a home die of this module are applied there, each in one step; one
for another module is sent to it; a train is acknowledged once every die knows its numbers, which completes a step, and a
refusal faults TRAIN_NACK with the first member that refused, once all have answered. -/
def Obligations.TrainEvents : Prop :=
  ∀ (st : State) (core slot dest : Nat), Running st core slot → (st.slot core slot).op.kind = .train →
    let x := st.slot core slot
    let o := x.op
    ((∃ e, (e, dest) ∈ o.dests) → (∀ s ∈ o.sent, s.1 ≠ dest) → dest ∉ o.acked → dest ∉ o.nacks →
      (∀ (e a : Nat) (bs : List Byte) (l : List Loc), dest < 4 → o.trainElems dest = [(e, a, bs)] → bs ≠ [] → e ∉ o.rows → RestFor st o →
        Reaches st core o .write ((List.range bs.length).map fun i => BitVec.ofNat 64 (a + i)) l → (l.map st.hidden).Nodup →
        ∃ t k, exec (.trainApply core slot dest) st = .next t ∧ Wrote st t (l.map st.hidden) bs ∧
          (t.slot core slot).op.sent = o.sent ++ [(dest, k)] ∧ (t.slot core slot).phase = .running ∧ (t.slot core slot).prog = x.prog) ∧
      (4 ≤ dest → dest < 2000 → o.rows = [] → st.brokenPort (o.teamMember (dest - 4)) = none → Clear st (st.portOf (o.teamMember (dest - 4))) →
        ∃ t, exec (.trainApply core slot dest) st = .next t ∧
        t.out = st.out ++ [.train (o.teamMember (dest - 4)) ((o.trainElems dest).map fun e => e.2)] ∧
        (t.slot core slot).op.sent = o.sent ++ [(dest, ({} : Clock))] ∧ ∀ p, t.peek p = st.peek p)) ∧
    ∀ (k : Clock) (ok : Bool), (o.sent.find? fun s => s.1 = dest) = some (dest, k) →
      (o.nacks = [] → ((dest < 4 ∨ 2000 ≤ dest) ∧ o.unacked = 0 ∧ ∀ d, d < 4 → k.le (st.knownAt d) = true) ∨ (4 ≤ dest ∧ dest < 2000 ∧ ok = true) →
        ∃ t, exec (.trainAck core slot dest ok) st = .next t ∧ Stepped t core slot (x.prog + 1) o.steps ∧
          dest ∈ (t.slot core slot).op.acked ∧ (∀ s ∈ (t.slot core slot).op.sent, s ∈ o.sent ∧ s.1 ≠ dest)) ∧
      (4 ≤ dest → dest < 2000 → ok = false → (∀ s ∈ o.dests, s.2 = dest ∨ s.2 ∈ o.acked ∨ s.2 ∈ o.nacks) → (∀ d ∈ o.nacks, dest ≤ d) →
        ∃ t, exec (.trainAck core slot dest ok) st = .next t ∧ FaultedAt t core slot 0x24 2 (dest - 4))

/-- COLLECTIVE_STEP, CBAR_COMPLETE and COLL_JOIN_TIMEOUT (R266 to R268): a member reads its source 4 KiB at a time; one that receives
takes the members' data once every one that gives has read as much, combined or placed as its kind says, and writes it to its
destination; its step is complete when every other has taken its own data. A barrier completes for all once all have issued it, with
their releases joined, over links that stand. A member that has not joined in time faults the others, by its index. That a step is made in moves
that read, take and write, and what CBC takes of its root alone, is the model's reading (DEDUCED, log entry 39); so is that members are
matched by the order in which they were issued (log entry 38). -/
def Obligations.CollectiveEvents : Prop :=
  ∀ (st : State) (core slot : Nat) (ms : List (Nat × Nat)), Running st core slot → (core, slot) ∈ st.localMembers core slot →
    let x := st.slot core slot
    let o := x.op
    let k := x.prog + 1
    let need := min (4096 * k) o.rb
    let ends := fun t => (AllTook st core slot need → Stepped t core slot k o.collSteps) ∧
      (¬ AllTook st core slot need → (t.slot core slot).op.awaiting = true ∧ (t.slot core slot).prog = x.prog)
    (Joined st core slot ms → o.kind.isColl = true → o.kind ≠ .cbar → k ≤ o.collSteps → RestFor st o → wholeElements o →
      (∀ src : List Loc, o.gives o.teamSelf = true → o.buf.length < need →
        Reaches st core o .read ((List.range (need - o.buf.length)).map fun i => o.xa + BitVec.ofNat 64 (o.buf.length + i)) src →
        ∃ t more, exec (.collectiveStep core slot) st = .next t ∧
          (t.slot core slot).op.buf = o.buf ++ src.map (fun a => st.peek (st.visible a)) ++ more ∧ (o.kind ≠ .cgat → more.length ≤ 8) ∧
          (∀ p, t.peek p = st.peek p) ∧ SlotsKept st t [(core, slot)]) ∧
      ((o.gives o.teamSelf = true → need ≤ o.buf.length) → o.receives = true → o.took < need →
        (∀ m, m < o.teamCount → st.remoteMember o m = false ∧ (o.gives m = true → need ≤ st.memberRead core slot m)) →
        (∀ f, o.kind = .cred f → o.took % ((fmtOf o.ctl.vt).width / 8) = 0) →
        ∃ t, exec (.collectiveStep core slot) st = .next t ∧ need ≤ (t.slot core slot).op.took ∧
          (∀ i ∈ collSpan o o.took need, (i, collByte st core slot o i) ∈ (t.slot core slot).op.pool) ∧
          (∀ p, t.peek p = st.peek p) ∧ SlotsKept st t [(core, slot)]) ∧
      ((o.gives o.teamSelf = true → need ≤ o.buf.length) → o.receives = true → need ≤ o.took →
        (∀ (dst : List Loc) (b : Nat → Byte), FreshStep o k →
          (∀ i ∈ o.stepOffsets k, (o.pool.find? fun y => y.1 = i) = some (i, b i)) →
          Reaches st core o .write ((o.stepOffsets k).map fun i => o.xb + BitVec.ofNat 64 i) dst → (dst.map st.hidden).Nodup →
          ∃ t, exec (.collectiveStep core slot) st = .next t ∧
            StepMade st t core slot k (dst.map st.hidden) ((o.stepOffsets k).map b) (ends t)) ∧
        (∀ (dst : List Loc) (bs : List Byte), Held o k dst bs → (dst.map st.hidden).Nodup →
          ∃ t, exec (.collectiveStep core slot) st = .next t ∧ Wrote st t (dst.map st.hidden) bs ∧ ends t)) ∧
      ((o.gives o.teamSelf = true → need ≤ o.buf.length) → (o.receives = true → need ≤ o.took ∧ o.awaiting = true) → o.unacked = 0 →
        AllTook st core slot need →
        ∃ t, exec (.collectiveStep core slot) st = .next t ∧ Stepped t core slot k o.collSteps ∧ ∀ p, t.peek p = st.peek p)) ∧
    (Joined st core slot ms → o.kind = .cbar → o.met = false → (∀ m, m < o.teamCount → st.pathBad core slot m = none) →
      ∃ t, exec (.cbarComplete core slot) st = .next t ∧ (t.slot core slot).st = .done ∧
        (∀ m ∈ ms, (t.slot m.1 m.2).op.met = true ∧ ∀ m' ∈ ms, (st.slot m'.1 m'.2).op.clock.le (t.slot m.1 m.2).op.clock = true) ∧
        ∀ p, t.peek p = st.peek p) ∧
    (st.collBad core slot = none → o.kind = .cbar → o.met = true →
      ∃ t, exec (.cbarComplete core slot) st = .next t ∧ (t.slot core slot).st = .done ∧ ∀ p, t.peek p = st.peek p) ∧
    (∀ m, o.kind.isColl = true → o.met = false → m < o.teamCount → m ≠ o.teamSelf →
      st.remoteMember o m = true ∨ st.partnerSlot core slot m = none → ∃ t, exec (.collJoinTimeout core slot m) st = .next t ∧ FaultedAt t core slot 0x25 2 m)

/-- MIGR_PAGE_MOVE and PARK_DRAIN_EXPIRY (R270 to R272, R328, R343): a page that moves out has its tier space and stack place reserved, then its
translations dropped, its bytes kept in the tier, its leaf swapped to T = 1 with the tier address, and its frame pushed; one that moves
in gets its bytes back in the frame popped for it, and its leaf names the frame; the barrier add completes the page's step.
The end of a drain leaves every operation of the partition that stands at a boundary PARKED, and the others to finish their steps. That the
barrier reads the visible backing of a shadowed buffer and writes the hidden one is the model's reading (log entry 89), and so is that a page
may have any place in the tier where it fits (log entry 42). -/
def Obligations.MigrationEvents : Prop :=
  ∀ (st : State) (core slot : Nat),
    let x := st.slot core slot
    let o := x.op
    let q := st.part o.part
    let next := fun (t : State) (size : Nat) => (t.slot core slot).op.page = none ∧
      (t.slot core slot).op.xa1 = BitVec.ofNat 64 (o.xa1.toNat + size) ∧
      (o.xb &&& 0x00FFFFFFFFFFFF00#64 = 0 → Stepped t core slot (x.prog + 1) o.pages) ∧
      (o.xb &&& 0x00FFFFFFFFFFFF00#64 ≠ 0 → (t.slot core slot).op.started = true ∧ (t.slot core slot).prog = x.prog)
    (Running st core slot → x.prog < o.pages →
      (∀ (w : Word) (a level : Nat), o.kind = .migrOut → o.started = false → o.page = none →
        o.xa1.toNat < 2 ^ 56 → q.bufAt o.xa1.toNat = none → st.leaf core o.part o.xa1.toNat = .inl (w, a, level) →
        o.xa1.toNat % pageSize level = 0 → pteF w = false → (o.level = .u → bitW w 5 = true) → pteT w = false → region (ptePA w) = .main →
        st.brokenLink core (q.stackAt (frameStack level) (q.stackTop (frameStack level)) :: linesOf (ptePA w) (pageSize level)) = none → q.tierPlaces (tierSpace (pageSize level) (st.frameBytes (ptePA w) (pageSize level))) ≠ [] →
        q.stackTop (frameStack level) + tget 0 q.reserved (frameStack level) < q.stackCap (frameStack level) →
        ∃ t, exec (.migrPageMove core slot true) st = .next t ∧ (t.slot core slot).op.page = some (w, a, level, ptePA w) ∧ (t.slot core slot).op.place ≠ none ∧
          tget 0 (t.part o.part).reserved (frameStack level) = tget 0 q.reserved (frameStack level) + 1 ∧
          (t.slot core slot).prog = x.prog ∧ ∀ p, t.peek p = st.peek p) ∧
      (∀ (w : Word) (a level frame : Nat), Moving st core o w a level frame → o.started = false →
        (o.kind = .migrOut → st.badLines = [] → st.deadChannels = [] → st.badCells = [] →
          ∀ place, o.place = some place → tierSpace (pageSize level) (st.frameBytes frame (pageSize level)) ≤ place.2 →
          let entry := q.stackAt (frameStack level) (q.stackTop (frameStack level))
          (∀ b ∈ eight a, b ∉ eight entry) → ∃ t, exec (.migrPageMove core slot true) st = .next t ∧
            (∃ y ∈ (t.part o.part).tier, y.ta = place.1 ∧ y.size = pageSize level ∧ y.sound = true ∧
              ∀ i, i < pageSize level → tget 0 y.bytes i = st.peek (frame + i)) ∧
            (eight a).map t.peek = leBytes 8 ((w &&& ~~~0x0000FFFFFFFFFF80#64) ||| BitVec.ofNat 64 (place.1 / 4096 * 4096 + 128)).toNat ∧
            (eight entry).map t.peek = leBytes 8 frame ∧ (∀ b, b ∉ eight a → b ∉ eight entry → t.peek b = st.peek b) ∧
            Untranslated t o o.xa1.toNat (pageSize level) ∧ next t (pageSize level)) ∧
        (o.kind = .migrIn → ∀ y, (q.tier.find? fun y => y.ta = pteTaddr w) = some y → y.size = pageSize level → y.sound = true →
          (∀ e ∈ y.bytes, e.1 < pageSize level) → (∀ b ∈ eight a, b < frame ∨ frame + pageSize level ≤ b) →
          ∃ t, exec (.migrPageMove core slot true) st = .next t ∧
            (∀ i, i < pageSize level → t.peek (frame + i) = tget 0 y.bytes i) ∧
            (eight a).map t.peek = leBytes 8 ((w &&& ~~~0x0000FFFFFFFFFF80#64) ||| BitVec.ofNat 64 frame).toNat ∧
            (∀ b, b ∉ eight a → (b < frame ∨ frame + pageSize level ≤ b) → t.peek b = st.peek b) ∧
            (∀ z ∈ (t.part o.part).tier, z.ta ≠ y.ta) ∧ Untranslated t o o.xa1.toNat (pageSize level) ∧ next t (pageSize level))) ∧
      (∀ l : List Loc, o.kind = .migrOut ∨ o.kind = .migrIn → o.started = true → o.awaiting = false → RestFor st o →
        Reaches st core o .atomic ((List.range 8).map fun i => (o.xb &&& 0x00FFFFFFFFFFFF00#64) + BitVec.ofNat 64 i) l →
        (l.map st.hidden).Nodup → ∃ t, exec (.migrPageMove core slot true) st = .next t ∧
          Wrote st t (l.map st.hidden) (leBytes 8 (leNat (l.map fun b => st.peek (st.visible b)) + 1)) ∧
          Stepped t core slot (x.prog + 1) o.pages ∧ (t.slot core slot).op.started = false)) ∧
    ∀ p, (st.part p).parking = true → (∀ c ∈ st.coresOf p, tsorted (st.core c).slots = true) → ∃ t, exec (.parkDrainExpiry p) st = .next t ∧
      (∀ c ∈ st.coresOf p, ∀ e ∈ (st.core c).slots, st.slot c e.1 = e.2 →
        (e.2.pending = true → e.2.st ≠ .parked → st.atBoundary c e.1 = true → (t.slot c e.1).st = .parked ∧ (t.slot c e.1).left = e.2.phase ∧
          (t.slot c e.1).prog = e.2.prog) ∧
        (e.2.pending = false ∨ e.2.st = .parked ∨ st.atBoundary c e.1 = false → t.slot c e.1 = e.2)) ∧
      (t.part p).drained = true ∧ (∀ c, c ∉ st.coresOf p → t.core c = st.core c) ∧ { t with cores := st.cores, parts := st.parts } = st

/-! ### Events from outside, of Woad and of the control region -/

namespace Sys2Proof.Claims

open Sys2Proof.Machine

/-- The next n bytes from an address, as the last writes at their homes left them (19 R351). -/
def lastBytes (st : State) (pa n : Nat) : List Byte := (List.range n).map fun i => (st.last (pa + i)).val

/-- No line, channel or cell has failed (17 R325, 18 R345). -/
def Intact (st : State) : Prop := st.badLines = [] ∧ st.deadChannels = [] ∧ st.badCells = []

/-- A link of the part as it stands. -/
def link (st : State) (n : Nat) : Link := tget {} st.links n

/-- A flit of a link has been taken in order: the next number is expected (19 R350). -/
def Took (st t : State) (n : Nat) : Prop := (link t n).expect = ((link st n).expect + 1) % 2 ^ 32 ∧ ∀ m, m ≠ n → link t m = link st m

/-- The part has entered SAFE (19 R360): its state, the failing step with its unit and index, and the islands that it gates. -/
structure Safe (st t : State) (step : Nat) (unit : BitVec 8) (index : Nat) : Prop where
  boot : t.woad.boot = .safe ∧ t.woad.failStep = step ∧ t.woad.unit = unit ∧ t.woad.index = index
  gates : ∀ i, i < 28 ∨ (32 ≤ i ∧ i < 128) → tget 0 t.power.effect i = 6
  bytes : ∀ p, t.peek p = st.peek p

end Sys2Proof.Claims

/-- HOST_READ_REQUEST, HOST_WRITE, FABRIC_REQUEST and MIGRATION_DATA (R349, R351, R352): a request that reaches the port is acknowledged and
answered under its flit's number: a read with the bytes at their homes, a write by one numbered write of aligned units that its
completion will follow, and a range that the port does not accept with status 2; another module's request within the carve of a composed
partition is served, and any other refused. -/
def Obligations.OutsideRequests : Prop :=
  ∀ (st : State) (p pa : Nat) (bytes : List Byte), Intact st → (∀ m, m < 6 → (link st m).failed = false) →
    let tag := (link st 32).expect
    (st.hostReaches p = true → Clear st 32 →
      (∀ n, st.hostAccepts p pa n = true → ∃ t, exec (.hostReadRequest p pa n) st = .next t ∧
        t.out = st.out ++ [.acknowledge 32 tag, .completion tag 0 (lastBytes st pa n)] ∧ t.mem = st.mem ∧ t.writes = st.writes ∧
        t.ctxs = st.ctxs) ∧
      (∀ n, st.hostAccepts p pa n = false → ∃ t, exec (.hostReadRequest p pa n) st = .next t ∧
        t.out = st.out ++ [.acknowledge 32 tag, .completion tag 2 []] ∧ t.mem = st.mem ∧ t.ctxs = st.ctxs) ∧
      (st.hostAccepts p pa bytes.length = true → ∃ t w, exec (.hostWrite p pa bytes) st = .next t ∧ t.writes = st.writes ++ [w] ∧
        w.die = 0 ∧ w.num = st.issued.at 0 + 1 ∧ w.ctx = noCtx ∧ w.id = tag + 1 ∧ w.growing = false ∧
        (∀ d, d < 4 → d ≠ 0 → w.clock.at d = (st.knownAt 0).at d) ∧
        w.parts.flatMap (·.locs) = (List.range bytes.length).map (fun i => Loc.phys (pa + i)) ∧ w.parts.flatMap (·.bytes) = bytes ∧
        t.out = st.out ++ [.acknowledge 32 tag] ∧ t.mem = st.mem ∧ t.ctxs = st.ctxs ∧ Took st t 32) ∧
      (st.hostAccepts p pa bytes.length = false → ∃ t, exec (.hostWrite p pa bytes) st = .next t ∧
        t.out = st.out ++ [.acknowledge 32 tag, .completion tag 2 []] ∧ t.mem = st.mem ∧ t.writes = st.writes)) ∧
    (∀ port, port < 16 → Clear st (16 + port) → (link st (16 + port)).up = true → st.woad.boot = .run → bytes.length ≤ 232 →
      let ok := p < 40 ∧ st.pstate p ≠ 0 ∧ region pa = .main ∧ (st.part p).inCarve pa bytes.length = true
      let ack := Msg.acknowledge (16 + port) (link st (16 + port)).expect
      (ok → (∃ t, exec (.fabricRequest port p pa false bytes) st = .next t ∧
          t.out = st.out ++ [ack, .fabric port 0 (lastBytes st pa bytes.length)] ∧ t.mem = st.mem) ∧
        (st.fabric = [] → ∃ t, exec (.fabricRequest port p pa true bytes) st = .next t ∧
          (t.out = st.out ++ [ack, .fabric port 0 []] ∨
            t.out = st.out ++ [ack] ∧ ∃ k, t.fabric = [(port, k)] ∧ ∃ d, d < 4 ∧ k.le (t.knownAt d) = false) ∧
          (∀ i, i < bytes.length → t.peek (pa + i) = bytes.getD i 0) ∧
          ∀ x, x < pa ∨ pa + bytes.length ≤ x → t.peek x = st.peek x)) ∧
      (¬ ok → ∀ wr, ∃ t, exec (.fabricRequest port p pa wr bytes) st = .next t ∧ t.out = st.out ++ [ack, .fabric port 2 []] ∧
        t.mem = st.mem)) ∧
    ∀ ta, p < 40 → bytes.length ≤ 232 → (link st 32).failed = false → ∃ t, exec (.migrationData p ta bytes) st = .next t ∧
      Took st t 32 ∧ t.out = st.out ++ [.acknowledge 32 tag] ∧ t.mem = st.mem ∧ t.ctxs = st.ctxs

/-- The events of links, STATUS_QUERY and ATTESTATION_REQUEST (R348, R350, R360, R361): a completion is taken in order and acknowledged; it
acknowledges a write of the operation that it names, and one that refuses makes a running transfer fault COPY_ACCESS; an acknowledgement
frees the held flits up to its number, modulo 2^32; a replay request sends those from its number on again, and the ninth of one fails the
link; a corrupt flit has replay asked for from the one expected; a link whose replay is exhausted is failed, and recorded. Of the flits that
arrive, one that is no flit or lies outside the window is corrupt, one delivered before is acknowledged again and discarded, and one that
comes early is held. Woad answers a status query in every state, and attests in RUN only, with signatures whose bytes are free. The model's
choices: that a delivery acknowledges at once (log entry 55); that a die-to-die link (n < 16) may be failed in every state, and that
what asks for replay bears no number of its own and an early flit is held (log entry 93); that the bytes of a signature are free anew
at every moment (log entry 5). -/
def Obligations.LinksAndReports : Prop :=
  ∀ (st : State) (n seq : Nat), (n < 6 ∨ (16 ≤ n ∧ n < 33)) → (link st n).failed = false →
    let fails := fun (t : State) => link t n = { link st n with failed := true } ∧
      (∃ r, t.woad.telemetry = st.woad.telemetry ++ [r] ∧ fldW r.d0 0 8 = Code.link ∧ r.d3 = BitVec.ofNat 64 n) ∧
      t.ctxs = st.ctxs ∧ t.mem = st.mem
    let from_ := fun (h : Flit) => (h.seq + 2 ^ 32 - seq) % 2 ^ 32 < 2 ^ 16
    (∀ tag status, ∃ t, exec (.linkCompletion n tag status) st = .next t ∧ Took st t n ∧
      t.out = st.out ++ [.acknowledge n (link st n).expect] ∧
      let x := st.slot (tag / 64) (tag % 64)
      let y := t.slot (tag / 64) (tag % 64)
      (16 ≤ n → n < 32 → tag / 64 < 160 → x.phase = .running ∨ x.phase = .waiting → x.pending = true →
        (status = 0 → y = { x with op := { x.op with unacked := x.op.unacked - 1 } }) ∧
        (∀ k loc a, status ≠ 0 → st.remotePart (tag / 64) (tag % 64) n = some (k, loc, a) → k < 16 →
          FaultedAt t (tag / 64) (tag % 64) 0x21 k loc) ∧
        (status ≠ 0 → x.op.kind = .copyf → x.op.started = true → x.op.unacked ≠ 0 → FaultedAt t (tag / 64) (tag % 64) 0x21 2 0)) ∧
      (n < 16 ∨ n = 32 → t.cores = st.cores)) ∧
    ((link st n).waiting = [] → ∃ t, exec (.linkAcknowledgement n seq) st = .next t ∧
      (∀ h, h ∈ (link t n).held ↔ h ∈ (link st n).held ∧ ¬ (seq + 2 ^ 32 - h.seq) % 2 ^ 32 < 2 ^ 16) ∧
      (∀ m, m ≠ n → link t m = link st m) ∧ { t with links := st.links } = st) ∧
    ((∀ h ∈ (link st n).held, from_ h → h.times < 8) → ∃ t, exec (.linkReplayRequest n seq) st = .next t ∧
      (link t n).held = (link st n).held.map (fun h => if from_ h then { h with times := h.times + 1 } else h) ∧
      t.out = st.out ++ ((link st n).held.filter fun h => from_ h).map (·.msg) ∧
      (∀ m, m ≠ n → link t m = link st m) ∧ { t with links := st.links, out := st.out } = st) ∧
    ((∃ h ∈ (link st n).held, from_ h ∧ 8 ≤ h.times) → ∃ t, exec (.linkReplayRequest n seq) st = .next t ∧ fails t) ∧
    (∃ t, exec (.flitCorrupt n) st = .next t ∧
      link t n = { link st n with replayAsked := some (link st n).expect, asks := (link st n).asks + 1 } ∧
      t.out = st.out ++ [.replay n (link st n).expect] ∧
      (∀ m, m ≠ n → link t m = link st m) ∧ { t with links := st.links, out := st.out } = st) ∧
    (n < 16 ∨ 8 ≤ (link st n).asks ∨ (∃ h ∈ (link st n).held, 8 ≤ h.times) → ∃ t, exec (.linkFail n) st = .next t ∧ fails t) ∧
    (16 ≤ n → (link st n).asks < 8 → (∀ h ∈ (link st n).held, h.times < 8) → exec (.linkFail n) st = .next st) ∧
    (∀ b : List Byte, (16 ≤ n → n < 32 → (link st n).up = true) →
      let number := flitSeq b
      let ahead := (number + 2 ^ 32 - (link st n).expect) % 2 ^ 32 < 2 ^ 16
      let behind := ((link st n).expect + 2 ^ 32 - number) % 2 ^ 32 < 2 ^ 16
      let numbered := flitTaken b = true ∧ flitLen b ≤ 232 ∧ flitType b ≠ 0x04 ∧ flitType b ≠ 0x05
      (flitTaken b = false ∨ 232 < flitLen b ∨ (numbered ∧ ¬ ahead ∧ ¬ behind) → st.arrive n b = exec (.flitCorrupt n) st) ∧
      (numbered → number ≠ (link st n).expect → behind → ¬ ahead →
        st.arrive n b = .next { st with out := st.out ++ [.acknowledge n number] }) ∧
      (numbered → number ≠ (link st n).expect → ahead → (∀ x ∈ (link st n).early, flitSeq x ≠ number) →
        ∃ t, st.arrive n b = .next t ∧ link t n = { link st n with early := (link st n).early ++ [b] } ∧
          (∀ m, m ≠ n → link t m = link st m) ∧ { t with links := st.links } = st)) ∧
    (∃ t, exec .statusQuery st = .next t ∧ t.out = st.out ++ [.status st.woad.statusReport] ∧ { t with out := st.out } = st ∧
      st.woad.statusReport.length = 16) ∧
    ∀ nonce, (st.woad.boot = .run → ∃ t b, exec (.attestationRequest nonce) st = .next t ∧
        t.out = st.out ++ [.report b (Config.rsaSign st.tick b) (Config.slhSign st.tick b)] ∧ b.length = 384 ∧
        (b.drop 8).take 32 = leBytes 32 nonce.toNat ∧ (b.drop 4).take 4 = leBytes 4 st.woad.minVersion.toNat ∧ { t with out := st.out } = st) ∧
      (st.woad.boot ≠ .run → exec (.attestationRequest nonce) st = .next st)

/-- Bring-up (R356 to R360): POWER_ON_RESET leaves everything as after reset but the fuses, and stands in LOAD, or in SAFE where the ROM
fails; a repair that fails is reported with its die (4, 4, die); an image is loaded,
verified and the self-test passed in that order, and each failure leads to SAFE; CONFIG begins with the firmware at address 0 and
its thread at M on context 0; GO leads to RUN, FAIL to SAFE with firmware's detail; the security version only rises. -/
def Sys2Proof.Claims.BringUp : Prop :=
  ∀ (st : State),
    (∃ t, exec .powerOnReset st = .next t ∧ (st.woad.romOk = true → t.woad.boot = .load) ∧
      (st.woad.romOk = false → t.woad.boot = .safe ∧ t.woad.failStep = 0 ∧ t.woad.unit = 0 ∧ t.woad.index = 0 ∧
        ∀ i, i < 28 ∨ (32 ≤ i ∧ i < 128) → tget 0 t.power.effect i = 6) ∧ t.woad.romOk = st.woad.romOk ∧
      t.woad.repairFails = st.woad.repairFails ∧ t.woad.rsaKeyDigest = st.woad.rsaKeyDigest ∧
      t.woad.slhKeyDigest = st.woad.slhKeyDigest ∧ t.woad.minVersion = st.woad.minVersion ∧ t.woad.image = st.woad.image ∧
      t.woad.telemetry = [] ∧ t.out = [] ∧
      { t with woad := {}, power := {}, tick := 0, agenda := [], prompt := false } =
        { State.reset with woad := {}, power := {}, tick := 0, agenda := [], prompt := false } ∧
      (st.woad.romOk = true → t.power = State.reset.power)) ∧
    (st.woad.boot = .load → (st.woad.image = [] → ∃ t, exec .firmwareLoad st = .next t ∧ Safe st t 0 0 0) ∧
      (st.woad.image ≠ [] → ∃ t, exec .firmwareLoad st = .next t ∧ t.woad.boot = .verify ∧ t.woad.loaded = st.woad.image ∧
        { t with woad := st.woad } = st)) ∧
    (st.woad.boot = .verify → ∃ t, exec .firmwareVerify st = .next t ∧ ((st.woad.accepts = false ∧ Safe st t 0 0 0) ∨
      (st.woad.accepts = true ∧ st.woad.minVersion ≤ fwVersion st.woad.loaded ∧ t.woad.boot = .selftest ∧ { t with woad := st.woad } = st))) ∧
    (st.woad.boot = .selftest → (∀ s u i, st.woad.testFailure = some (s, u, i) → ∃ t, exec .selfTest st = .next t ∧
        Safe st t s (BitVec.ofNat 8 u) i) ∧
      (∀ d rest, st.woad.laneFails = [] → st.woad.arrayFails = [] → st.woad.marchFails = [] → st.woad.repairFails = d :: rest →
        ∃ t, exec .selfTest st = .next t ∧ Safe st t 4 4 d) ∧
      (st.woad.testFailure = none → ∃ t, exec .selfTest st = .next t ∧ t.woad.boot = .config ∧ t.cur = 0 ∧
        (t.ctx 0).sys.cpl = .m ∧ (t.ctx 0).pc = 0 ∧ (t.ctx 0).rx 10 = BitVec.ofNat 64 (fwCode st.woad.loaded).length ∧
        (t.ctx 0).rx 11 = 0xF00006000000#64 ∧ (∀ c, c ≠ 0 → t.ctx c = {}) ∧ (t.core 0).halted = false ∧
        (∀ c, c ≠ 0 → (t.core c).halted = true) ∧ t.deadChannels = st.woad.channelFails ∧
        ∀ p, p < 0xE000000000 → t.peek p = (fwCode st.woad.loaded).getD p 0)) ∧
    (st.woad.boot = .config → (∃ t, exec .brctlGo st = .next t ∧ t.woad.boot = .run ∧ (t.ctx 0).thread = none ∧ (t.ctx 0).sys.cpl = .u ∧
        (∀ c, c ≠ 0 → t.ctx c = st.ctx c) ∧ t.parts = st.parts ∧ t.mem = st.mem) ∧
      ∀ d, ∃ t, exec (.brctlFail d) st = .next t ∧ Safe st t 5 0 0 ∧ t.woad.detail = d) ∧
    ∀ v, (st.woad.boot = .run → st.woad.minVersion < v → v ≤ fwVersion st.woad.loaded →
        ∃ t, exec (.securityVersionRaise v) st = .next t ∧ t = { st with woad := { st.woad with minVersion := v } }) ∧
      (st.woad.boot ≠ .run ∨ v ≤ st.woad.minVersion ∨ fwVersion st.woad.loaded < v → exec (.securityVersionRaise v) st = .next st)

/-- The events of the power block (R362, R363): a write of an operating point that the island may take is asked for, a matrix island's
no faster than Woad's limit; it takes effect when its change completes; the limit goes a step lower when power is exceeded, to 4 at most,
with telemetry, and a step back when it is restored; a matrix island under it asks for the lower of the two, and its byte shows that one
while the limit stands and firmware's own again after it (the model's choice: log entry 103). In SAFE a write does nothing (R360). -/
def Sys2Proof.Claims.PowerEvents : Prop :=
  ∀ (st : State) (n : Nat), n < 128 →
    let matrix := 10 ≤ n % 32 ∧ n % 32 < 20
    let quad := 10 * (n / 32) + n % 32 % 10
    let idle := ∀ k, k < 4 → (st.core (4 * quad + k)).halted = true
    (∀ v : BitVec 8, st.woad.boot ≠ .safe →
      ((v &&& 7).toNat < 6 ∧ (n / 32 = 0 → n % 32 < 28 ∨ v &&& 7 = 0)) ∨ (v &&& 7 = 6 ∧ n % 32 < 20 ∧ idle) → ∃ t, exec (.oppWrite n v) st = .next t ∧
      tget 0 t.power.opp n = v &&& 7 ∧
      tget 0 t.power.asked n = (if matrix ∧ (v &&& 7).toNat < st.power.limit then BitVec.ofNat 8 st.power.limit else v &&& 7) ∧
      (∀ m, m ≠ n → tget 0 t.power.opp m = tget 0 st.power.opp m ∧ tget 0 t.power.asked m = tget 0 st.power.asked m) ∧
      { t with power := st.power } = st) ∧
    (∀ v, st.woad.boot = .safe ∨ v &&& 7 = 7 ∨ (v &&& 7 = 6 ∧ ¬ (n % 32 < 20 ∧ idle)) ∨ (n / 32 = 0 ∧ 28 ≤ n % 32 ∧ v &&& 7 ≠ 0) → exec (.oppWrite n v) st = .next st) ∧
    st.mmioLoad (0xF00005000000 + n) = (if matrix then BitVec.ofNat 64 (max (tget 0 st.power.opp n).toNat st.power.limit)
      else (tget 0 st.power.opp n).setWidth 64) ∧
    (st.woad.boot ≠ .safe → ∃ t, exec (.oppChangeComplete n) st = .next t ∧ tget 0 t.power.effect n = tget 0 st.power.asked n ∧
      (∀ m, m ≠ n → tget 0 t.power.effect m = tget 0 st.power.effect m) ∧ { t with power := st.power } = st) ∧
    (4 ≤ st.power.limit → exec .powerLimitExceeded st = .next st) ∧ (st.power.limit = 0 → exec .powerLimitRestore st = .next st) ∧
    (st.power.limit < 4 → ∃ t, exec .powerLimitExceeded st = .next t ∧ t.power.limit = st.power.limit + 1 ∧
      t.woad.telemetry.length = st.woad.telemetry.length + 1 ∧ t.power.opp = st.power.opp ∧
      (matrix → tget 0 t.power.asked n = (if (tget 0 st.power.opp n).toNat < st.power.limit + 1
        then BitVec.ofNat 8 (st.power.limit + 1) else tget 0 st.power.opp n)) ∧
      (¬ matrix → tget 0 t.power.asked n = tget 0 st.power.asked n)) ∧
    (0 < st.power.limit → ∃ t, exec .powerLimitRestore st = .next t ∧ t.power.limit = st.power.limit - 1 ∧ t.power.opp = st.power.opp ∧
      (matrix → st.power.limit ≤ 4 → tget 0 t.power.asked n = (if (tget 0 st.power.opp n).toNat < st.power.limit - 1
        then BitVec.ofNat 8 (st.power.limit - 1) else tget 0 st.power.opp n)) ∧
      (¬ matrix → tget 0 t.power.asked n = tget 0 st.power.asked n) ∧ { t with power := st.power } = st)

/-- Bring-up, and the power block (R356 to R363). -/
def Obligations.BringUpAndPower : Prop := Claims.BringUp ∧ Claims.PowerEvents

/-- The stores to the control region as events (R295 to R297, R301, R327, R352, R353, R5): a legal store leaves the fields that software writes in
their register and no other register changed; a store that its rule refuses changes nothing. A store of PRI reaches the launches of its queue,
which keep what they have gained by ageing; a store to the pool drops the save of a thread whose area is no more (the model's choices: log
entry 108). What module stands at a trained port is free (log entry 46). -/
def Obligations.ControlStores : Prop :=
  ∀ (st : State) (p : Nat) (v : Word), p < 40 →
    let q := st.part p
    let only := fun (t : State) => (∀ x, x ≠ p → t.part x = st.part x) ∧ { t with parts := st.parts } = st
    let pri := fun (r : Part) (l : Launch) => (tget 0 r.qctl l.queue).toNat % 4
    (∀ off, off < 64 → ∃ t, exec (.qctlWrite p off v) st = .next t ∧ only t ∧ (∀ i, i < 64 → tget 0 (t.part p).qctl i =
        if i / 8 = off / 8 then BitVec.ofNat 8 (fldW v (8 * (i % 8)) 8) &&& 0x83 else tget 0 q.qctl i) ∧
      (t.part p).launches = q.launches.map (fun x => (x.1, if x.2.done then x.2 else
        { x.2 with eff := min 3 (pri (t.part p) x.2 + (x.2.eff - pri q x.2)) })) ∧
      { t.part p with qctl := [], launches := [] } = { q with qctl := [], launches := [] }) ∧
    (let kept := fun (t : State) (n : Nat) => (∀ x, x ≠ p → t.part x = st.part x) ∧ { t with parts := st.parts, ctxs := st.ctxs } = st ∧
        ∀ c, c < 640 →
          let lost := coreOf c ∈ st.coresOf p ∧ ∃ r i, (st.ctx c).saving = some r ∧ r.pool = some i ∧ n ≤ i
          (lost → t.ctx c = { st.ctx c with saving := none }) ∧ (¬ lost → t.ctx c = st.ctx c)
      let ppb := v &&& 0x0000FFFFFFFFF000#64
      let ppc := v &&& 0xFF#64
      let may := fun (b n : Word) => q.poolUsed = false ∧ (n = 0 ∨ q.inCarve b.toNat (n.toNat * 81920) = true)
      (may ppb q.ppc → ∃ t, exec (.poolWrite p 0x40 v) st = .next t ∧ kept t q.ppc.toNat ∧ t.part p = { q with ppb := ppb }) ∧
      (¬ may ppb q.ppc → exec (.poolWrite p 0x40 v) st = .next st) ∧
      (may q.ppb ppc → ∃ t, exec (.poolWrite p 0x48 v) st = .next t ∧ kept t ppc.toNat ∧ t.part p = { q with ppc := ppc }) ∧
      (¬ may q.ppb ppc → exec (.poolWrite p 0x48 v) st = .next st)) ∧
    (∀ i c, (st.coresOf p)[i]? = some c → i < 160 →
      let r0 := v &&& 0x0000FFFFFFFFFF80#64
      let r1 := v &&& 0x1FFF#64
      let may := fun (b n : Word) => (st.core c).ring = [] ∧ n.toNat ∈ ringSizes ∧ (n = 0 ∨ q.inCarve b.toNat (128 * n.toNat) = true)
      let set := fun (t : State) (b n : Word) => only t ∧ tget 0 (t.part p).ring0 c = b ∧ tget 0 (t.part p).ring1 c = n ∧
        (∀ x, x ≠ c → tget 0 (t.part p).ring0 x = tget 0 q.ring0 x ∧ tget 0 (t.part p).ring1 x = tget 0 q.ring1 x) ∧
        { t.part p with ring0 := [], ring1 := [] } = { q with ring0 := [], ring1 := [] }
      (may r0 (tget 0 q.ring1 c) → ∃ t, exec (.ringWrite p (0x100 + 16 * i) v) st = .next t ∧ set t r0 (tget 0 q.ring1 c)) ∧
      (¬ may r0 (tget 0 q.ring1 c) → exec (.ringWrite p (0x100 + 16 * i) v) st = .next st) ∧
      (may (tget 0 q.ring0 c) r1 → ∃ t, exec (.ringWrite p (0x108 + 16 * i) v) st = .next t ∧ set t (tget 0 q.ring0 c) r1) ∧
      (¬ may (tget 0 q.ring0 c) r1 → exec (.ringWrite p (0x108 + 16 * i) v) st = .next st)) ∧
    (∀ i, i < 64 → (q.inQueue i = [] → ∃ t, exec (.qjobWrite p (0xC00 + 8 * i) v) st = .next t ∧ only t ∧
        tget 0 (t.part p).qjob i = v.setWidth 32 ∧ ∀ j, j ≠ i → tget 0 (t.part p).qjob j = tget 0 q.qjob j) ∧
      (q.inQueue i ≠ [] → exec (.qjobWrite p (0xC00 + 8 * i) v) st = .next st)) ∧
    (∃ t, exec (.jcloseWrite p v) st = .next t ∧ only t ∧
      (∀ j, j ∈ (t.part p).closedJobs ↔ j ∈ q.closedJobs ∨ j = (v.setWidth 32).toNat) ∧
      { t.part p with closedJobs := [] } = { q with closedJobs := [] }) ∧
    (st.migrating p = false → ∀ i, i < 4 →
      (∃ t, exec (.migrationBlockWrite p (0x10 + 16 * i) v) st = .next t ∧ only t ∧
        tget 0 (t.part p).fsb i = v &&& 0x0000FFFFFFFFFFF8#64 ∧ (t.part p).fsn = q.fsn) ∧
      ∃ t, exec (.migrationBlockWrite p (0x18 + 16 * i) v) st = .next t ∧ only t ∧ tget 0 (t.part p).fsn i = v ∧ (t.part p).fsb = q.fsb) ∧
    (st.migrating p = true → ∀ off, exec (.migrationBlockWrite p off v) st = .next st) ∧
    (st.migrating p = false → ∀ off ∈ [0, 8],
      let tb := if off = 0 then v &&& 0x0000FFFFFFFF0000#64 else q.tierb
      let ts := if off = 8 then v &&& 0x1FFFFFFF#64 else q.tiers
      let n := ts.toNat * 65536
      let may := (n = 0 ∨ (0x200000000000 ≤ tb.toNat ∧ tb.toNat + n ≤ 0x300000000000)) ∧
        ∀ e ∈ st.parts, e.1 ≠ p → n = 0 ∨ tb.toNat + n ≤ fldW e.2.tierb 16 32 * 65536 ∨
          fldW e.2.tierb 16 32 * 65536 + fldW e.2.tiers 0 29 * 65536 ≤ tb.toNat ∨ fldW e.2.tiers 0 29 = 0
      (may → ∃ t, exec (.migrationBlockWrite p off v) st = .next t ∧ only t ∧ t.part p = { q with tierb := tb, tiers := ts }) ∧
      (¬ may → exec (.migrationBlockWrite p off v) st = .next st)) ∧
    (∀ off ∈ [0, 8],
      let cb := if off = 0 then v &&& 0x0000FFFFC0000000#64 else q.carveb
      let cs := if off = 8 then v &&& 0x3FF#64 else q.carves
      let n := cs.toNat * 2 ^ 30
      let may := (st.pstate p = 0 ∨ st.pstate p = 3) ∧ cs.toNat ≤ 896 ∧ cb.toNat + n ≤ 0xE000000000 ∧
        ∀ e ∈ st.parts, e.1 ≠ p → n = 0 ∨ cb.toNat + n ≤ e.2.carveBase ∨ e.2.carveBase + e.2.carveSize ≤ cb.toNat ∨ e.2.carveSize = 0
      (may → ∃ t, exec (.carveWrite p off v) st = .next t ∧ only t ∧ t.part p = { q with carveb := cb, carves := cs }) ∧
      (¬ may → exec (.carveWrite p off v) st = .next st)) ∧
    (∀ n, n < 16 → ((link st (16 + n)).failed = true ∨ (link st (16 + n)).up = false → ∃ t peer, exec (.portTrain n) st = .next t ∧ peer < 1024 ∧
        link t (16 + n) = { link st (16 + n) with
          failed := false, up := true, held := [], waiting := [], early := [], replayAsked := none, asks := 0, peer := peer } ∧
        (∀ m, m ≠ 16 + n → link t m = link st m) ∧ { t with links := st.links } = st) ∧
      ((link st (16 + n)).failed = false → (link st (16 + n)).up = true → exec (.portTrain n) st = .next st)) ∧
    (∀ j, j < 256 → ∃ t, exec (.registerWrite (0xF00004000100 + 8 * j) v) st = .next t ∧ { t with routes := st.routes } = st ∧
      ∀ m, m < 1024 → tget 0 t.routes m = if m / 4 = j then BitVec.ofNat 4 (fldW v (16 * (m % 4)) 4) else tget 0 st.routes m) ∧
    (∃ t, exec (.registerWrite (0xF00003000010 + 0x10000 * p) v) st = .next t ∧ only t ∧ t.part p = { q with hlw := v &&& 0xF#64 }) ∧
    (∃ t, exec (.registerWrite 0xF00004000000 v) st = .next t ∧ t.modNum = v.setWidth 10 ∧ t.gang = BitVec.ofNat 32 (fldW v 10 32) ∧
      { t with modNum := st.modNum, gang := st.gang } = st)

/-! ### The decoder, memory and the step -/

namespace Sys2Proof.Claims

open Sys2Proof.Machine

/-- The machine as a step begins: the step is counted, and its move is off the agenda. -/
def begun (st : State) (rest : List Move) : State := { st with tick := st.tick + 1, agenda := rest }

/-- The issuing context's next word w lies at these locations, and its fetch meets no trap and waits for nothing. -/
structure Fetches (st : State) (locs : List Loc) (w : Nat) : Prop where
  found : st.locate (coreOf st.cur) (st.partOf (coreOf st.cur)) st.me.sys.cpl .fetch true st.me.pc 4 = .inl locs
  memory : st.isMmio locs = false
  sound : st.hardError (coreOf st.cur) st.me.pc (locs.map st.visible) = none
  rest : AtRest st ∧ st.deadChannels = []
  word : leNat (locs.map fun l => st.peek (st.visible l)) = w

/-- What the fetch of a word leaves: the entries of the core's translation buffer for its pages (15 R284). -/
def fetched (st : State) : State := st.fillAt (coreOf st.cur) (st.partOf (coreOf st.cur)) st.me.pc 4

/-- A word that issues as soon as it has been fetched: alone, with every register that it names (07 R165), or within a convoy that has begun
(07 R162, R171). -/
def Alone (st : State) (w : Nat) : Prop := (st.me.opened = [] ∧ goesOn w = false ∧ st.me.owes w = false) ∨ (st.me.opened ≠ [] ∧ vectorMajor w = true)

/-- The registers of a partition that software above U alone writes (15 R278, 16 R295 to R301, 17 R327, 19 R353). FSN is none of them: a
migration takes and gives frames (R328). -/
def partRegs (q : Part) : List Word × BitVec 40 × Bool × List (Table Word) × Table (BitVec 8) × Table (BitVec 32) :=
  ([q.tvec, q.ttb, q.lqopen, q.ppb, q.ppc, q.tierb, q.tiers, q.carveb, q.carves, q.hlw], q.qmask, q.composed,
    [q.ring0, q.ring1, q.fsb], q.qctl, q.qjob)

/-- The words that store to, or change, the location of a register: at a page of the control region they write a register of
the device. -/
def scalarStore (i : Instr) : Bool := (storeForm i).isSome || (atomicForm i).isSome

end Sys2Proof.Claims

/-- A step whose agenda has a ready context issue runs the instruction that the four bytes at its pc decode to, on the machine of
that context, after what the fetch itself leaves: an entry of the translation buffer (R284). The first word of a convoy issues once the
convoy has been fetched whole and its words and limits are in order (R162, R171). A word waits while a register that it names is still to be
written (R165; which words wait for loads gone past is the model's choice, log entries 50 and 96). A step whose agenda names an event
runs it. With an empty agenda, in CONFIG and RUN, the next ready context issues after a move of the device (the turns are the
model's choice, log entry 1), and the contexts before it have passed the turn that YIELD gave away. -/
def Obligations.StepRunsDecoded : Prop :=
  ∀ (st : State) (rest : List Move),
    (∀ (c : Nat) (locs : List Loc) (w : Nat) (i : Instr), st.agenda = .issue c :: rest →
      (begun st rest).ready c = true → (begun st rest).passes c = false →
      let s : State := { (begun st rest).turned [c] with cur := c }
      Fetches s locs w → decodeWord w = some i →
      (Alone s w → step st = exec i (fetched s)) ∧
      (s.me.opened = [] → goesOn w = false → s.me.owes w = true → step st = .next s) ∧
      (∀ (ws : List (Word × Nat)) (t : State), s.me.opened = [] → goesOn w = true →
        (fetched s).fetchRun (s.me.pc + 4) 64 [(s.me.pc, w)] = .inl (ws, t) → (∀ x ∈ ws, t.me.owes x.2 = false) →
        t.runTrap ws = none → t.me.opened = [] → step st = exec i t)) ∧
    (∀ (e : Instr), st.agenda = .event e :: rest → isEvent e = true → step st = exec e (begun st rest)) ∧
    ∀ (c : Nat) (passed : List Nat) (locs : List Loc) (w : Nat) (i : Instr), st.agenda = [] → st.woad.boot = .config ∨ st.woad.boot = .run →
      st.background = false → st.me.opened = [] → (begun st []).nextReady = some (passed, c) →
      let s : State := { (begun st []).turned (c :: passed) with cur := c, background := true }
      Fetches s locs w → decodeWord w = some i → Alone s w → step st = exec i (fetched s)

/-- Words written out from the encodings of R158, R159 and R177 to R179, the three worked words of R179's section among them; and words that are no
instruction (R161). -/
def Obligations.WordsDecode : Prop :=
  decodeWord 0b0_00_000001_00011_00100_00101_00000000 = some (.add 0 3 4 5) ∧
  decodeWord 0b0_01_000010_00001_00010_1111111111111 = some (.addi 1 1 2 0x1FFF) ∧
  decodeWord 0b0_00_001000_11111_100000000000000000 = some (.lui 0 31 0x20000) ∧
  decodeWord 0b0_00_001011_111_00100_00101_1111111110 = some (.bgen 0 4 5 0x3FE) ∧
  decodeWord 0b0_00_001100_11111111111111111111111 = some (.j 0 0x7FFFFF) ∧
  decodeWord 0b0_00_001111_00001_00010_110_0000000001 = some (.ldnW 0 1 2 1) ∧
  decodeWord 0b0_00_010001_00001_00010_00011_1001_1_1_0_0 = some (.amocas 0 1 2 3 true true false) ∧
  decodeWord 0b1_10_011000_00001_00010_00011_00001101 = some (.vadds true 2 1 2 3) ∧
  decodeWord 0b0_00_011011_00001_00010_1_1_010_10100101 = some (.vtbl false 0 1 2 2 true 0xA5) ∧
  decodeWord 0x1090A6C5 = some (.oaddF false 0 4 5 .plus .zero .minus 6) ∧
  decodeWord 0x1110A6C5 = some (.oadd false 0 4 5 .plus .zero .minus 6) ∧
  decodeWord 0b0_00_100111_00001_00010_00011_101_00001 = some (.gathb false 0 1 2 3 5) ∧
  decodeWord 0x18514C81 = some (.copyf 0 true 20 10 12) ∧
  decodeWord 0b0_00_111110_00001_0000000001_00000010 = some (.srr 0 1 1) ∧
  decodeWord 0 = none ∧ decodeWord 0xFFFFFFFF = none ∧
  decodeWord 0b1_00_000001_00011_00100_00101_00000000 = none ∧
  decodeWord 0b0_00_110000_10100_01011_01100_1_0000001 = none

/-- No bit of an encoding is dropped (R158 to R161, R177 to R179): the word of every instruction whose word exists has 32 bits and
decodes to that instruction, with every operand at every value that the encoding admits; no event has a word. -/
def Obligations.EncodeDecode : Prop :=
  ∀ (i : Instr), (i.wf = true → ∃ w, encode i = some w ∧ w < 2 ^ 32 ∧ decodeWord w = some i) ∧ (isEvent i = true → encode i = none)

/-- Every word has one meaning (R158, R161): a word that decodes is the word of the instruction it decodes to, bit for bit, and
that instruction is well formed; so two words never decode to one instruction, and a word with a bit set that its
encoding gives no meaning is no instruction. -/
def Obligations.DecodeEncode : Prop :=
  ∀ (w : Nat) (i : Instr), w < 2 ^ 32 → decodeWord w = some i → i.wf = true ∧ encode i = some w

/-- Memory (R324, and the model's form of memory, log entry 7): a byte reads as what was last written to it, and a write leaves every other byte; each
write keeps the parity of every stripe; and memories in canonical form that read alike are equal. -/
def Obligations.MemoryLaws : Prop :=
  ∀ (st : State) (pa : Nat) (v : Ver),
    (∀ b, (st.writeByte pa v).peek b = if b = pa then v.val else st.peek b) ∧
    (st.parityOk → (st.writeByte pa v).parityOk) ∧
    ∀ m, Memory.wf st.mem = true → Memory.wf m = true → (∀ a, tget 0 m a = st.peek a) → m = st.mem

/-- Every step of the part keeps its memory in canonical form, with the parity of every stripe the XOR of its data (R324): the
words of every context, the writes applied at their homes, the engines, the host and the fabric, and bring-up. -/
def Obligations.StepKeepsMemory : Prop :=
  ∀ (st t : State), st.memInv → step st = .next t → t.memInv

/-- The part after power-on (R356, R357, R61 to R63, R29, R39, R253, R354): bring-up stands in ROM; every context's registers, flags and levels
are at their reset values, each slot is FREE in generation 1, every chunk is set, every core is halted until bring-up starts core 0, no partition is composed, and
memory reads zero, with its parity right. Where the spec gives no reset value the value is the model's (log entry 32). -/
def Obligations.ResetState : Prop :=
  let s := State.reset
  s.woad.boot = .rom ∧ s.memInv ∧ (∀ a, s.peek a = 0) ∧ s.writes = [] ∧ s.agenda = [] ∧
  (∀ c, (s.ctx c).pc = 0 ∧ (s.ctx c).wait = none ∧ (s.ctx c).thread = none ∧ (s.ctx c).sys.cpl = .u ∧ (s.ctx c).ctrl.vl = 0x200 ∧
    (s.ctx c).ctrl.vm = 0 ∧ (s.ctx c).ctrl.vt = 9 ∧ (s.ctx c).ctrl.slipd = 16 ∧ (s.ctx c).clock = {} ∧
    (∀ r, (s.ctx c).rx r = 0 ∧ (s.ctx c).brick r = 0 ∧ (s.ctx c).mask r = 0 ∧ (s.ctx c).scale r = 0 ∧
      (s.ctx c).land r = BitVec.allOnes 8) ∧ ∀ n, (s.ctx c).lane n = 0) ∧
  (∀ c, (s.core c).chunks = BitVec.allOnes 6144 ∧ (s.core c).queue = [] ∧ (s.core c).joinBuf = [] ∧ (s.core c).tlb = [] ∧
    (s.core c).halted = true ∧ ∀ i, (s.slot c i).st = .free ∧ (s.slot c i).gen = 1) ∧
  (∀ p, s.pstate p = 0 ∧ (s.part p).composed = false ∧ (s.part p).tvec = 0 ∧ (s.part p).ttb = 0 ∧ (s.part p).lqopen = 0) ∧ s.mvec = 0

/-- What a word issued at U never changes (R275, R278): M's vector, the registers of every partition, and the levels and saved registers of
every other context. Scalar stores and atomics are not among these words: the buffer or page that holds their bytes decides what they
change (R110, R317, R318), and Stores and Atomics state that. -/
def Obligations.UserWordsKeepSystem : Prop :=
  ∀ (i : Instr) (st t : State), (encode i).isSome = true → scalarStore i = false → st.me.sys.cpl = .u → exec i st = .next t →
    t.mvec = st.mvec ∧ (∀ p, partRegs (t.part p) = partRegs (st.part p)) ∧ ∀ c, c ≠ st.cur → (t.ctx c).sys = (st.ctx c).sys
end

