-- ==== Sys2Proof/Laws/Bits.lean ====
section
/-! SUPPORT. Laws.Bits: the readings of a dword by the model's own helpers agree with those of BitVec. -/

namespace Sys2Proof.Machine

theorem sint_toInt {n : Nat} (v : BitVec n) : sint n v.toNat = v.toInt := by
  unfold sint
  rw [Nat.mod_eq_of_lt v.isLt, BitVec.toInt_eq_toNat_cond]
  split <;> simp

@[simp] theorem s64_eq (v : Word) : s64 v = v.toInt := sint_toInt v
@[simp] theorem u64_eq (v : Word) : u64 v = v.toNat := rfl

/-- sext of a bit field is the sign extension of BitVec. -/
theorem sextW_eq {n : Nat} (v : BitVec n) : sextW v.toNat n = v.signExtend 64 := by
  unfold sextW
  rw [sint_toInt]
  rfl

theorem fldW_eq (w : Word) (lo n : Nat) : fldW w lo n = (w.extractLsb' lo n).toNat := by
  simp [fldW, fld, BitVec.extractLsb'_toNat, Nat.shiftRight_eq_div_pow]

theorem sextW_mod (n v : Nat) : sextW (v % 2 ^ n) n = sextW v n := by
  simp [sextW, sint]

/-- sext of the low 32 bits of a dword. -/
theorem sextW_low (v : Word) : sextW v.toNat 32 = (v.setWidth 32).signExtend 64 := by
  rw [← sextW_eq, BitVec.toNat_setWidth, sextW_mod]

end Sys2Proof.Machine
end

