-- ==== Sys2Proof/Laws/Flit.lean ====
section
/-! SUPPORT. Laws.Flit: the bytes of numbers (00 R3), and the flits that a receiver takes (19 R349). -/

namespace Sys2Proof.Machine

@[simp] theorem leBytes_length (n v : Nat) : (leBytes n v).length = n := by
  induction n generalizing v with
  | zero => rfl
  | succ n ih => simp only [leBytes, List.length_cons, ih]

/-- The number that a number's n low bytes hold. -/
theorem leNat_leBytes (n v : Nat) : leNat (leBytes n v) = v % 256 ^ n := by
  induction n generalizing v with
  | zero => simp only [leBytes, leNat, Nat.pow_zero, Nat.mod_one]
  | succ n ih =>
    rw [leBytes, leNat, ih, Nat.pow_succ', Nat.mod_mul, BitVec.toNat_ofNat]

/-- 248 bytes of a type of the list, with their CRC, are a flit. -/
theorem flitTaken_of (b : List Byte) (h : b.length = 248) (t : (b.getD 4 0).toNat ∈ flitTypes) :
    flitTaken (b ++ leBytes 8 (crc64 b).toNat) = true := by
  have l : (crc64 b).toNat % 256 ^ 8 = (crc64 b).toNat := Nat.mod_eq_of_lt (crc64 b).isLt
  have g : (b ++ leBytes 8 (crc64 b).toNat).getD 4 0 = b.getD 4 0 := by
    simp only [List.getD_eq_getElem?_getD, List.getElem?_append_left (show 4 < b.length by omega)]
  simp only [flitTaken, List.length_append, h, leBytes_length, List.drop_left' h, List.take_left' h, leNat_leBytes, l, g, t,
    decide_true, Bool.and_self]

end Sys2Proof.Machine
end

