-- ==== Sys2Proof/Laws/State.lean ====
section
/-! SUPPORT. Laws.State: one lemma per field per update, so that no proof unfolds a record update; and the laws of sparse
tables. -/

namespace Sys2Proof.Machine

/-! ### Tables -/

@[simp] theorem tget_nil {α : Type} (d : α) (n : Nat) : tget d [] n = d := rfl

@[simp] theorem tget_tput_same {α : Type} (d : α) (t : Table α) (n : Nat) (v : α) : tget d (tput t n v) n = v := by
  induction t with
  | nil => simp [tput, tget]
  | cons e t ih =>
    obtain ⟨k, w⟩ := e
    simp only [tput]
    split
    · simp [tget]
    · split
      · next h => subst h; simp [tget]
      · next h => simp [tget, Ne.symm h, ih]

theorem tget_tput_ne {α : Type} (d : α) (t : Table α) {n m : Nat} (v : α) (h : m ≠ n) : tget d (tput t n v) m = tget d t m := by
  induction t with
  | nil => simp [tput, tget, Ne.symm h]
  | cons e t ih =>
    obtain ⟨k, w⟩ := e
    simp only [tput]
    split
    · simp [tget, Ne.symm h]
    · split
      · next hk => subst hk; simp [tget, Ne.symm h]
      · simp only [tget]; split <;> simp_all

@[simp] theorem tget_tdel_same {α : Type} (d : α) (t : Table α) (n : Nat) : tget d (tdel t n) n = d := by
  induction t with
  | nil => rfl
  | cons e t ih =>
    obtain ⟨k, w⟩ := e
    simp only [tdel]
    split
    · exact ih
    · next h => simp [tget, h, ih]

theorem tget_tdel_ne {α : Type} (d : α) (t : Table α) {n m : Nat} (h : m ≠ n) : tget d (tdel t n) m = tget d t m := by
  induction t with
  | nil => rfl
  | cons e t ih =>
    obtain ⟨k, w⟩ := e
    simp only [tdel]
    split
    · next hk => subst hk; simp [tget, Ne.symm h, ih]
    · simp only [tget]; split <;> simp_all

@[simp] theorem tget_tset_same {α : Type} [DecidableEq α] (d : α) (t : Table α) (n : Nat) (v : α) : tget d (tset d t n v) n = v := by
  unfold tset
  split
  · next h => simp [h]
  · simp

theorem tget_tset_ne {α : Type} [DecidableEq α] (d : α) (t : Table α) {n m : Nat} (v : α) (h : m ≠ n) :
    tget d (tset d t n v) m = tget d t m := by
  unfold tset
  split
  · exact tget_tdel_ne d t h
  · exact tget_tput_ne d t v h

theorem tget_tput {α : Type} (d : α) (t : Table α) (n m : Nat) (v : α) : tget d (tput t n v) m = if m = n then v else tget d t m := by
  split
  · next h => subst h; simp
  · next h => exact tget_tput_ne d t v h

theorem tget_tset {α : Type} [DecidableEq α] (d : α) (t : Table α) (n m : Nat) (v : α) :
    tget d (tset d t n v) m = if m = n then v else tget d t m := by
  split
  · next h => subst h; simp
  · next h => exact tget_tset_ne d t v h

/-! ### The canonical form of tables -/

/-- Whether every number listed is at least n. -/
def tabove {α : Type} (n : Nat) (t : Table α) : Prop := ∀ e ∈ t, n < e.1

theorem tsorted_cons {α : Type} (k : Nat) (w : α) (t : Table α) :
    tsorted ((k, w) :: t) = true ↔ tabove k t ∧ tsorted t = true := by
  induction t generalizing k w with
  | nil => simp [tsorted, tabove]
  | cons e t ih =>
    obtain ⟨j, v⟩ := e
    simp only [tsorted, Bool.and_eq_true, decide_eq_true_eq]
    constructor
    · rintro ⟨h, hs⟩
      have h2 := (ih j v).1 hs
      refine ⟨?_, hs⟩
      intro e he
      rcases List.mem_cons.1 he with rfl | he
      · exact h
      · exact Nat.lt_trans h (h2.1 e he)
    · rintro ⟨h, hs⟩
      exact ⟨h (j, v) (List.mem_cons_self ..), hs⟩

theorem tput_mem {α : Type} (t : Table α) (n : Nat) (v : α) : ∀ e ∈ tput t n v, e = (n, v) ∨ e ∈ t := by
  induction t with
  | nil => intro e he; simp [tput] at he; exact .inl he
  | cons a t ih =>
    obtain ⟨k, w⟩ := a
    intro e he
    simp only [tput] at he
    split at he
    · rcases List.mem_cons.1 he with rfl | he
      · exact .inl rfl
      · exact .inr he
    · split at he
      · next hk =>
        subst hk
        rcases List.mem_cons.1 he with rfl | he
        · exact .inl rfl
        · exact .inr (List.mem_cons_of_mem _ he)
      · rcases List.mem_cons.1 he with rfl | he
        · exact .inr (List.mem_cons_self ..)
        · rcases ih e he with h | h
          · exact .inl h
          · exact .inr (List.mem_cons_of_mem _ h)

theorem tput_sorted {α : Type} (t : Table α) (n : Nat) (v : α) (h : tsorted t = true) : tsorted (tput t n v) = true := by
  induction t with
  | nil => rfl
  | cons a t ih =>
    obtain ⟨k, w⟩ := a
    have h2 := (tsorted_cons k w t).1 h
    simp only [tput]
    split
    · next hk =>
      rw [tsorted_cons]
      refine ⟨?_, h⟩
      intro e he
      rcases List.mem_cons.1 he with rfl | he
      · exact hk
      · exact Nat.lt_trans hk (h2.1 e he)
    · split
      · rw [tsorted_cons]; exact h2
      · next h3 h4 =>
        rw [tsorted_cons]
        refine ⟨?_, ih h2.2⟩
        intro e he
        rcases tput_mem t n v e he with rfl | he
        · show k < n; omega
        · exact h2.1 e he

theorem tdel_mem {α : Type} (t : Table α) (n : Nat) : ∀ e ∈ tdel t n, e ∈ t := by
  induction t with
  | nil => intro e he; exact he
  | cons a t ih =>
    obtain ⟨k, w⟩ := a
    intro e he
    simp only [tdel] at he
    split at he
    · exact List.mem_cons_of_mem _ (ih e he)
    · rcases List.mem_cons.1 he with rfl | he
      · exact List.mem_cons_self ..
      · exact List.mem_cons_of_mem _ (ih e he)

theorem tdel_sorted {α : Type} (t : Table α) (n : Nat) (h : tsorted t = true) : tsorted (tdel t n) = true := by
  induction t with
  | nil => rfl
  | cons a t ih =>
    obtain ⟨k, w⟩ := a
    have h2 := (tsorted_cons k w t).1 h
    simp only [tdel]
    split
    · exact ih h2.2
    · rw [tsorted_cons]
      exact ⟨fun e he => h2.1 e (tdel_mem t n e he), ih h2.2⟩

/-- A write keeps the canonical form of a table. -/
theorem twf_tset {α : Type} [DecidableEq α] (d : α) (t : Table α) (n : Nat) (v : α) (h : twf d t = true) :
    twf d (tset d t n v) = true := by
  simp only [twf, Bool.and_eq_true, List.all_eq_true, decide_eq_true_eq] at h ⊢
  unfold tset
  split
  · exact ⟨tdel_sorted t n h.1, fun e he => h.2 e (tdel_mem t n e he)⟩
  · next hv =>
    refine ⟨tput_sorted t n v h.1, fun e he => ?_⟩
    rcases tput_mem t n v e he with rfl | he
    · exact hv
    · exact h.2 e he

/-! ### One field per update of State -/

@[simp] theorem State.setCtx_cores (s : State) (c : Nat) (f : Ctx → Ctx) : (s.setCtx c f).cores = s.cores := rfl
@[simp] theorem State.setCtx_parts (s : State) (c : Nat) (f : Ctx → Ctx) : (s.setCtx c f).parts = s.parts := rfl
@[simp] theorem State.setCtx_mem (s : State) (c : Nat) (f : Ctx → Ctx) : (s.setCtx c f).mem = s.mem := rfl
@[simp] theorem State.setCtx_hist (s : State) (c : Nat) (f : Ctx → Ctx) : (s.setCtx c f).hist = s.hist := rfl
@[simp] theorem State.setCtx_cuts (s : State) (c : Nat) (f : Ctx → Ctx) : (s.setCtx c f).cuts = s.cuts := rfl
@[simp] theorem State.setCtx_parity (s : State) (c : Nat) (f : Ctx → Ctx) : (s.setCtx c f).parity = s.parity := rfl
@[simp] theorem State.setCtx_deadChannels (s : State) (c : Nat) (f : Ctx → Ctx) : (s.setCtx c f).deadChannels = s.deadChannels := rfl
@[simp] theorem State.setCtx_badLines (s : State) (c : Nat) (f : Ctx → Ctx) : (s.setCtx c f).badLines = s.badLines := rfl
@[simp] theorem State.setCtx_badCells (s : State) (c : Nat) (f : Ctx → Ctx) : (s.setCtx c f).badCells = s.badCells := rfl
@[simp] theorem State.setCtx_issued (s : State) (c : Nat) (f : Ctx → Ctx) : (s.setCtx c f).issued = s.issued := rfl
@[simp] theorem State.setCtx_known (s : State) (c : Nat) (f : Ctx → Ctx) : (s.setCtx c f).known = s.known := rfl
@[simp] theorem State.setCtx_writes (s : State) (c : Nat) (f : Ctx → Ctx) : (s.setCtx c f).writes = s.writes := rfl
@[simp] theorem State.setCtx_travel (s : State) (c : Nat) (f : Ctx → Ctx) : (s.setCtx c f).travel = s.travel := rfl
@[simp] theorem State.setCtx_fabric (s : State) (c : Nat) (f : Ctx → Ctx) : (s.setCtx c f).fabric = s.fabric := rfl
@[simp] theorem State.setCtx_mvec (s : State) (c : Nat) (f : Ctx → Ctx) : (s.setCtx c f).mvec = s.mvec := rfl
@[simp] theorem State.setCtx_gang (s : State) (c : Nat) (f : Ctx → Ctx) : (s.setCtx c f).gang = s.gang := rfl
@[simp] theorem State.setCtx_modNum (s : State) (c : Nat) (f : Ctx → Ctx) : (s.setCtx c f).modNum = s.modNum := rfl
@[simp] theorem State.setCtx_routes (s : State) (c : Nat) (f : Ctx → Ctx) : (s.setCtx c f).routes = s.routes := rfl
@[simp] theorem State.setCtx_links (s : State) (c : Nat) (f : Ctx → Ctx) : (s.setCtx c f).links = s.links := rfl
@[simp] theorem State.setCtx_power (s : State) (c : Nat) (f : Ctx → Ctx) : (s.setCtx c f).power = s.power := rfl
@[simp] theorem State.setCtx_woad (s : State) (c : Nat) (f : Ctx → Ctx) : (s.setCtx c f).woad = s.woad := rfl
@[simp] theorem State.setCtx_out (s : State) (c : Nat) (f : Ctx → Ctx) : (s.setCtx c f).out = s.out := rfl
@[simp] theorem State.setCtx_agenda (s : State) (c : Nat) (f : Ctx → Ctx) : (s.setCtx c f).agenda = s.agenda := rfl
@[simp] theorem State.setCtx_cur (s : State) (c : Nat) (f : Ctx → Ctx) : (s.setCtx c f).cur = s.cur := rfl
@[simp] theorem State.setCtx_background (s : State) (c : Nat) (f : Ctx → Ctx) : (s.setCtx c f).background = s.background := rfl
@[simp] theorem State.setCtx_tick (s : State) (c : Nat) (f : Ctx → Ctx) : (s.setCtx c f).tick = s.tick := rfl
@[simp] theorem State.setCtx_time (s : State) (c : Nat) (f : Ctx → Ctx) : (s.setCtx c f).time = s.time := rfl
@[simp] theorem State.setCtx_nextOrder (s : State) (c : Nat) (f : Ctx → Ctx) : (s.setCtx c f).nextOrder = s.nextOrder := rfl
@[simp] theorem State.setCtx_prompt (s : State) (c : Nat) (f : Ctx → Ctx) : (s.setCtx c f).prompt = s.prompt := rfl
@[simp] theorem State.setCore_ctxs (s : State) (c : Nat) (f : Core → Core) : (s.setCore c f).ctxs = s.ctxs := rfl
@[simp] theorem State.setCore_parts (s : State) (c : Nat) (f : Core → Core) : (s.setCore c f).parts = s.parts := rfl
@[simp] theorem State.setCore_mem (s : State) (c : Nat) (f : Core → Core) : (s.setCore c f).mem = s.mem := rfl
@[simp] theorem State.setCore_hist (s : State) (c : Nat) (f : Core → Core) : (s.setCore c f).hist = s.hist := rfl
@[simp] theorem State.setCore_cuts (s : State) (c : Nat) (f : Core → Core) : (s.setCore c f).cuts = s.cuts := rfl
@[simp] theorem State.setCore_parity (s : State) (c : Nat) (f : Core → Core) : (s.setCore c f).parity = s.parity := rfl
@[simp] theorem State.setCore_deadChannels (s : State) (c : Nat) (f : Core → Core) : (s.setCore c f).deadChannels = s.deadChannels := rfl
@[simp] theorem State.setCore_badLines (s : State) (c : Nat) (f : Core → Core) : (s.setCore c f).badLines = s.badLines := rfl
@[simp] theorem State.setCore_badCells (s : State) (c : Nat) (f : Core → Core) : (s.setCore c f).badCells = s.badCells := rfl
@[simp] theorem State.setCore_issued (s : State) (c : Nat) (f : Core → Core) : (s.setCore c f).issued = s.issued := rfl
@[simp] theorem State.setCore_known (s : State) (c : Nat) (f : Core → Core) : (s.setCore c f).known = s.known := rfl
@[simp] theorem State.setCore_writes (s : State) (c : Nat) (f : Core → Core) : (s.setCore c f).writes = s.writes := rfl
@[simp] theorem State.setCore_travel (s : State) (c : Nat) (f : Core → Core) : (s.setCore c f).travel = s.travel := rfl
@[simp] theorem State.setCore_fabric (s : State) (c : Nat) (f : Core → Core) : (s.setCore c f).fabric = s.fabric := rfl
@[simp] theorem State.setCore_mvec (s : State) (c : Nat) (f : Core → Core) : (s.setCore c f).mvec = s.mvec := rfl
@[simp] theorem State.setCore_gang (s : State) (c : Nat) (f : Core → Core) : (s.setCore c f).gang = s.gang := rfl
@[simp] theorem State.setCore_modNum (s : State) (c : Nat) (f : Core → Core) : (s.setCore c f).modNum = s.modNum := rfl
@[simp] theorem State.setCore_routes (s : State) (c : Nat) (f : Core → Core) : (s.setCore c f).routes = s.routes := rfl
@[simp] theorem State.setCore_links (s : State) (c : Nat) (f : Core → Core) : (s.setCore c f).links = s.links := rfl
@[simp] theorem State.setCore_power (s : State) (c : Nat) (f : Core → Core) : (s.setCore c f).power = s.power := rfl
@[simp] theorem State.setCore_woad (s : State) (c : Nat) (f : Core → Core) : (s.setCore c f).woad = s.woad := rfl
@[simp] theorem State.setCore_out (s : State) (c : Nat) (f : Core → Core) : (s.setCore c f).out = s.out := rfl
@[simp] theorem State.setCore_agenda (s : State) (c : Nat) (f : Core → Core) : (s.setCore c f).agenda = s.agenda := rfl
@[simp] theorem State.setCore_cur (s : State) (c : Nat) (f : Core → Core) : (s.setCore c f).cur = s.cur := rfl
@[simp] theorem State.setCore_background (s : State) (c : Nat) (f : Core → Core) : (s.setCore c f).background = s.background := rfl
@[simp] theorem State.setCore_tick (s : State) (c : Nat) (f : Core → Core) : (s.setCore c f).tick = s.tick := rfl
@[simp] theorem State.setCore_time (s : State) (c : Nat) (f : Core → Core) : (s.setCore c f).time = s.time := rfl
@[simp] theorem State.setCore_nextOrder (s : State) (c : Nat) (f : Core → Core) : (s.setCore c f).nextOrder = s.nextOrder := rfl
@[simp] theorem State.setCore_prompt (s : State) (c : Nat) (f : Core → Core) : (s.setCore c f).prompt = s.prompt := rfl
@[simp] theorem State.setPart_ctxs (s : State) (p : Nat) (f : Part → Part) : (s.setPart p f).ctxs = s.ctxs := rfl
@[simp] theorem State.setPart_cores (s : State) (p : Nat) (f : Part → Part) : (s.setPart p f).cores = s.cores := rfl
@[simp] theorem State.setPart_mem (s : State) (p : Nat) (f : Part → Part) : (s.setPart p f).mem = s.mem := rfl
@[simp] theorem State.setPart_hist (s : State) (p : Nat) (f : Part → Part) : (s.setPart p f).hist = s.hist := rfl
@[simp] theorem State.setPart_cuts (s : State) (p : Nat) (f : Part → Part) : (s.setPart p f).cuts = s.cuts := rfl
@[simp] theorem State.setPart_parity (s : State) (p : Nat) (f : Part → Part) : (s.setPart p f).parity = s.parity := rfl
@[simp] theorem State.setPart_deadChannels (s : State) (p : Nat) (f : Part → Part) : (s.setPart p f).deadChannels = s.deadChannels := rfl
@[simp] theorem State.setPart_badLines (s : State) (p : Nat) (f : Part → Part) : (s.setPart p f).badLines = s.badLines := rfl
@[simp] theorem State.setPart_badCells (s : State) (p : Nat) (f : Part → Part) : (s.setPart p f).badCells = s.badCells := rfl
@[simp] theorem State.setPart_issued (s : State) (p : Nat) (f : Part → Part) : (s.setPart p f).issued = s.issued := rfl
@[simp] theorem State.setPart_known (s : State) (p : Nat) (f : Part → Part) : (s.setPart p f).known = s.known := rfl
@[simp] theorem State.setPart_writes (s : State) (p : Nat) (f : Part → Part) : (s.setPart p f).writes = s.writes := rfl
@[simp] theorem State.setPart_travel (s : State) (p : Nat) (f : Part → Part) : (s.setPart p f).travel = s.travel := rfl
@[simp] theorem State.setPart_fabric (s : State) (p : Nat) (f : Part → Part) : (s.setPart p f).fabric = s.fabric := rfl
@[simp] theorem State.setPart_mvec (s : State) (p : Nat) (f : Part → Part) : (s.setPart p f).mvec = s.mvec := rfl
@[simp] theorem State.setPart_gang (s : State) (p : Nat) (f : Part → Part) : (s.setPart p f).gang = s.gang := rfl
@[simp] theorem State.setPart_modNum (s : State) (p : Nat) (f : Part → Part) : (s.setPart p f).modNum = s.modNum := rfl
@[simp] theorem State.setPart_routes (s : State) (p : Nat) (f : Part → Part) : (s.setPart p f).routes = s.routes := rfl
@[simp] theorem State.setPart_links (s : State) (p : Nat) (f : Part → Part) : (s.setPart p f).links = s.links := rfl
@[simp] theorem State.setPart_power (s : State) (p : Nat) (f : Part → Part) : (s.setPart p f).power = s.power := rfl
@[simp] theorem State.setPart_woad (s : State) (p : Nat) (f : Part → Part) : (s.setPart p f).woad = s.woad := rfl
@[simp] theorem State.setPart_out (s : State) (p : Nat) (f : Part → Part) : (s.setPart p f).out = s.out := rfl
@[simp] theorem State.setPart_agenda (s : State) (p : Nat) (f : Part → Part) : (s.setPart p f).agenda = s.agenda := rfl
@[simp] theorem State.setPart_cur (s : State) (p : Nat) (f : Part → Part) : (s.setPart p f).cur = s.cur := rfl
@[simp] theorem State.setPart_background (s : State) (p : Nat) (f : Part → Part) : (s.setPart p f).background = s.background := rfl
@[simp] theorem State.setPart_tick (s : State) (p : Nat) (f : Part → Part) : (s.setPart p f).tick = s.tick := rfl
@[simp] theorem State.setPart_time (s : State) (p : Nat) (f : Part → Part) : (s.setPart p f).time = s.time := rfl
@[simp] theorem State.setPart_nextOrder (s : State) (p : Nat) (f : Part → Part) : (s.setPart p f).nextOrder = s.nextOrder := rfl
@[simp] theorem State.setPart_prompt (s : State) (p : Nat) (f : Part → Part) : (s.setPart p f).prompt = s.prompt := rfl

@[simp] theorem State.setMe_cores (s : State) (f : Ctx → Ctx) : (s.setMe f).cores = s.cores := rfl
@[simp] theorem State.setMe_parts (s : State) (f : Ctx → Ctx) : (s.setMe f).parts = s.parts := rfl
@[simp] theorem State.setMe_mem (s : State) (f : Ctx → Ctx) : (s.setMe f).mem = s.mem := rfl
@[simp] theorem State.setMe_hist (s : State) (f : Ctx → Ctx) : (s.setMe f).hist = s.hist := rfl
@[simp] theorem State.setMe_cuts (s : State) (f : Ctx → Ctx) : (s.setMe f).cuts = s.cuts := rfl
@[simp] theorem State.setMe_parity (s : State) (f : Ctx → Ctx) : (s.setMe f).parity = s.parity := rfl
@[simp] theorem State.setMe_deadChannels (s : State) (f : Ctx → Ctx) : (s.setMe f).deadChannels = s.deadChannels := rfl
@[simp] theorem State.setMe_badLines (s : State) (f : Ctx → Ctx) : (s.setMe f).badLines = s.badLines := rfl
@[simp] theorem State.setMe_badCells (s : State) (f : Ctx → Ctx) : (s.setMe f).badCells = s.badCells := rfl
@[simp] theorem State.setMe_issued (s : State) (f : Ctx → Ctx) : (s.setMe f).issued = s.issued := rfl
@[simp] theorem State.setMe_known (s : State) (f : Ctx → Ctx) : (s.setMe f).known = s.known := rfl
@[simp] theorem State.setMe_writes (s : State) (f : Ctx → Ctx) : (s.setMe f).writes = s.writes := rfl
@[simp] theorem State.setMe_travel (s : State) (f : Ctx → Ctx) : (s.setMe f).travel = s.travel := rfl
@[simp] theorem State.setMe_fabric (s : State) (f : Ctx → Ctx) : (s.setMe f).fabric = s.fabric := rfl
@[simp] theorem State.setMe_mvec (s : State) (f : Ctx → Ctx) : (s.setMe f).mvec = s.mvec := rfl
@[simp] theorem State.setMe_gang (s : State) (f : Ctx → Ctx) : (s.setMe f).gang = s.gang := rfl
@[simp] theorem State.setMe_modNum (s : State) (f : Ctx → Ctx) : (s.setMe f).modNum = s.modNum := rfl
@[simp] theorem State.setMe_routes (s : State) (f : Ctx → Ctx) : (s.setMe f).routes = s.routes := rfl
@[simp] theorem State.setMe_links (s : State) (f : Ctx → Ctx) : (s.setMe f).links = s.links := rfl
@[simp] theorem State.setMe_power (s : State) (f : Ctx → Ctx) : (s.setMe f).power = s.power := rfl
@[simp] theorem State.setMe_woad (s : State) (f : Ctx → Ctx) : (s.setMe f).woad = s.woad := rfl
@[simp] theorem State.setMe_out (s : State) (f : Ctx → Ctx) : (s.setMe f).out = s.out := rfl
@[simp] theorem State.setMe_agenda (s : State) (f : Ctx → Ctx) : (s.setMe f).agenda = s.agenda := rfl
@[simp] theorem State.setMe_cur (s : State) (f : Ctx → Ctx) : (s.setMe f).cur = s.cur := rfl
@[simp] theorem State.setMe_background (s : State) (f : Ctx → Ctx) : (s.setMe f).background = s.background := rfl
@[simp] theorem State.setMe_tick (s : State) (f : Ctx → Ctx) : (s.setMe f).tick = s.tick := rfl
@[simp] theorem State.setMe_time (s : State) (f : Ctx → Ctx) : (s.setMe f).time = s.time := rfl
@[simp] theorem State.setMe_nextOrder (s : State) (f : Ctx → Ctx) : (s.setMe f).nextOrder = s.nextOrder := rfl
@[simp] theorem State.setMe_prompt (s : State) (f : Ctx → Ctx) : (s.setMe f).prompt = s.prompt := rfl

@[simp] theorem State.setCtx_ctx_same (s : State) (c : Nat) (f : Ctx → Ctx) : (s.setCtx c f).ctx c = f (s.ctx c) := by
  simp [State.setCtx, State.ctx]
theorem State.setCtx_ctx_ne (s : State) {c d : Nat} (f : Ctx → Ctx) (h : d ≠ c) : (s.setCtx c f).ctx d = s.ctx d :=
  tget_tput_ne _ _ _ h
theorem State.setCtx_ctx (s : State) (c d : Nat) (f : Ctx → Ctx) :
    (s.setCtx c f).ctx d = if d = c then f (s.ctx c) else s.ctx d := by
  split
  · next h => subst h; simp
  · next h => exact s.setCtx_ctx_ne f h
@[simp] theorem State.setMe_me (s : State) (f : Ctx → Ctx) : (s.setMe f).me = f s.me := State.setCtx_ctx_same ..
@[simp] theorem State.setMe_ctx_cur (s : State) (f : Ctx → Ctx) : (s.setMe f).ctx s.cur = f s.me := State.setCtx_ctx_same ..
theorem State.setMe_ctx_ne (s : State) (f : Ctx → Ctx) {c : Nat} (h : c ≠ s.cur) : (s.setMe f).ctx c = s.ctx c :=
  State.setCtx_ctx_ne s f h
@[simp] theorem State.setCtx_core (s : State) (c d : Nat) (f : Ctx → Ctx) : (s.setCtx c f).core d = s.core d := rfl
@[simp] theorem State.setCtx_part (s : State) (c p : Nat) (f : Ctx → Ctx) : (s.setCtx c f).part p = s.part p := rfl
@[simp] theorem State.setMe_core (s : State) (d : Nat) (f : Ctx → Ctx) : (s.setMe f).core d = s.core d := rfl
@[simp] theorem State.setMe_part (s : State) (p : Nat) (f : Ctx → Ctx) : (s.setMe f).part p = s.part p := rfl

@[simp] theorem State.setCore_core_same (s : State) (c : Nat) (f : Core → Core) : (s.setCore c f).core c = f (s.core c) := by
  simp [State.setCore, State.core]
theorem State.setCore_core_ne (s : State) {c d : Nat} (f : Core → Core) (h : d ≠ c) : (s.setCore c f).core d = s.core d :=
  tget_tput_ne _ _ _ h
@[simp] theorem State.setCore_ctx (s : State) (c d : Nat) (f : Core → Core) : (s.setCore c f).ctx d = s.ctx d := rfl
@[simp] theorem State.setCore_me (s : State) (c : Nat) (f : Core → Core) : (s.setCore c f).me = s.me := rfl
@[simp] theorem State.setCore_part (s : State) (c p : Nat) (f : Core → Core) : (s.setCore c f).part p = s.part p := rfl

@[simp] theorem State.setPart_part_same (s : State) (p : Nat) (f : Part → Part) : (s.setPart p f).part p = f (s.part p) := by
  simp [State.setPart, State.part]
theorem State.setPart_part_ne (s : State) {p q : Nat} (f : Part → Part) (h : q ≠ p) : (s.setPart p f).part q = s.part q :=
  tget_tput_ne _ _ _ h
@[simp] theorem State.setPart_ctx (s : State) (p d : Nat) (f : Part → Part) : (s.setPart p f).ctx d = s.ctx d := rfl
@[simp] theorem State.setPart_me (s : State) (p : Nat) (f : Part → Part) : (s.setPart p f).me = s.me := rfl
@[simp] theorem State.setPart_core (s : State) (p c : Nat) (f : Part → Part) : (s.setPart p f).core c = s.core c := rfl

/-! ### One field per update of Ctx -/

@[simp] theorem Ctx.passBy_x (c : Ctx) (d : Nat) : (c.passBy d).x = c.x := rfl
@[simp] theorem Ctx.passBy_pc (c : Ctx) (d : Nat) : (c.passBy d).pc = c.pc := rfl
@[simp] theorem Ctx.passBy_b (c : Ctx) (d : Nat) : (c.passBy d).b = c.b := rfl
@[simp] theorem Ctx.passBy_m (c : Ctx) (d : Nat) : (c.passBy d).m = c.m := rfl
@[simp] theorem Ctx.passBy_k (c : Ctx) (d : Nat) : (c.passBy d).k = c.k := rfl
@[simp] theorem Ctx.passBy_landed (c : Ctx) (d : Nat) : (c.passBy d).landed = c.landed := rfl
@[simp] theorem Ctx.passBy_links (c : Ctx) (d : Nat) : (c.passBy d).links = c.links := rfl
@[simp] theorem Ctx.passBy_ctrl (c : Ctx) (d : Nat) : (c.passBy d).ctrl = c.ctrl := rfl
@[simp] theorem Ctx.passBy_wic (c : Ctx) (d : Nat) : (c.passBy d).wic = c.wic := rfl
@[simp] theorem Ctx.passBy_wdc (c : Ctx) (d : Nat) : (c.passBy d).wdc = c.wdc := rfl
@[simp] theorem Ctx.passBy_tabs (c : Ctx) (d : Nat) : (c.passBy d).tabs = c.tabs := rfl
@[simp] theorem Ctx.passBy_flags (c : Ctx) (d : Nat) : (c.passBy d).flags = c.flags := rfl
@[simp] theorem Ctx.passBy_clock (c : Ctx) (d : Nat) : (c.passBy d).clock = c.clock := rfl
@[simp] theorem Ctx.passBy_sys (c : Ctx) (d : Nat) : (c.passBy d).sys = c.sys := rfl
@[simp] theorem Ctx.passBy_thread (c : Ctx) (d : Nat) : (c.passBy d).thread = c.thread := rfl
@[simp] theorem Ctx.passBy_prev (c : Ctx) (d : Nat) : (c.passBy d).prev = c.prev := rfl
@[simp] theorem Ctx.passBy_ws (c : Ctx) (d : Nat) : (c.passBy d).ws = c.ws := rfl
@[simp] theorem Ctx.passBy_sptr (c : Ctx) (d : Nat) : (c.passBy d).sptr = c.sptr := rfl
@[simp] theorem Ctx.passBy_vq (c : Ctx) (d : Nat) : (c.passBy d).vq = c.vq := rfl
@[simp] theorem Ctx.passBy_opened (c : Ctx) (d : Nat) : (c.passBy d).opened = c.opened := rfl
@[simp] theorem Ctx.passBy_vstep (c : Ctx) (d : Nat) : (c.passBy d).vstep = c.vstep := rfl
@[simp] theorem Ctx.passBy_landing (c : Ctx) (d : Nat) : (c.passBy d).landing = c.landing := rfl
@[simp] theorem Ctx.passBy_loose (c : Ctx) (d : Nat) : (c.passBy d).loose = c.loose := rfl
@[simp] theorem Ctx.passBy_looseFrom (c : Ctx) (d : Nat) : (c.passBy d).looseFrom = c.looseFrom := rfl
@[simp] theorem Ctx.passBy_readFrom (c : Ctx) (d : Nat) : (c.passBy d).readFrom = c.readFrom := rfl
@[simp] theorem Ctx.passBy_reads (c : Ctx) (d : Nat) : (c.passBy d).reads = c.reads := rfl
@[simp] theorem Ctx.passBy_readFromCore (c : Ctx) (d : Nat) : (c.passBy d).readFromCore = c.readFromCore := rfl
@[simp] theorem Ctx.passBy_readFromDie (c : Ctx) (d : Nat) : (c.passBy d).readFromDie = c.readFromDie := rfl
@[simp] theorem Ctx.passBy_seen (c : Ctx) (d : Nat) : (c.passBy d).seen = c.seen := rfl
@[simp] theorem Ctx.passBy_looseSeen (c : Ctx) (d : Nat) : (c.passBy d).looseSeen = c.looseSeen := rfl
@[simp] theorem Ctx.passBy_fences (c : Ctx) (d : Nat) : (c.passBy d).fences = c.fences := rfl
@[simp] theorem Ctx.passBy_vclock (c : Ctx) (d : Nat) : (c.passBy d).vclock = c.vclock := rfl
@[simp] theorem Ctx.passBy_holds (c : Ctx) (d : Nat) : (c.passBy d).holds = c.holds := rfl
@[simp] theorem Ctx.passBy_saving (c : Ctx) (d : Nat) : (c.passBy d).saving = c.saving := rfl
@[simp] theorem Ctx.passBy_claims (c : Ctx) (d : Nat) : (c.passBy d).claims = c.claims := rfl
@[simp] theorem Ctx.passBy_mclaims (c : Ctx) (d : Nat) : (c.passBy d).mclaims = c.mclaims := rfl
@[simp] theorem Ctx.passBy_yielded (c : Ctx) (d : Nat) : (c.passBy d).yielded = c.yielded := rfl
@[simp] theorem Ctx.passBy_ended (c : Ctx) (d : Nat) : (c.passBy d).ended = c.ended := rfl
@[simp] theorem Ctx.advance_x (c : Ctx) (S : Fin 4) : (c.advance S).x = c.x := rfl
@[simp] theorem Ctx.advance_b (c : Ctx) (S : Fin 4) : (c.advance S).b = c.b := rfl
@[simp] theorem Ctx.advance_m (c : Ctx) (S : Fin 4) : (c.advance S).m = c.m := rfl
@[simp] theorem Ctx.advance_k (c : Ctx) (S : Fin 4) : (c.advance S).k = c.k := rfl
@[simp] theorem Ctx.advance_landed (c : Ctx) (S : Fin 4) : (c.advance S).landed = c.landed := rfl
@[simp] theorem Ctx.advance_links (c : Ctx) (S : Fin 4) : (c.advance S).links = c.links := rfl
@[simp] theorem Ctx.advance_ctrl (c : Ctx) (S : Fin 4) : (c.advance S).ctrl = c.ctrl := rfl
@[simp] theorem Ctx.advance_wic (c : Ctx) (S : Fin 4) : (c.advance S).wic = c.wic := rfl
@[simp] theorem Ctx.advance_wdc (c : Ctx) (S : Fin 4) : (c.advance S).wdc = c.wdc := rfl
@[simp] theorem Ctx.advance_tabs (c : Ctx) (S : Fin 4) : (c.advance S).tabs = c.tabs := rfl
@[simp] theorem Ctx.advance_flags (c : Ctx) (S : Fin 4) : (c.advance S).flags = c.flags := rfl
@[simp] theorem Ctx.advance_clock (c : Ctx) (S : Fin 4) : (c.advance S).clock = c.clock := rfl
@[simp] theorem Ctx.advance_sys (c : Ctx) (S : Fin 4) : (c.advance S).sys = c.sys := rfl
@[simp] theorem Ctx.advance_thread (c : Ctx) (S : Fin 4) : (c.advance S).thread = c.thread := rfl
@[simp] theorem Ctx.advance_prev (c : Ctx) (S : Fin 4) : (c.advance S).prev = c.prev := rfl
@[simp] theorem Ctx.advance_ws (c : Ctx) (S : Fin 4) : (c.advance S).ws = c.ws := rfl
@[simp] theorem Ctx.advance_sptr (c : Ctx) (S : Fin 4) : (c.advance S).sptr = c.sptr := rfl
@[simp] theorem Ctx.advance_vq (c : Ctx) (S : Fin 4) : (c.advance S).vq = c.vq := rfl
@[simp] theorem Ctx.advance_opened (c : Ctx) (S : Fin 4) : (c.advance S).opened = c.opened := rfl
@[simp] theorem Ctx.advance_vstep (c : Ctx) (S : Fin 4) : (c.advance S).vstep = c.vstep := rfl
@[simp] theorem Ctx.advance_landing (c : Ctx) (S : Fin 4) : (c.advance S).landing = c.landing := rfl
@[simp] theorem Ctx.advance_loose (c : Ctx) (S : Fin 4) : (c.advance S).loose = c.loose := rfl
@[simp] theorem Ctx.advance_looseFrom (c : Ctx) (S : Fin 4) : (c.advance S).looseFrom = c.looseFrom := rfl
@[simp] theorem Ctx.advance_readFrom (c : Ctx) (S : Fin 4) : (c.advance S).readFrom = c.readFrom := rfl
@[simp] theorem Ctx.advance_reads (c : Ctx) (S : Fin 4) : (c.advance S).reads = c.reads := rfl
@[simp] theorem Ctx.advance_readFromCore (c : Ctx) (S : Fin 4) : (c.advance S).readFromCore = c.readFromCore := rfl
@[simp] theorem Ctx.advance_readFromDie (c : Ctx) (S : Fin 4) : (c.advance S).readFromDie = c.readFromDie := rfl
@[simp] theorem Ctx.advance_seen (c : Ctx) (S : Fin 4) : (c.advance S).seen = c.seen := rfl
@[simp] theorem Ctx.advance_looseSeen (c : Ctx) (S : Fin 4) : (c.advance S).looseSeen = c.looseSeen := rfl
@[simp] theorem Ctx.advance_fences (c : Ctx) (S : Fin 4) : (c.advance S).fences = c.fences := rfl
@[simp] theorem Ctx.advance_vclock (c : Ctx) (S : Fin 4) : (c.advance S).vclock = c.vclock := rfl
@[simp] theorem Ctx.advance_holds (c : Ctx) (S : Fin 4) : (c.advance S).holds = c.holds := rfl
@[simp] theorem Ctx.advance_saving (c : Ctx) (S : Fin 4) : (c.advance S).saving = c.saving := rfl
@[simp] theorem Ctx.advance_claims (c : Ctx) (S : Fin 4) : (c.advance S).claims = c.claims := rfl
@[simp] theorem Ctx.advance_mclaims (c : Ctx) (S : Fin 4) : (c.advance S).mclaims = c.mclaims := rfl
@[simp] theorem Ctx.advance_yielded (c : Ctx) (S : Fin 4) : (c.advance S).yielded = c.yielded := rfl
@[simp] theorem Ctx.advance_ended (c : Ctx) (S : Fin 4) : (c.advance S).ended = c.ended := rfl
@[simp] theorem Ctx.jump_x (c : Ctx) (S : Fin 4) (t : Word) : (c.jump S t).x = c.x := rfl
@[simp] theorem Ctx.jump_b (c : Ctx) (S : Fin 4) (t : Word) : (c.jump S t).b = c.b := rfl
@[simp] theorem Ctx.jump_m (c : Ctx) (S : Fin 4) (t : Word) : (c.jump S t).m = c.m := rfl
@[simp] theorem Ctx.jump_k (c : Ctx) (S : Fin 4) (t : Word) : (c.jump S t).k = c.k := rfl
@[simp] theorem Ctx.jump_landed (c : Ctx) (S : Fin 4) (t : Word) : (c.jump S t).landed = c.landed := rfl
@[simp] theorem Ctx.jump_links (c : Ctx) (S : Fin 4) (t : Word) : (c.jump S t).links = c.links := rfl
@[simp] theorem Ctx.jump_ctrl (c : Ctx) (S : Fin 4) (t : Word) : (c.jump S t).ctrl = c.ctrl := rfl
@[simp] theorem Ctx.jump_wic (c : Ctx) (S : Fin 4) (t : Word) : (c.jump S t).wic = c.wic := rfl
@[simp] theorem Ctx.jump_wdc (c : Ctx) (S : Fin 4) (t : Word) : (c.jump S t).wdc = c.wdc := rfl
@[simp] theorem Ctx.jump_tabs (c : Ctx) (S : Fin 4) (t : Word) : (c.jump S t).tabs = c.tabs := rfl
@[simp] theorem Ctx.jump_flags (c : Ctx) (S : Fin 4) (t : Word) : (c.jump S t).flags = c.flags := rfl
@[simp] theorem Ctx.jump_clock (c : Ctx) (S : Fin 4) (t : Word) : (c.jump S t).clock = c.clock := rfl
@[simp] theorem Ctx.jump_sys (c : Ctx) (S : Fin 4) (t : Word) : (c.jump S t).sys = c.sys := rfl
@[simp] theorem Ctx.jump_thread (c : Ctx) (S : Fin 4) (t : Word) : (c.jump S t).thread = c.thread := rfl
@[simp] theorem Ctx.jump_prev (c : Ctx) (S : Fin 4) (t : Word) : (c.jump S t).prev = c.prev := rfl
@[simp] theorem Ctx.jump_ws (c : Ctx) (S : Fin 4) (t : Word) : (c.jump S t).ws = c.ws := rfl
@[simp] theorem Ctx.jump_sptr (c : Ctx) (S : Fin 4) (t : Word) : (c.jump S t).sptr = c.sptr := rfl
@[simp] theorem Ctx.jump_vq (c : Ctx) (S : Fin 4) (t : Word) : (c.jump S t).vq = c.vq := rfl
@[simp] theorem Ctx.jump_opened (c : Ctx) (S : Fin 4) (t : Word) : (c.jump S t).opened = c.opened := rfl
@[simp] theorem Ctx.jump_vstep (c : Ctx) (S : Fin 4) (t : Word) : (c.jump S t).vstep = c.vstep := rfl
@[simp] theorem Ctx.jump_landing (c : Ctx) (S : Fin 4) (t : Word) : (c.jump S t).landing = c.landing := rfl
@[simp] theorem Ctx.jump_loose (c : Ctx) (S : Fin 4) (t : Word) : (c.jump S t).loose = c.loose := rfl
@[simp] theorem Ctx.jump_looseFrom (c : Ctx) (S : Fin 4) (t : Word) : (c.jump S t).looseFrom = c.looseFrom := rfl
@[simp] theorem Ctx.jump_readFrom (c : Ctx) (S : Fin 4) (t : Word) : (c.jump S t).readFrom = c.readFrom := rfl
@[simp] theorem Ctx.jump_reads (c : Ctx) (S : Fin 4) (t : Word) : (c.jump S t).reads = c.reads := rfl
@[simp] theorem Ctx.jump_readFromCore (c : Ctx) (S : Fin 4) (t : Word) : (c.jump S t).readFromCore = c.readFromCore := rfl
@[simp] theorem Ctx.jump_readFromDie (c : Ctx) (S : Fin 4) (t : Word) : (c.jump S t).readFromDie = c.readFromDie := rfl
@[simp] theorem Ctx.jump_seen (c : Ctx) (S : Fin 4) (t : Word) : (c.jump S t).seen = c.seen := rfl
@[simp] theorem Ctx.jump_looseSeen (c : Ctx) (S : Fin 4) (t : Word) : (c.jump S t).looseSeen = c.looseSeen := rfl
@[simp] theorem Ctx.jump_fences (c : Ctx) (S : Fin 4) (t : Word) : (c.jump S t).fences = c.fences := rfl
@[simp] theorem Ctx.jump_vclock (c : Ctx) (S : Fin 4) (t : Word) : (c.jump S t).vclock = c.vclock := rfl
@[simp] theorem Ctx.jump_holds (c : Ctx) (S : Fin 4) (t : Word) : (c.jump S t).holds = c.holds := rfl
@[simp] theorem Ctx.jump_saving (c : Ctx) (S : Fin 4) (t : Word) : (c.jump S t).saving = c.saving := rfl
@[simp] theorem Ctx.jump_claims (c : Ctx) (S : Fin 4) (t : Word) : (c.jump S t).claims = c.claims := rfl
@[simp] theorem Ctx.jump_mclaims (c : Ctx) (S : Fin 4) (t : Word) : (c.jump S t).mclaims = c.mclaims := rfl
@[simp] theorem Ctx.jump_yielded (c : Ctx) (S : Fin 4) (t : Word) : (c.jump S t).yielded = c.yielded := rfl
@[simp] theorem Ctx.jump_ended (c : Ctx) (S : Fin 4) (t : Word) : (c.jump S t).ended = c.ended := rfl
@[simp] theorem Ctx.break_x (c : Ctx) : (c.break).x = c.x := rfl
@[simp] theorem Ctx.break_pc (c : Ctx) : (c.break).pc = c.pc := rfl
@[simp] theorem Ctx.break_b (c : Ctx) : (c.break).b = c.b := rfl
@[simp] theorem Ctx.break_m (c : Ctx) : (c.break).m = c.m := rfl
@[simp] theorem Ctx.break_k (c : Ctx) : (c.break).k = c.k := rfl
@[simp] theorem Ctx.break_landed (c : Ctx) : (c.break).landed = c.landed := rfl
@[simp] theorem Ctx.break_links (c : Ctx) : (c.break).links = c.links := rfl
@[simp] theorem Ctx.break_ctrl (c : Ctx) : (c.break).ctrl = c.ctrl := rfl
@[simp] theorem Ctx.break_wic (c : Ctx) : (c.break).wic = c.wic := rfl
@[simp] theorem Ctx.break_wdc (c : Ctx) : (c.break).wdc = c.wdc := rfl
@[simp] theorem Ctx.break_tabs (c : Ctx) : (c.break).tabs = c.tabs := rfl
@[simp] theorem Ctx.break_flags (c : Ctx) : (c.break).flags = c.flags := rfl
@[simp] theorem Ctx.break_icnt (c : Ctx) : (c.break).icnt = c.icnt := rfl
@[simp] theorem Ctx.break_clock (c : Ctx) : (c.break).clock = c.clock := rfl
@[simp] theorem Ctx.break_sys (c : Ctx) : (c.break).sys = c.sys := rfl
@[simp] theorem Ctx.break_thread (c : Ctx) : (c.break).thread = c.thread := rfl
@[simp] theorem Ctx.break_prev (c : Ctx) : (c.break).prev = c.prev := rfl
@[simp] theorem Ctx.break_wait (c : Ctx) : (c.break).wait = c.wait := rfl
@[simp] theorem Ctx.break_ws (c : Ctx) : (c.break).ws = c.ws := rfl
@[simp] theorem Ctx.break_waited (c : Ctx) : (c.break).waited = c.waited := rfl
@[simp] theorem Ctx.break_sptr (c : Ctx) : (c.break).sptr = c.sptr := rfl
@[simp] theorem Ctx.break_vq (c : Ctx) : (c.break).vq = c.vq := rfl
@[simp] theorem Ctx.break_opened (c : Ctx) : (c.break).opened = c.opened := rfl
@[simp] theorem Ctx.break_vstep (c : Ctx) : (c.break).vstep = c.vstep := rfl
@[simp] theorem Ctx.break_landing (c : Ctx) : (c.break).landing = c.landing := rfl
@[simp] theorem Ctx.break_loose (c : Ctx) : (c.break).loose = c.loose := rfl
@[simp] theorem Ctx.break_looseFrom (c : Ctx) : (c.break).looseFrom = c.looseFrom := rfl
@[simp] theorem Ctx.break_readFrom (c : Ctx) : (c.break).readFrom = c.readFrom := rfl
@[simp] theorem Ctx.break_reads (c : Ctx) : (c.break).reads = c.reads := rfl
@[simp] theorem Ctx.break_readFromCore (c : Ctx) : (c.break).readFromCore = c.readFromCore := rfl
@[simp] theorem Ctx.break_readFromDie (c : Ctx) : (c.break).readFromDie = c.readFromDie := rfl
@[simp] theorem Ctx.break_seen (c : Ctx) : (c.break).seen = c.seen := rfl
@[simp] theorem Ctx.break_looseSeen (c : Ctx) : (c.break).looseSeen = c.looseSeen := rfl
@[simp] theorem Ctx.break_fences (c : Ctx) : (c.break).fences = c.fences := rfl
@[simp] theorem Ctx.break_vclock (c : Ctx) : (c.break).vclock = c.vclock := rfl
@[simp] theorem Ctx.break_holds (c : Ctx) : (c.break).holds = c.holds := rfl
@[simp] theorem Ctx.break_saving (c : Ctx) : (c.break).saving = c.saving := rfl
@[simp] theorem Ctx.break_claims (c : Ctx) : (c.break).claims = c.claims := rfl
@[simp] theorem Ctx.break_mclaims (c : Ctx) : (c.break).mclaims = c.mclaims := rfl
@[simp] theorem Ctx.break_yielded (c : Ctx) : (c.break).yielded = c.yielded := rfl
@[simp] theorem Ctx.break_ended (c : Ctx) : (c.break).ended = c.ended := rfl
@[simp] theorem Ctx.setBrick_x (c : Ctx) (r : Nat) (v : BitVec 16384) : (c.setBrick r v).x = c.x := rfl
@[simp] theorem Ctx.setBrick_pc (c : Ctx) (r : Nat) (v : BitVec 16384) : (c.setBrick r v).pc = c.pc := rfl
@[simp] theorem Ctx.setBrick_m (c : Ctx) (r : Nat) (v : BitVec 16384) : (c.setBrick r v).m = c.m := rfl
@[simp] theorem Ctx.setBrick_k (c : Ctx) (r : Nat) (v : BitVec 16384) : (c.setBrick r v).k = c.k := rfl
@[simp] theorem Ctx.setBrick_landed (c : Ctx) (r : Nat) (v : BitVec 16384) : (c.setBrick r v).landed = c.landed := rfl
@[simp] theorem Ctx.setBrick_links (c : Ctx) (r : Nat) (v : BitVec 16384) : (c.setBrick r v).links = c.links := rfl
@[simp] theorem Ctx.setBrick_ctrl (c : Ctx) (r : Nat) (v : BitVec 16384) : (c.setBrick r v).ctrl = c.ctrl := rfl
@[simp] theorem Ctx.setBrick_wic (c : Ctx) (r : Nat) (v : BitVec 16384) : (c.setBrick r v).wic = c.wic := rfl
@[simp] theorem Ctx.setBrick_wdc (c : Ctx) (r : Nat) (v : BitVec 16384) : (c.setBrick r v).wdc = c.wdc := rfl
@[simp] theorem Ctx.setBrick_tabs (c : Ctx) (r : Nat) (v : BitVec 16384) : (c.setBrick r v).tabs = c.tabs := rfl
@[simp] theorem Ctx.setBrick_flags (c : Ctx) (r : Nat) (v : BitVec 16384) : (c.setBrick r v).flags = c.flags := rfl
@[simp] theorem Ctx.setBrick_icnt (c : Ctx) (r : Nat) (v : BitVec 16384) : (c.setBrick r v).icnt = c.icnt := rfl
@[simp] theorem Ctx.setBrick_clock (c : Ctx) (r : Nat) (v : BitVec 16384) : (c.setBrick r v).clock = c.clock := rfl
@[simp] theorem Ctx.setBrick_sys (c : Ctx) (r : Nat) (v : BitVec 16384) : (c.setBrick r v).sys = c.sys := rfl
@[simp] theorem Ctx.setBrick_thread (c : Ctx) (r : Nat) (v : BitVec 16384) : (c.setBrick r v).thread = c.thread := rfl
@[simp] theorem Ctx.setBrick_prev (c : Ctx) (r : Nat) (v : BitVec 16384) : (c.setBrick r v).prev = c.prev := rfl
@[simp] theorem Ctx.setBrick_wait (c : Ctx) (r : Nat) (v : BitVec 16384) : (c.setBrick r v).wait = c.wait := rfl
@[simp] theorem Ctx.setBrick_ws (c : Ctx) (r : Nat) (v : BitVec 16384) : (c.setBrick r v).ws = c.ws := rfl
@[simp] theorem Ctx.setBrick_waited (c : Ctx) (r : Nat) (v : BitVec 16384) : (c.setBrick r v).waited = c.waited := rfl
@[simp] theorem Ctx.setBrick_sptr (c : Ctx) (r : Nat) (v : BitVec 16384) : (c.setBrick r v).sptr = c.sptr := rfl
@[simp] theorem Ctx.setBrick_vq (c : Ctx) (r : Nat) (v : BitVec 16384) : (c.setBrick r v).vq = c.vq := rfl
@[simp] theorem Ctx.setBrick_opened (c : Ctx) (r : Nat) (v : BitVec 16384) : (c.setBrick r v).opened = c.opened := rfl
@[simp] theorem Ctx.setBrick_vstep (c : Ctx) (r : Nat) (v : BitVec 16384) : (c.setBrick r v).vstep = c.vstep := rfl
@[simp] theorem Ctx.setBrick_landing (c : Ctx) (r : Nat) (v : BitVec 16384) : (c.setBrick r v).landing = c.landing := rfl
@[simp] theorem Ctx.setBrick_shadow (c : Ctx) (r : Nat) (v : BitVec 16384) : (c.setBrick r v).shadow = c.shadow := rfl
@[simp] theorem Ctx.setBrick_pos (c : Ctx) (r : Nat) (v : BitVec 16384) : (c.setBrick r v).pos = c.pos := rfl
@[simp] theorem Ctx.setBrick_loose (c : Ctx) (r : Nat) (v : BitVec 16384) : (c.setBrick r v).loose = c.loose := rfl
@[simp] theorem Ctx.setBrick_looseFrom (c : Ctx) (r : Nat) (v : BitVec 16384) : (c.setBrick r v).looseFrom = c.looseFrom := rfl
@[simp] theorem Ctx.setBrick_readFrom (c : Ctx) (r : Nat) (v : BitVec 16384) : (c.setBrick r v).readFrom = c.readFrom := rfl
@[simp] theorem Ctx.setBrick_reads (c : Ctx) (r : Nat) (v : BitVec 16384) : (c.setBrick r v).reads = c.reads := rfl
@[simp] theorem Ctx.setBrick_readFromCore (c : Ctx) (r : Nat) (v : BitVec 16384) : (c.setBrick r v).readFromCore = c.readFromCore := rfl
@[simp] theorem Ctx.setBrick_readFromDie (c : Ctx) (r : Nat) (v : BitVec 16384) : (c.setBrick r v).readFromDie = c.readFromDie := rfl
@[simp] theorem Ctx.setBrick_seen (c : Ctx) (r : Nat) (v : BitVec 16384) : (c.setBrick r v).seen = c.seen := rfl
@[simp] theorem Ctx.setBrick_looseSeen (c : Ctx) (r : Nat) (v : BitVec 16384) : (c.setBrick r v).looseSeen = c.looseSeen := rfl
@[simp] theorem Ctx.setBrick_fences (c : Ctx) (r : Nat) (v : BitVec 16384) : (c.setBrick r v).fences = c.fences := rfl
@[simp] theorem Ctx.setBrick_vclock (c : Ctx) (r : Nat) (v : BitVec 16384) : (c.setBrick r v).vclock = c.vclock := rfl
@[simp] theorem Ctx.setBrick_holds (c : Ctx) (r : Nat) (v : BitVec 16384) : (c.setBrick r v).holds = c.holds := rfl
@[simp] theorem Ctx.setBrick_saving (c : Ctx) (r : Nat) (v : BitVec 16384) : (c.setBrick r v).saving = c.saving := rfl
@[simp] theorem Ctx.setBrick_claims (c : Ctx) (r : Nat) (v : BitVec 16384) : (c.setBrick r v).claims = c.claims := rfl
@[simp] theorem Ctx.setBrick_mclaims (c : Ctx) (r : Nat) (v : BitVec 16384) : (c.setBrick r v).mclaims = c.mclaims := rfl
@[simp] theorem Ctx.setBrick_yielded (c : Ctx) (r : Nat) (v : BitVec 16384) : (c.setBrick r v).yielded = c.yielded := rfl
@[simp] theorem Ctx.setBrick_ended (c : Ctx) (r : Nat) (v : BitVec 16384) : (c.setBrick r v).ended = c.ended := rfl
@[simp] theorem Ctx.setMask_x (c : Ctx) (r : Nat) (v : BitVec 4096) : (c.setMask r v).x = c.x := rfl
@[simp] theorem Ctx.setMask_pc (c : Ctx) (r : Nat) (v : BitVec 4096) : (c.setMask r v).pc = c.pc := rfl
@[simp] theorem Ctx.setMask_b (c : Ctx) (r : Nat) (v : BitVec 4096) : (c.setMask r v).b = c.b := rfl
@[simp] theorem Ctx.setMask_k (c : Ctx) (r : Nat) (v : BitVec 4096) : (c.setMask r v).k = c.k := rfl
@[simp] theorem Ctx.setMask_landed (c : Ctx) (r : Nat) (v : BitVec 4096) : (c.setMask r v).landed = c.landed := rfl
@[simp] theorem Ctx.setMask_links (c : Ctx) (r : Nat) (v : BitVec 4096) : (c.setMask r v).links = c.links := rfl
@[simp] theorem Ctx.setMask_ctrl (c : Ctx) (r : Nat) (v : BitVec 4096) : (c.setMask r v).ctrl = c.ctrl := rfl
@[simp] theorem Ctx.setMask_wic (c : Ctx) (r : Nat) (v : BitVec 4096) : (c.setMask r v).wic = c.wic := rfl
@[simp] theorem Ctx.setMask_wdc (c : Ctx) (r : Nat) (v : BitVec 4096) : (c.setMask r v).wdc = c.wdc := rfl
@[simp] theorem Ctx.setMask_tabs (c : Ctx) (r : Nat) (v : BitVec 4096) : (c.setMask r v).tabs = c.tabs := rfl
@[simp] theorem Ctx.setMask_flags (c : Ctx) (r : Nat) (v : BitVec 4096) : (c.setMask r v).flags = c.flags := rfl
@[simp] theorem Ctx.setMask_icnt (c : Ctx) (r : Nat) (v : BitVec 4096) : (c.setMask r v).icnt = c.icnt := rfl
@[simp] theorem Ctx.setMask_clock (c : Ctx) (r : Nat) (v : BitVec 4096) : (c.setMask r v).clock = c.clock := rfl
@[simp] theorem Ctx.setMask_sys (c : Ctx) (r : Nat) (v : BitVec 4096) : (c.setMask r v).sys = c.sys := rfl
@[simp] theorem Ctx.setMask_thread (c : Ctx) (r : Nat) (v : BitVec 4096) : (c.setMask r v).thread = c.thread := rfl
@[simp] theorem Ctx.setMask_prev (c : Ctx) (r : Nat) (v : BitVec 4096) : (c.setMask r v).prev = c.prev := rfl
@[simp] theorem Ctx.setMask_wait (c : Ctx) (r : Nat) (v : BitVec 4096) : (c.setMask r v).wait = c.wait := rfl
@[simp] theorem Ctx.setMask_ws (c : Ctx) (r : Nat) (v : BitVec 4096) : (c.setMask r v).ws = c.ws := rfl
@[simp] theorem Ctx.setMask_waited (c : Ctx) (r : Nat) (v : BitVec 4096) : (c.setMask r v).waited = c.waited := rfl
@[simp] theorem Ctx.setMask_sptr (c : Ctx) (r : Nat) (v : BitVec 4096) : (c.setMask r v).sptr = c.sptr := rfl
@[simp] theorem Ctx.setMask_vq (c : Ctx) (r : Nat) (v : BitVec 4096) : (c.setMask r v).vq = c.vq := rfl
@[simp] theorem Ctx.setMask_opened (c : Ctx) (r : Nat) (v : BitVec 4096) : (c.setMask r v).opened = c.opened := rfl
@[simp] theorem Ctx.setMask_vstep (c : Ctx) (r : Nat) (v : BitVec 4096) : (c.setMask r v).vstep = c.vstep := rfl
@[simp] theorem Ctx.setMask_landing (c : Ctx) (r : Nat) (v : BitVec 4096) : (c.setMask r v).landing = c.landing := rfl
@[simp] theorem Ctx.setMask_shadow (c : Ctx) (r : Nat) (v : BitVec 4096) : (c.setMask r v).shadow = c.shadow := rfl
@[simp] theorem Ctx.setMask_pos (c : Ctx) (r : Nat) (v : BitVec 4096) : (c.setMask r v).pos = c.pos := rfl
@[simp] theorem Ctx.setMask_loose (c : Ctx) (r : Nat) (v : BitVec 4096) : (c.setMask r v).loose = c.loose := rfl
@[simp] theorem Ctx.setMask_looseFrom (c : Ctx) (r : Nat) (v : BitVec 4096) : (c.setMask r v).looseFrom = c.looseFrom := rfl
@[simp] theorem Ctx.setMask_readFrom (c : Ctx) (r : Nat) (v : BitVec 4096) : (c.setMask r v).readFrom = c.readFrom := rfl
@[simp] theorem Ctx.setMask_reads (c : Ctx) (r : Nat) (v : BitVec 4096) : (c.setMask r v).reads = c.reads := rfl
@[simp] theorem Ctx.setMask_readFromCore (c : Ctx) (r : Nat) (v : BitVec 4096) : (c.setMask r v).readFromCore = c.readFromCore := rfl
@[simp] theorem Ctx.setMask_readFromDie (c : Ctx) (r : Nat) (v : BitVec 4096) : (c.setMask r v).readFromDie = c.readFromDie := rfl
@[simp] theorem Ctx.setMask_seen (c : Ctx) (r : Nat) (v : BitVec 4096) : (c.setMask r v).seen = c.seen := rfl
@[simp] theorem Ctx.setMask_looseSeen (c : Ctx) (r : Nat) (v : BitVec 4096) : (c.setMask r v).looseSeen = c.looseSeen := rfl
@[simp] theorem Ctx.setMask_fences (c : Ctx) (r : Nat) (v : BitVec 4096) : (c.setMask r v).fences = c.fences := rfl
@[simp] theorem Ctx.setMask_vclock (c : Ctx) (r : Nat) (v : BitVec 4096) : (c.setMask r v).vclock = c.vclock := rfl
@[simp] theorem Ctx.setMask_holds (c : Ctx) (r : Nat) (v : BitVec 4096) : (c.setMask r v).holds = c.holds := rfl
@[simp] theorem Ctx.setMask_saving (c : Ctx) (r : Nat) (v : BitVec 4096) : (c.setMask r v).saving = c.saving := rfl
@[simp] theorem Ctx.setMask_claims (c : Ctx) (r : Nat) (v : BitVec 4096) : (c.setMask r v).claims = c.claims := rfl
@[simp] theorem Ctx.setMask_mclaims (c : Ctx) (r : Nat) (v : BitVec 4096) : (c.setMask r v).mclaims = c.mclaims := rfl
@[simp] theorem Ctx.setMask_yielded (c : Ctx) (r : Nat) (v : BitVec 4096) : (c.setMask r v).yielded = c.yielded := rfl
@[simp] theorem Ctx.setMask_ended (c : Ctx) (r : Nat) (v : BitVec 4096) : (c.setMask r v).ended = c.ended := rfl
@[simp] theorem Ctx.setScale_x (c : Ctx) (r : Nat) (v : BitVec 4096) : (c.setScale r v).x = c.x := rfl
@[simp] theorem Ctx.setScale_pc (c : Ctx) (r : Nat) (v : BitVec 4096) : (c.setScale r v).pc = c.pc := rfl
@[simp] theorem Ctx.setScale_b (c : Ctx) (r : Nat) (v : BitVec 4096) : (c.setScale r v).b = c.b := rfl
@[simp] theorem Ctx.setScale_m (c : Ctx) (r : Nat) (v : BitVec 4096) : (c.setScale r v).m = c.m := rfl
@[simp] theorem Ctx.setScale_landed (c : Ctx) (r : Nat) (v : BitVec 4096) : (c.setScale r v).landed = c.landed := rfl
@[simp] theorem Ctx.setScale_links (c : Ctx) (r : Nat) (v : BitVec 4096) : (c.setScale r v).links = c.links := rfl
@[simp] theorem Ctx.setScale_ctrl (c : Ctx) (r : Nat) (v : BitVec 4096) : (c.setScale r v).ctrl = c.ctrl := rfl
@[simp] theorem Ctx.setScale_wic (c : Ctx) (r : Nat) (v : BitVec 4096) : (c.setScale r v).wic = c.wic := rfl
@[simp] theorem Ctx.setScale_wdc (c : Ctx) (r : Nat) (v : BitVec 4096) : (c.setScale r v).wdc = c.wdc := rfl
@[simp] theorem Ctx.setScale_tabs (c : Ctx) (r : Nat) (v : BitVec 4096) : (c.setScale r v).tabs = c.tabs := rfl
@[simp] theorem Ctx.setScale_flags (c : Ctx) (r : Nat) (v : BitVec 4096) : (c.setScale r v).flags = c.flags := rfl
@[simp] theorem Ctx.setScale_icnt (c : Ctx) (r : Nat) (v : BitVec 4096) : (c.setScale r v).icnt = c.icnt := rfl
@[simp] theorem Ctx.setScale_clock (c : Ctx) (r : Nat) (v : BitVec 4096) : (c.setScale r v).clock = c.clock := rfl
@[simp] theorem Ctx.setScale_sys (c : Ctx) (r : Nat) (v : BitVec 4096) : (c.setScale r v).sys = c.sys := rfl
@[simp] theorem Ctx.setScale_thread (c : Ctx) (r : Nat) (v : BitVec 4096) : (c.setScale r v).thread = c.thread := rfl
@[simp] theorem Ctx.setScale_prev (c : Ctx) (r : Nat) (v : BitVec 4096) : (c.setScale r v).prev = c.prev := rfl
@[simp] theorem Ctx.setScale_wait (c : Ctx) (r : Nat) (v : BitVec 4096) : (c.setScale r v).wait = c.wait := rfl
@[simp] theorem Ctx.setScale_ws (c : Ctx) (r : Nat) (v : BitVec 4096) : (c.setScale r v).ws = c.ws := rfl
@[simp] theorem Ctx.setScale_waited (c : Ctx) (r : Nat) (v : BitVec 4096) : (c.setScale r v).waited = c.waited := rfl
@[simp] theorem Ctx.setScale_sptr (c : Ctx) (r : Nat) (v : BitVec 4096) : (c.setScale r v).sptr = c.sptr := rfl
@[simp] theorem Ctx.setScale_vq (c : Ctx) (r : Nat) (v : BitVec 4096) : (c.setScale r v).vq = c.vq := rfl
@[simp] theorem Ctx.setScale_opened (c : Ctx) (r : Nat) (v : BitVec 4096) : (c.setScale r v).opened = c.opened := rfl
@[simp] theorem Ctx.setScale_vstep (c : Ctx) (r : Nat) (v : BitVec 4096) : (c.setScale r v).vstep = c.vstep := rfl
@[simp] theorem Ctx.setScale_landing (c : Ctx) (r : Nat) (v : BitVec 4096) : (c.setScale r v).landing = c.landing := rfl
@[simp] theorem Ctx.setScale_shadow (c : Ctx) (r : Nat) (v : BitVec 4096) : (c.setScale r v).shadow = c.shadow := rfl
@[simp] theorem Ctx.setScale_pos (c : Ctx) (r : Nat) (v : BitVec 4096) : (c.setScale r v).pos = c.pos := rfl
@[simp] theorem Ctx.setScale_loose (c : Ctx) (r : Nat) (v : BitVec 4096) : (c.setScale r v).loose = c.loose := rfl
@[simp] theorem Ctx.setScale_looseFrom (c : Ctx) (r : Nat) (v : BitVec 4096) : (c.setScale r v).looseFrom = c.looseFrom := rfl
@[simp] theorem Ctx.setScale_readFrom (c : Ctx) (r : Nat) (v : BitVec 4096) : (c.setScale r v).readFrom = c.readFrom := rfl
@[simp] theorem Ctx.setScale_reads (c : Ctx) (r : Nat) (v : BitVec 4096) : (c.setScale r v).reads = c.reads := rfl
@[simp] theorem Ctx.setScale_readFromCore (c : Ctx) (r : Nat) (v : BitVec 4096) : (c.setScale r v).readFromCore = c.readFromCore := rfl
@[simp] theorem Ctx.setScale_readFromDie (c : Ctx) (r : Nat) (v : BitVec 4096) : (c.setScale r v).readFromDie = c.readFromDie := rfl
@[simp] theorem Ctx.setScale_seen (c : Ctx) (r : Nat) (v : BitVec 4096) : (c.setScale r v).seen = c.seen := rfl
@[simp] theorem Ctx.setScale_looseSeen (c : Ctx) (r : Nat) (v : BitVec 4096) : (c.setScale r v).looseSeen = c.looseSeen := rfl
@[simp] theorem Ctx.setScale_fences (c : Ctx) (r : Nat) (v : BitVec 4096) : (c.setScale r v).fences = c.fences := rfl
@[simp] theorem Ctx.setScale_vclock (c : Ctx) (r : Nat) (v : BitVec 4096) : (c.setScale r v).vclock = c.vclock := rfl
@[simp] theorem Ctx.setScale_holds (c : Ctx) (r : Nat) (v : BitVec 4096) : (c.setScale r v).holds = c.holds := rfl
@[simp] theorem Ctx.setScale_saving (c : Ctx) (r : Nat) (v : BitVec 4096) : (c.setScale r v).saving = c.saving := rfl
@[simp] theorem Ctx.setScale_claims (c : Ctx) (r : Nat) (v : BitVec 4096) : (c.setScale r v).claims = c.claims := rfl
@[simp] theorem Ctx.setScale_mclaims (c : Ctx) (r : Nat) (v : BitVec 4096) : (c.setScale r v).mclaims = c.mclaims := rfl
@[simp] theorem Ctx.setScale_yielded (c : Ctx) (r : Nat) (v : BitVec 4096) : (c.setScale r v).yielded = c.yielded := rfl
@[simp] theorem Ctx.setScale_ended (c : Ctx) (r : Nat) (v : BitVec 4096) : (c.setScale r v).ended = c.ended := rfl
@[simp] theorem Ctx.setLand_x (c : Ctx) (r : Nat) (v : BitVec 8) : (c.setLand r v).x = c.x := rfl
@[simp] theorem Ctx.setLand_pc (c : Ctx) (r : Nat) (v : BitVec 8) : (c.setLand r v).pc = c.pc := rfl
@[simp] theorem Ctx.setLand_b (c : Ctx) (r : Nat) (v : BitVec 8) : (c.setLand r v).b = c.b := rfl
@[simp] theorem Ctx.setLand_m (c : Ctx) (r : Nat) (v : BitVec 8) : (c.setLand r v).m = c.m := rfl
@[simp] theorem Ctx.setLand_k (c : Ctx) (r : Nat) (v : BitVec 8) : (c.setLand r v).k = c.k := rfl
@[simp] theorem Ctx.setLand_links (c : Ctx) (r : Nat) (v : BitVec 8) : (c.setLand r v).links = c.links := rfl
@[simp] theorem Ctx.setLand_ctrl (c : Ctx) (r : Nat) (v : BitVec 8) : (c.setLand r v).ctrl = c.ctrl := rfl
@[simp] theorem Ctx.setLand_wic (c : Ctx) (r : Nat) (v : BitVec 8) : (c.setLand r v).wic = c.wic := rfl
@[simp] theorem Ctx.setLand_wdc (c : Ctx) (r : Nat) (v : BitVec 8) : (c.setLand r v).wdc = c.wdc := rfl
@[simp] theorem Ctx.setLand_tabs (c : Ctx) (r : Nat) (v : BitVec 8) : (c.setLand r v).tabs = c.tabs := rfl
@[simp] theorem Ctx.setLand_flags (c : Ctx) (r : Nat) (v : BitVec 8) : (c.setLand r v).flags = c.flags := rfl
@[simp] theorem Ctx.setLand_icnt (c : Ctx) (r : Nat) (v : BitVec 8) : (c.setLand r v).icnt = c.icnt := rfl
@[simp] theorem Ctx.setLand_clock (c : Ctx) (r : Nat) (v : BitVec 8) : (c.setLand r v).clock = c.clock := rfl
@[simp] theorem Ctx.setLand_sys (c : Ctx) (r : Nat) (v : BitVec 8) : (c.setLand r v).sys = c.sys := rfl
@[simp] theorem Ctx.setLand_thread (c : Ctx) (r : Nat) (v : BitVec 8) : (c.setLand r v).thread = c.thread := rfl
@[simp] theorem Ctx.setLand_prev (c : Ctx) (r : Nat) (v : BitVec 8) : (c.setLand r v).prev = c.prev := rfl
@[simp] theorem Ctx.setLand_wait (c : Ctx) (r : Nat) (v : BitVec 8) : (c.setLand r v).wait = c.wait := rfl
@[simp] theorem Ctx.setLand_ws (c : Ctx) (r : Nat) (v : BitVec 8) : (c.setLand r v).ws = c.ws := rfl
@[simp] theorem Ctx.setLand_waited (c : Ctx) (r : Nat) (v : BitVec 8) : (c.setLand r v).waited = c.waited := rfl
@[simp] theorem Ctx.setLand_sptr (c : Ctx) (r : Nat) (v : BitVec 8) : (c.setLand r v).sptr = c.sptr := rfl
@[simp] theorem Ctx.setLand_vq (c : Ctx) (r : Nat) (v : BitVec 8) : (c.setLand r v).vq = c.vq := rfl
@[simp] theorem Ctx.setLand_opened (c : Ctx) (r : Nat) (v : BitVec 8) : (c.setLand r v).opened = c.opened := rfl
@[simp] theorem Ctx.setLand_vstep (c : Ctx) (r : Nat) (v : BitVec 8) : (c.setLand r v).vstep = c.vstep := rfl
@[simp] theorem Ctx.setLand_landing (c : Ctx) (r : Nat) (v : BitVec 8) : (c.setLand r v).landing = c.landing := rfl
@[simp] theorem Ctx.setLand_shadow (c : Ctx) (r : Nat) (v : BitVec 8) : (c.setLand r v).shadow = c.shadow := rfl
@[simp] theorem Ctx.setLand_pos (c : Ctx) (r : Nat) (v : BitVec 8) : (c.setLand r v).pos = c.pos := rfl
@[simp] theorem Ctx.setLand_loose (c : Ctx) (r : Nat) (v : BitVec 8) : (c.setLand r v).loose = c.loose := rfl
@[simp] theorem Ctx.setLand_looseFrom (c : Ctx) (r : Nat) (v : BitVec 8) : (c.setLand r v).looseFrom = c.looseFrom := rfl
@[simp] theorem Ctx.setLand_readFrom (c : Ctx) (r : Nat) (v : BitVec 8) : (c.setLand r v).readFrom = c.readFrom := rfl
@[simp] theorem Ctx.setLand_reads (c : Ctx) (r : Nat) (v : BitVec 8) : (c.setLand r v).reads = c.reads := rfl
@[simp] theorem Ctx.setLand_readFromCore (c : Ctx) (r : Nat) (v : BitVec 8) : (c.setLand r v).readFromCore = c.readFromCore := rfl
@[simp] theorem Ctx.setLand_readFromDie (c : Ctx) (r : Nat) (v : BitVec 8) : (c.setLand r v).readFromDie = c.readFromDie := rfl
@[simp] theorem Ctx.setLand_seen (c : Ctx) (r : Nat) (v : BitVec 8) : (c.setLand r v).seen = c.seen := rfl
@[simp] theorem Ctx.setLand_looseSeen (c : Ctx) (r : Nat) (v : BitVec 8) : (c.setLand r v).looseSeen = c.looseSeen := rfl
@[simp] theorem Ctx.setLand_fences (c : Ctx) (r : Nat) (v : BitVec 8) : (c.setLand r v).fences = c.fences := rfl
@[simp] theorem Ctx.setLand_vclock (c : Ctx) (r : Nat) (v : BitVec 8) : (c.setLand r v).vclock = c.vclock := rfl
@[simp] theorem Ctx.setLand_holds (c : Ctx) (r : Nat) (v : BitVec 8) : (c.setLand r v).holds = c.holds := rfl
@[simp] theorem Ctx.setLand_saving (c : Ctx) (r : Nat) (v : BitVec 8) : (c.setLand r v).saving = c.saving := rfl
@[simp] theorem Ctx.setLand_claims (c : Ctx) (r : Nat) (v : BitVec 8) : (c.setLand r v).claims = c.claims := rfl
@[simp] theorem Ctx.setLand_mclaims (c : Ctx) (r : Nat) (v : BitVec 8) : (c.setLand r v).mclaims = c.mclaims := rfl
@[simp] theorem Ctx.setLand_yielded (c : Ctx) (r : Nat) (v : BitVec 8) : (c.setLand r v).yielded = c.yielded := rfl
@[simp] theorem Ctx.setLand_ended (c : Ctx) (r : Nat) (v : BitVec 8) : (c.setLand r v).ended = c.ended := rfl
@[simp] theorem Ctx.setLink_x (c : Ctx) (r : Nat) (v : Word × Word) : (c.setLink r v).x = c.x := rfl
@[simp] theorem Ctx.setLink_pc (c : Ctx) (r : Nat) (v : Word × Word) : (c.setLink r v).pc = c.pc := rfl
@[simp] theorem Ctx.setLink_b (c : Ctx) (r : Nat) (v : Word × Word) : (c.setLink r v).b = c.b := rfl
@[simp] theorem Ctx.setLink_m (c : Ctx) (r : Nat) (v : Word × Word) : (c.setLink r v).m = c.m := rfl
@[simp] theorem Ctx.setLink_k (c : Ctx) (r : Nat) (v : Word × Word) : (c.setLink r v).k = c.k := rfl
@[simp] theorem Ctx.setLink_landed (c : Ctx) (r : Nat) (v : Word × Word) : (c.setLink r v).landed = c.landed := rfl
@[simp] theorem Ctx.setLink_ctrl (c : Ctx) (r : Nat) (v : Word × Word) : (c.setLink r v).ctrl = c.ctrl := rfl
@[simp] theorem Ctx.setLink_wic (c : Ctx) (r : Nat) (v : Word × Word) : (c.setLink r v).wic = c.wic := rfl
@[simp] theorem Ctx.setLink_wdc (c : Ctx) (r : Nat) (v : Word × Word) : (c.setLink r v).wdc = c.wdc := rfl
@[simp] theorem Ctx.setLink_tabs (c : Ctx) (r : Nat) (v : Word × Word) : (c.setLink r v).tabs = c.tabs := rfl
@[simp] theorem Ctx.setLink_flags (c : Ctx) (r : Nat) (v : Word × Word) : (c.setLink r v).flags = c.flags := rfl
@[simp] theorem Ctx.setLink_icnt (c : Ctx) (r : Nat) (v : Word × Word) : (c.setLink r v).icnt = c.icnt := rfl
@[simp] theorem Ctx.setLink_clock (c : Ctx) (r : Nat) (v : Word × Word) : (c.setLink r v).clock = c.clock := rfl
@[simp] theorem Ctx.setLink_sys (c : Ctx) (r : Nat) (v : Word × Word) : (c.setLink r v).sys = c.sys := rfl
@[simp] theorem Ctx.setLink_thread (c : Ctx) (r : Nat) (v : Word × Word) : (c.setLink r v).thread = c.thread := rfl
@[simp] theorem Ctx.setLink_prev (c : Ctx) (r : Nat) (v : Word × Word) : (c.setLink r v).prev = c.prev := rfl
@[simp] theorem Ctx.setLink_wait (c : Ctx) (r : Nat) (v : Word × Word) : (c.setLink r v).wait = c.wait := rfl
@[simp] theorem Ctx.setLink_ws (c : Ctx) (r : Nat) (v : Word × Word) : (c.setLink r v).ws = c.ws := rfl
@[simp] theorem Ctx.setLink_waited (c : Ctx) (r : Nat) (v : Word × Word) : (c.setLink r v).waited = c.waited := rfl
@[simp] theorem Ctx.setLink_sptr (c : Ctx) (r : Nat) (v : Word × Word) : (c.setLink r v).sptr = c.sptr := rfl
@[simp] theorem Ctx.setLink_vq (c : Ctx) (r : Nat) (v : Word × Word) : (c.setLink r v).vq = c.vq := rfl
@[simp] theorem Ctx.setLink_opened (c : Ctx) (r : Nat) (v : Word × Word) : (c.setLink r v).opened = c.opened := rfl
@[simp] theorem Ctx.setLink_vstep (c : Ctx) (r : Nat) (v : Word × Word) : (c.setLink r v).vstep = c.vstep := rfl
@[simp] theorem Ctx.setLink_landing (c : Ctx) (r : Nat) (v : Word × Word) : (c.setLink r v).landing = c.landing := rfl
@[simp] theorem Ctx.setLink_shadow (c : Ctx) (r : Nat) (v : Word × Word) : (c.setLink r v).shadow = c.shadow := rfl
@[simp] theorem Ctx.setLink_pos (c : Ctx) (r : Nat) (v : Word × Word) : (c.setLink r v).pos = c.pos := rfl
@[simp] theorem Ctx.setLink_loose (c : Ctx) (r : Nat) (v : Word × Word) : (c.setLink r v).loose = c.loose := rfl
@[simp] theorem Ctx.setLink_looseFrom (c : Ctx) (r : Nat) (v : Word × Word) : (c.setLink r v).looseFrom = c.looseFrom := rfl
@[simp] theorem Ctx.setLink_readFrom (c : Ctx) (r : Nat) (v : Word × Word) : (c.setLink r v).readFrom = c.readFrom := rfl
@[simp] theorem Ctx.setLink_reads (c : Ctx) (r : Nat) (v : Word × Word) : (c.setLink r v).reads = c.reads := rfl
@[simp] theorem Ctx.setLink_readFromCore (c : Ctx) (r : Nat) (v : Word × Word) : (c.setLink r v).readFromCore = c.readFromCore := rfl
@[simp] theorem Ctx.setLink_readFromDie (c : Ctx) (r : Nat) (v : Word × Word) : (c.setLink r v).readFromDie = c.readFromDie := rfl
@[simp] theorem Ctx.setLink_seen (c : Ctx) (r : Nat) (v : Word × Word) : (c.setLink r v).seen = c.seen := rfl
@[simp] theorem Ctx.setLink_looseSeen (c : Ctx) (r : Nat) (v : Word × Word) : (c.setLink r v).looseSeen = c.looseSeen := rfl
@[simp] theorem Ctx.setLink_fences (c : Ctx) (r : Nat) (v : Word × Word) : (c.setLink r v).fences = c.fences := rfl
@[simp] theorem Ctx.setLink_vclock (c : Ctx) (r : Nat) (v : Word × Word) : (c.setLink r v).vclock = c.vclock := rfl
@[simp] theorem Ctx.setLink_holds (c : Ctx) (r : Nat) (v : Word × Word) : (c.setLink r v).holds = c.holds := rfl
@[simp] theorem Ctx.setLink_saving (c : Ctx) (r : Nat) (v : Word × Word) : (c.setLink r v).saving = c.saving := rfl
@[simp] theorem Ctx.setLink_claims (c : Ctx) (r : Nat) (v : Word × Word) : (c.setLink r v).claims = c.claims := rfl
@[simp] theorem Ctx.setLink_mclaims (c : Ctx) (r : Nat) (v : Word × Word) : (c.setLink r v).mclaims = c.mclaims := rfl
@[simp] theorem Ctx.setLink_yielded (c : Ctx) (r : Nat) (v : Word × Word) : (c.setLink r v).yielded = c.yielded := rfl
@[simp] theorem Ctx.setLink_ended (c : Ctx) (r : Nat) (v : Word × Word) : (c.setLink r v).ended = c.ended := rfl

@[simp] theorem Ctx.passBy_icnt (c : Ctx) (d : Nat) : (c.passBy d).icnt = c.icnt + 1 := rfl
@[simp] theorem Ctx.advance_icnt (c : Ctx) (S : Fin 4) : (c.advance S).icnt = c.icnt + 1 := rfl
@[simp] theorem Ctx.jump_icnt (c : Ctx) (S : Fin 4) (t : Word) : (c.jump S t).icnt = c.icnt + 1 := rfl
@[simp] theorem Ctx.advance_pc (c : Ctx) (S : Fin 4) : (c.advance S).pc = c.pc + 4 := rfl
@[simp] theorem Ctx.jump_pc (c : Ctx) (S : Fin 4) (t : Word) : (c.jump S t).pc = t := rfl
@[simp] theorem Ctx.passBy_wait (c : Ctx) (d : Nat) : (c.passBy d).wait = none := rfl
@[simp] theorem Ctx.advance_wait (c : Ctx) (S : Fin 4) : (c.advance S).wait = none := rfl
@[simp] theorem Ctx.jump_wait (c : Ctx) (S : Fin 4) (t : Word) : (c.jump S t).wait = none := rfl

@[simp] theorem Ctx.wx_pc (c : Ctx) (r : Nat) (v : Word) : (c.wx r v).pc = c.pc := by unfold Ctx.wx; split <;> rfl
@[simp] theorem Ctx.wx_b (c : Ctx) (r : Nat) (v : Word) : (c.wx r v).b = c.b := by unfold Ctx.wx; split <;> rfl
@[simp] theorem Ctx.wx_m (c : Ctx) (r : Nat) (v : Word) : (c.wx r v).m = c.m := by unfold Ctx.wx; split <;> rfl
@[simp] theorem Ctx.wx_k (c : Ctx) (r : Nat) (v : Word) : (c.wx r v).k = c.k := by unfold Ctx.wx; split <;> rfl
@[simp] theorem Ctx.wx_landed (c : Ctx) (r : Nat) (v : Word) : (c.wx r v).landed = c.landed := by unfold Ctx.wx; split <;> rfl
@[simp] theorem Ctx.wx_links (c : Ctx) (r : Nat) (v : Word) : (c.wx r v).links = c.links := by unfold Ctx.wx; split <;> rfl
@[simp] theorem Ctx.wx_ctrl (c : Ctx) (r : Nat) (v : Word) : (c.wx r v).ctrl = c.ctrl := by unfold Ctx.wx; split <;> rfl
@[simp] theorem Ctx.wx_wic (c : Ctx) (r : Nat) (v : Word) : (c.wx r v).wic = c.wic := by unfold Ctx.wx; split <;> rfl
@[simp] theorem Ctx.wx_wdc (c : Ctx) (r : Nat) (v : Word) : (c.wx r v).wdc = c.wdc := by unfold Ctx.wx; split <;> rfl
@[simp] theorem Ctx.wx_tabs (c : Ctx) (r : Nat) (v : Word) : (c.wx r v).tabs = c.tabs := by unfold Ctx.wx; split <;> rfl
@[simp] theorem Ctx.wx_flags (c : Ctx) (r : Nat) (v : Word) : (c.wx r v).flags = c.flags := by unfold Ctx.wx; split <;> rfl
@[simp] theorem Ctx.wx_icnt (c : Ctx) (r : Nat) (v : Word) : (c.wx r v).icnt = c.icnt := by unfold Ctx.wx; split <;> rfl
@[simp] theorem Ctx.wx_clock (c : Ctx) (r : Nat) (v : Word) : (c.wx r v).clock = c.clock := by unfold Ctx.wx; split <;> rfl
@[simp] theorem Ctx.wx_sys (c : Ctx) (r : Nat) (v : Word) : (c.wx r v).sys = c.sys := by unfold Ctx.wx; split <;> rfl
@[simp] theorem Ctx.wx_thread (c : Ctx) (r : Nat) (v : Word) : (c.wx r v).thread = c.thread := by unfold Ctx.wx; split <;> rfl
@[simp] theorem Ctx.wx_prev (c : Ctx) (r : Nat) (v : Word) : (c.wx r v).prev = c.prev := by unfold Ctx.wx; split <;> rfl
@[simp] theorem Ctx.wx_wait (c : Ctx) (r : Nat) (v : Word) : (c.wx r v).wait = c.wait := by unfold Ctx.wx; split <;> rfl
@[simp] theorem Ctx.wx_ws (c : Ctx) (r : Nat) (v : Word) : (c.wx r v).ws = c.ws := by unfold Ctx.wx; split <;> rfl
@[simp] theorem Ctx.wx_waited (c : Ctx) (r : Nat) (v : Word) : (c.wx r v).waited = c.waited := by unfold Ctx.wx; split <;> rfl
@[simp] theorem Ctx.wx_sptr (c : Ctx) (r : Nat) (v : Word) : (c.wx r v).sptr = c.sptr := by unfold Ctx.wx; split <;> rfl
@[simp] theorem Ctx.wx_vq (c : Ctx) (r : Nat) (v : Word) : (c.wx r v).vq = c.vq := by unfold Ctx.wx; split <;> rfl
@[simp] theorem Ctx.wx_opened (c : Ctx) (r : Nat) (v : Word) : (c.wx r v).opened = c.opened := by unfold Ctx.wx; split <;> rfl
@[simp] theorem Ctx.wx_vstep (c : Ctx) (r : Nat) (v : Word) : (c.wx r v).vstep = c.vstep := by unfold Ctx.wx; split <;> rfl
@[simp] theorem Ctx.wx_landing (c : Ctx) (r : Nat) (v : Word) : (c.wx r v).landing = c.landing := by unfold Ctx.wx; split <;> rfl
@[simp] theorem Ctx.wx_shadow (c : Ctx) (r : Nat) (v : Word) : (c.wx r v).shadow = c.shadow := by unfold Ctx.wx; split <;> rfl
@[simp] theorem Ctx.wx_pos (c : Ctx) (r : Nat) (v : Word) : (c.wx r v).pos = c.pos := by unfold Ctx.wx; split <;> rfl
@[simp] theorem Ctx.wx_loose (c : Ctx) (r : Nat) (v : Word) : (c.wx r v).loose = c.loose := by unfold Ctx.wx; split <;> rfl
@[simp] theorem Ctx.wx_looseFrom (c : Ctx) (r : Nat) (v : Word) : (c.wx r v).looseFrom = c.looseFrom := by unfold Ctx.wx; split <;> rfl
@[simp] theorem Ctx.wx_readFrom (c : Ctx) (r : Nat) (v : Word) : (c.wx r v).readFrom = c.readFrom := by unfold Ctx.wx; split <;> rfl
@[simp] theorem Ctx.wx_reads (c : Ctx) (r : Nat) (v : Word) : (c.wx r v).reads = c.reads := by unfold Ctx.wx; split <;> rfl
@[simp] theorem Ctx.wx_readFromCore (c : Ctx) (r : Nat) (v : Word) : (c.wx r v).readFromCore = c.readFromCore := by unfold Ctx.wx; split <;> rfl
@[simp] theorem Ctx.wx_readFromDie (c : Ctx) (r : Nat) (v : Word) : (c.wx r v).readFromDie = c.readFromDie := by unfold Ctx.wx; split <;> rfl
@[simp] theorem Ctx.wx_seen (c : Ctx) (r : Nat) (v : Word) : (c.wx r v).seen = c.seen := by unfold Ctx.wx; split <;> rfl
@[simp] theorem Ctx.wx_looseSeen (c : Ctx) (r : Nat) (v : Word) : (c.wx r v).looseSeen = c.looseSeen := by unfold Ctx.wx; split <;> rfl
@[simp] theorem Ctx.wx_fences (c : Ctx) (r : Nat) (v : Word) : (c.wx r v).fences = c.fences := by unfold Ctx.wx; split <;> rfl
@[simp] theorem Ctx.wx_vclock (c : Ctx) (r : Nat) (v : Word) : (c.wx r v).vclock = c.vclock := by unfold Ctx.wx; split <;> rfl
@[simp] theorem Ctx.wx_holds (c : Ctx) (r : Nat) (v : Word) : (c.wx r v).holds = c.holds := by unfold Ctx.wx; split <;> rfl
@[simp] theorem Ctx.wx_saving (c : Ctx) (r : Nat) (v : Word) : (c.wx r v).saving = c.saving := by unfold Ctx.wx; split <;> rfl
@[simp] theorem Ctx.wx_claims (c : Ctx) (r : Nat) (v : Word) : (c.wx r v).claims = c.claims := by unfold Ctx.wx; split <;> rfl
@[simp] theorem Ctx.wx_mclaims (c : Ctx) (r : Nat) (v : Word) : (c.wx r v).mclaims = c.mclaims := by unfold Ctx.wx; split <;> rfl
@[simp] theorem Ctx.wx_yielded (c : Ctx) (r : Nat) (v : Word) : (c.wx r v).yielded = c.yielded := by unfold Ctx.wx; split <;> rfl
@[simp] theorem Ctx.wx_ended (c : Ctx) (r : Nat) (v : Word) : (c.wx r v).ended = c.ended := by unfold Ctx.wx; split <;> rfl
@[simp] theorem Ctx.shade_x (c : Ctx) (n : Nat) (v : Word) (l : Nat) : (c.shade n v l).x = c.x := by unfold Ctx.shade; split <;> rfl
@[simp] theorem Ctx.shade_pc (c : Ctx) (n : Nat) (v : Word) (l : Nat) : (c.shade n v l).pc = c.pc := by unfold Ctx.shade; split <;> rfl
@[simp] theorem Ctx.shade_b (c : Ctx) (n : Nat) (v : Word) (l : Nat) : (c.shade n v l).b = c.b := by unfold Ctx.shade; split <;> rfl
@[simp] theorem Ctx.shade_m (c : Ctx) (n : Nat) (v : Word) (l : Nat) : (c.shade n v l).m = c.m := by unfold Ctx.shade; split <;> rfl
@[simp] theorem Ctx.shade_k (c : Ctx) (n : Nat) (v : Word) (l : Nat) : (c.shade n v l).k = c.k := by unfold Ctx.shade; split <;> rfl
@[simp] theorem Ctx.shade_landed (c : Ctx) (n : Nat) (v : Word) (l : Nat) : (c.shade n v l).landed = c.landed := by unfold Ctx.shade; split <;> rfl
@[simp] theorem Ctx.shade_links (c : Ctx) (n : Nat) (v : Word) (l : Nat) : (c.shade n v l).links = c.links := by unfold Ctx.shade; split <;> rfl
@[simp] theorem Ctx.shade_ctrl (c : Ctx) (n : Nat) (v : Word) (l : Nat) : (c.shade n v l).ctrl = c.ctrl := by unfold Ctx.shade; split <;> rfl
@[simp] theorem Ctx.shade_wic (c : Ctx) (n : Nat) (v : Word) (l : Nat) : (c.shade n v l).wic = c.wic := by unfold Ctx.shade; split <;> rfl
@[simp] theorem Ctx.shade_wdc (c : Ctx) (n : Nat) (v : Word) (l : Nat) : (c.shade n v l).wdc = c.wdc := by unfold Ctx.shade; split <;> rfl
@[simp] theorem Ctx.shade_tabs (c : Ctx) (n : Nat) (v : Word) (l : Nat) : (c.shade n v l).tabs = c.tabs := by unfold Ctx.shade; split <;> rfl
@[simp] theorem Ctx.shade_flags (c : Ctx) (n : Nat) (v : Word) (l : Nat) : (c.shade n v l).flags = c.flags := by unfold Ctx.shade; split <;> rfl
@[simp] theorem Ctx.shade_icnt (c : Ctx) (n : Nat) (v : Word) (l : Nat) : (c.shade n v l).icnt = c.icnt := by unfold Ctx.shade; split <;> rfl
@[simp] theorem Ctx.shade_clock (c : Ctx) (n : Nat) (v : Word) (l : Nat) : (c.shade n v l).clock = c.clock := by unfold Ctx.shade; split <;> rfl
@[simp] theorem Ctx.shade_sys (c : Ctx) (n : Nat) (v : Word) (l : Nat) : (c.shade n v l).sys = c.sys := by unfold Ctx.shade; split <;> rfl
@[simp] theorem Ctx.shade_thread (c : Ctx) (n : Nat) (v : Word) (l : Nat) : (c.shade n v l).thread = c.thread := by unfold Ctx.shade; split <;> rfl
@[simp] theorem Ctx.shade_prev (c : Ctx) (n : Nat) (v : Word) (l : Nat) : (c.shade n v l).prev = c.prev := by unfold Ctx.shade; split <;> rfl
@[simp] theorem Ctx.shade_wait (c : Ctx) (n : Nat) (v : Word) (l : Nat) : (c.shade n v l).wait = c.wait := by unfold Ctx.shade; split <;> rfl
@[simp] theorem Ctx.shade_ws (c : Ctx) (n : Nat) (v : Word) (l : Nat) : (c.shade n v l).ws = c.ws := by unfold Ctx.shade; split <;> rfl
@[simp] theorem Ctx.shade_waited (c : Ctx) (n : Nat) (v : Word) (l : Nat) : (c.shade n v l).waited = c.waited := by unfold Ctx.shade; split <;> rfl
@[simp] theorem Ctx.shade_sptr (c : Ctx) (n : Nat) (v : Word) (l : Nat) : (c.shade n v l).sptr = c.sptr := by unfold Ctx.shade; split <;> rfl
@[simp] theorem Ctx.shade_vq (c : Ctx) (n : Nat) (v : Word) (l : Nat) : (c.shade n v l).vq = c.vq := by unfold Ctx.shade; split <;> rfl
@[simp] theorem Ctx.shade_opened (c : Ctx) (n : Nat) (v : Word) (l : Nat) : (c.shade n v l).opened = c.opened := by unfold Ctx.shade; split <;> rfl
@[simp] theorem Ctx.shade_vstep (c : Ctx) (n : Nat) (v : Word) (l : Nat) : (c.shade n v l).vstep = c.vstep := by unfold Ctx.shade; split <;> rfl
@[simp] theorem Ctx.shade_landing (c : Ctx) (n : Nat) (v : Word) (l : Nat) : (c.shade n v l).landing = c.landing := by unfold Ctx.shade; split <;> rfl
@[simp] theorem Ctx.shade_pos (c : Ctx) (n : Nat) (v : Word) (l : Nat) : (c.shade n v l).pos = c.pos := by unfold Ctx.shade; split <;> rfl
@[simp] theorem Ctx.shade_loose (c : Ctx) (n : Nat) (v : Word) (l : Nat) : (c.shade n v l).loose = c.loose := by unfold Ctx.shade; split <;> rfl
@[simp] theorem Ctx.shade_looseFrom (c : Ctx) (n : Nat) (v : Word) (l : Nat) : (c.shade n v l).looseFrom = c.looseFrom := by unfold Ctx.shade; split <;> rfl
@[simp] theorem Ctx.shade_readFrom (c : Ctx) (n : Nat) (v : Word) (l : Nat) : (c.shade n v l).readFrom = c.readFrom := by unfold Ctx.shade; split <;> rfl
@[simp] theorem Ctx.shade_reads (c : Ctx) (n : Nat) (v : Word) (l : Nat) : (c.shade n v l).reads = c.reads := by unfold Ctx.shade; split <;> rfl
@[simp] theorem Ctx.shade_readFromCore (c : Ctx) (n : Nat) (v : Word) (l : Nat) : (c.shade n v l).readFromCore = c.readFromCore := by unfold Ctx.shade; split <;> rfl
@[simp] theorem Ctx.shade_readFromDie (c : Ctx) (n : Nat) (v : Word) (l : Nat) : (c.shade n v l).readFromDie = c.readFromDie := by unfold Ctx.shade; split <;> rfl
@[simp] theorem Ctx.shade_seen (c : Ctx) (n : Nat) (v : Word) (l : Nat) : (c.shade n v l).seen = c.seen := by unfold Ctx.shade; split <;> rfl
@[simp] theorem Ctx.shade_looseSeen (c : Ctx) (n : Nat) (v : Word) (l : Nat) : (c.shade n v l).looseSeen = c.looseSeen := by unfold Ctx.shade; split <;> rfl
@[simp] theorem Ctx.shade_fences (c : Ctx) (n : Nat) (v : Word) (l : Nat) : (c.shade n v l).fences = c.fences := by unfold Ctx.shade; split <;> rfl
@[simp] theorem Ctx.shade_vclock (c : Ctx) (n : Nat) (v : Word) (l : Nat) : (c.shade n v l).vclock = c.vclock := by unfold Ctx.shade; split <;> rfl
@[simp] theorem Ctx.shade_holds (c : Ctx) (n : Nat) (v : Word) (l : Nat) : (c.shade n v l).holds = c.holds := by unfold Ctx.shade; split <;> rfl
@[simp] theorem Ctx.shade_saving (c : Ctx) (n : Nat) (v : Word) (l : Nat) : (c.shade n v l).saving = c.saving := by unfold Ctx.shade; split <;> rfl
@[simp] theorem Ctx.shade_claims (c : Ctx) (n : Nat) (v : Word) (l : Nat) : (c.shade n v l).claims = c.claims := by unfold Ctx.shade; split <;> rfl
@[simp] theorem Ctx.shade_mclaims (c : Ctx) (n : Nat) (v : Word) (l : Nat) : (c.shade n v l).mclaims = c.mclaims := by unfold Ctx.shade; split <;> rfl
@[simp] theorem Ctx.shade_yielded (c : Ctx) (n : Nat) (v : Word) (l : Nat) : (c.shade n v l).yielded = c.yielded := by unfold Ctx.shade; split <;> rfl
@[simp] theorem Ctx.shade_ended (c : Ctx) (n : Nat) (v : Word) (l : Nat) : (c.shade n v l).ended = c.ended := by unfold Ctx.shade; split <;> rfl

@[simp] theorem Ctx.result_pc (c : Ctx) (r : Nat) (v : Word) (l : Nat) : (c.result r v l).pc = c.pc := by unfold Ctx.result; split <;> simp
@[simp] theorem Ctx.result_b (c : Ctx) (r : Nat) (v : Word) (l : Nat) : (c.result r v l).b = c.b := by unfold Ctx.result; split <;> simp
@[simp] theorem Ctx.result_m (c : Ctx) (r : Nat) (v : Word) (l : Nat) : (c.result r v l).m = c.m := by unfold Ctx.result; split <;> simp
@[simp] theorem Ctx.result_k (c : Ctx) (r : Nat) (v : Word) (l : Nat) : (c.result r v l).k = c.k := by unfold Ctx.result; split <;> simp
@[simp] theorem Ctx.result_landed (c : Ctx) (r : Nat) (v : Word) (l : Nat) : (c.result r v l).landed = c.landed := by unfold Ctx.result; split <;> simp
@[simp] theorem Ctx.result_links (c : Ctx) (r : Nat) (v : Word) (l : Nat) : (c.result r v l).links = c.links := by unfold Ctx.result; split <;> simp
@[simp] theorem Ctx.result_ctrl (c : Ctx) (r : Nat) (v : Word) (l : Nat) : (c.result r v l).ctrl = c.ctrl := by unfold Ctx.result; split <;> simp
@[simp] theorem Ctx.result_wic (c : Ctx) (r : Nat) (v : Word) (l : Nat) : (c.result r v l).wic = c.wic := by unfold Ctx.result; split <;> simp
@[simp] theorem Ctx.result_wdc (c : Ctx) (r : Nat) (v : Word) (l : Nat) : (c.result r v l).wdc = c.wdc := by unfold Ctx.result; split <;> simp
@[simp] theorem Ctx.result_tabs (c : Ctx) (r : Nat) (v : Word) (l : Nat) : (c.result r v l).tabs = c.tabs := by unfold Ctx.result; split <;> simp
@[simp] theorem Ctx.result_flags (c : Ctx) (r : Nat) (v : Word) (l : Nat) : (c.result r v l).flags = c.flags := by unfold Ctx.result; split <;> simp
@[simp] theorem Ctx.result_icnt (c : Ctx) (r : Nat) (v : Word) (l : Nat) : (c.result r v l).icnt = c.icnt := by unfold Ctx.result; split <;> simp
@[simp] theorem Ctx.result_clock (c : Ctx) (r : Nat) (v : Word) (l : Nat) : (c.result r v l).clock = c.clock := by unfold Ctx.result; split <;> simp
@[simp] theorem Ctx.result_sys (c : Ctx) (r : Nat) (v : Word) (l : Nat) : (c.result r v l).sys = c.sys := by unfold Ctx.result; split <;> simp
@[simp] theorem Ctx.result_thread (c : Ctx) (r : Nat) (v : Word) (l : Nat) : (c.result r v l).thread = c.thread := by unfold Ctx.result; split <;> simp
@[simp] theorem Ctx.result_prev (c : Ctx) (r : Nat) (v : Word) (l : Nat) : (c.result r v l).prev = c.prev := by unfold Ctx.result; split <;> simp
@[simp] theorem Ctx.result_wait (c : Ctx) (r : Nat) (v : Word) (l : Nat) : (c.result r v l).wait = c.wait := by unfold Ctx.result; split <;> simp
@[simp] theorem Ctx.result_ws (c : Ctx) (r : Nat) (v : Word) (l : Nat) : (c.result r v l).ws = c.ws := by unfold Ctx.result; split <;> simp
@[simp] theorem Ctx.result_waited (c : Ctx) (r : Nat) (v : Word) (l : Nat) : (c.result r v l).waited = c.waited := by unfold Ctx.result; split <;> simp
@[simp] theorem Ctx.result_sptr (c : Ctx) (r : Nat) (v : Word) (l : Nat) : (c.result r v l).sptr = c.sptr := by unfold Ctx.result; split <;> simp
@[simp] theorem Ctx.result_vq (c : Ctx) (r : Nat) (v : Word) (l : Nat) : (c.result r v l).vq = c.vq := by unfold Ctx.result; split <;> simp
@[simp] theorem Ctx.result_opened (c : Ctx) (r : Nat) (v : Word) (l : Nat) : (c.result r v l).opened = c.opened := by unfold Ctx.result; split <;> simp
@[simp] theorem Ctx.result_vstep (c : Ctx) (r : Nat) (v : Word) (l : Nat) : (c.result r v l).vstep = c.vstep := by unfold Ctx.result; split <;> simp
@[simp] theorem Ctx.result_landing (c : Ctx) (r : Nat) (v : Word) (l : Nat) : (c.result r v l).landing = c.landing := by unfold Ctx.result; split <;> simp
@[simp] theorem Ctx.result_pos (c : Ctx) (r : Nat) (v : Word) (l : Nat) : (c.result r v l).pos = c.pos := by unfold Ctx.result; split <;> simp
@[simp] theorem Ctx.result_loose (c : Ctx) (r : Nat) (v : Word) (l : Nat) : (c.result r v l).loose = c.loose := by unfold Ctx.result; split <;> simp
@[simp] theorem Ctx.result_looseFrom (c : Ctx) (r : Nat) (v : Word) (l : Nat) : (c.result r v l).looseFrom = c.looseFrom := by unfold Ctx.result; split <;> simp
@[simp] theorem Ctx.result_readFrom (c : Ctx) (r : Nat) (v : Word) (l : Nat) : (c.result r v l).readFrom = c.readFrom := by unfold Ctx.result; split <;> simp
@[simp] theorem Ctx.result_reads (c : Ctx) (r : Nat) (v : Word) (l : Nat) : (c.result r v l).reads = c.reads := by unfold Ctx.result; split <;> simp
@[simp] theorem Ctx.result_readFromCore (c : Ctx) (r : Nat) (v : Word) (l : Nat) : (c.result r v l).readFromCore = c.readFromCore := by unfold Ctx.result; split <;> simp
@[simp] theorem Ctx.result_readFromDie (c : Ctx) (r : Nat) (v : Word) (l : Nat) : (c.result r v l).readFromDie = c.readFromDie := by unfold Ctx.result; split <;> simp
@[simp] theorem Ctx.result_seen (c : Ctx) (r : Nat) (v : Word) (l : Nat) : (c.result r v l).seen = c.seen := by unfold Ctx.result; split <;> simp
@[simp] theorem Ctx.result_looseSeen (c : Ctx) (r : Nat) (v : Word) (l : Nat) : (c.result r v l).looseSeen = c.looseSeen := by unfold Ctx.result; split <;> simp
@[simp] theorem Ctx.result_fences (c : Ctx) (r : Nat) (v : Word) (l : Nat) : (c.result r v l).fences = c.fences := by unfold Ctx.result; split <;> simp
@[simp] theorem Ctx.result_vclock (c : Ctx) (r : Nat) (v : Word) (l : Nat) : (c.result r v l).vclock = c.vclock := by unfold Ctx.result; split <;> simp
@[simp] theorem Ctx.result_holds (c : Ctx) (r : Nat) (v : Word) (l : Nat) : (c.result r v l).holds = c.holds := by unfold Ctx.result; split <;> simp
@[simp] theorem Ctx.result_saving (c : Ctx) (r : Nat) (v : Word) (l : Nat) : (c.result r v l).saving = c.saving := by unfold Ctx.result; split <;> simp
@[simp] theorem Ctx.result_claims (c : Ctx) (r : Nat) (v : Word) (l : Nat) : (c.result r v l).claims = c.claims := by unfold Ctx.result; split <;> simp
@[simp] theorem Ctx.result_mclaims (c : Ctx) (r : Nat) (v : Word) (l : Nat) : (c.result r v l).mclaims = c.mclaims := by unfold Ctx.result; split <;> simp
@[simp] theorem Ctx.result_yielded (c : Ctx) (r : Nat) (v : Word) (l : Nat) : (c.result r v l).yielded = c.yielded := by unfold Ctx.result; split <;> simp
@[simp] theorem Ctx.result_ended (c : Ctx) (r : Nat) (v : Word) (l : Nat) : (c.result r v l).ended = c.ended := by unfold Ctx.result; split <;> simp

/-! ### Scalar registers -/

@[simp] theorem Ctx.rx_zero (c : Ctx) : c.rx 0 = 0 := rfl
/-- x0 reads zero, and a write to it is discarded (03 R55). -/
theorem Ctx.rx_wx (c : Ctx) (r n : Nat) (v : Word) : (c.wx r v).rx n = if n = r ∧ n ≠ 0 then v else c.rx n := by
  unfold Ctx.wx Ctx.rx
  by_cases hn : n = 0
  · simp [hn]
  · by_cases hr : r = 0
    · simp [hn, hr]
    · simp only [hn, hr, if_false, ne_eq, not_false_eq_true, and_true, tget_tset]
@[simp] theorem Ctx.rx_advance (c : Ctx) (S : Fin 4) (n : Nat) : (c.advance S).rx n = c.rx n := rfl
@[simp] theorem Ctx.rx_jump (c : Ctx) (S : Fin 4) (t : Word) (n : Nat) : (c.jump S t).rx n = c.rx n := rfl
@[simp] theorem Ctx.rx_shade (c : Ctx) (r : Nat) (v : Word) (l n : Nat) : (c.shade r v l).rx n = c.rx n := by
  unfold Ctx.rx; rw [Ctx.shade_x]
/-- What a result leaves in the scalar registers. -/
theorem Ctx.rx_result (c : Ctx) (r : Nat) (v : Word) (l n : Nat) : (c.result r v l).rx n = if n = r ∧ n ≠ 0 then v else c.rx n := by
  unfold Ctx.result
  split
  · next h => simp only [h]; split
              · next h2 => exact absurd h2.1 h2.2
              · rfl
  · rw [Ctx.rx_wx, Ctx.rx_shade]

/-! ### Bricks, masks and links -/

theorem Ctx.brick_setBrick (c : Ctx) (r n : Nat) (v : BitVec 16384) : (c.setBrick r v).brick n = if n = r then v else c.brick n :=
  tget_tset 0 c.b r n v
theorem Ctx.mask_setMask (c : Ctx) (r n : Nat) (v : BitVec 4096) : (c.setMask r v).mask n = if n = r then v else c.mask n :=
  tget_tset 0 c.m r n v
theorem Ctx.scale_setScale (c : Ctx) (r n : Nat) (v : BitVec 4096) : (c.setScale r v).scale n = if n = r then v else c.scale n :=
  tget_tset 0 c.k r n v
theorem Ctx.land_setLand (c : Ctx) (r n : Nat) (v : BitVec 8) : (c.setLand r v).land n = if n = r then v else c.land n :=
  tget_tset 0xFF c.landed r n v
theorem Ctx.link_setLink (c : Ctx) (r n : Nat) (v : Word × Word) : (c.setLink r v).link n = if n = r then v else c.link n :=
  tget_tset (0, 0) c.links r n v

end Sys2Proof.Machine
end

