-- ==== Sys2Proof/Laws/Memory.lean ====
section
/-! SUPPORT. Laws.Memory: every operation on memory keeps its canonical form (log entry 7), and memory after reset has it. -/

namespace Sys2Proof.Machine

/-- Taking entries out of a table in canonical form leaves the form. -/
theorem tsorted_filter {α : Type} (f : Nat × α → Bool) (t : Table α) (h : tsorted t = true) : tsorted (t.filter f) = true := by
  induction t with
  | nil => rfl
  | cons e t ih =>
    obtain ⟨k, w⟩ := e
    rw [tsorted_cons] at h
    rw [List.filter_cons]
    split
    · rw [tsorted_cons]
      exact ⟨fun x hx => h.1 x (List.mem_filter.1 hx).1, ih h.2⟩
    · exact ih h.2

theorem twf_filter {α : Type} [DecidableEq α] (d : α) (f : Nat × α → Bool) (t : Table α) (h : twf d t = true) :
    twf d (t.filter f) = true := by
  simp only [twf, Bool.and_eq_true, List.all_eq_true] at h ⊢
  exact ⟨tsorted_filter f t h.1, fun e he => h.2 e (List.mem_filter.1 he).1⟩

/-- Two states with the same memory, parity, history, partitions and time. -/
theorem State.memInv_congr {s t : State} (hm : t.mem = s.mem) (hp : t.parity = s.parity) (hh : t.hist = s.hist)
    (hq : t.parts = s.parts) (ht : t.time = s.time) (h : s.memInv) : t.memInv := by
  refine ⟨by rw [hm]; exact h.1, fun n i hn hi => ?_, by simpa only [State.histOk, hh, hq, ht] using h.2.2⟩
  have := h.2.1 n i hn hi
  simpa only [State.peek, hm, hp] using this

@[simp] theorem State.poke_peek (s : State) (pa : Nat) (v : Byte) (b : Nat) :
    (s.poke pa v).peek b = if b = pa then v else s.peek b := tget_tset 0 s.mem pa b v

theorem State.poke_wf (s : State) (pa : Nat) (v : Byte) (h : Memory.wf s.mem = true) : Memory.wf (s.poke pa v).mem = true :=
  twf_tset 0 s.mem pa v h

@[simp] theorem State.writeByte_mem (s : State) (pa : Nat) (v : Ver) : (s.writeByte pa v).mem = tset 0 s.mem pa v.val := by
  unfold State.writeByte
  by_cases h : region pa = .main <;> simp [h, State.poke]

theorem State.writeByte_wf (s : State) (pa : Nat) (v : Ver) (h : Memory.wf s.mem = true) :
    Memory.wf (s.writeByte pa v).mem = true := by
  rw [State.writeByte_mem]
  exact twf_tset 0 s.mem pa v.val h

theorem foldl_wf {β : Type} (f : State → β → State) (hf : ∀ s b, Memory.wf s.mem = true → Memory.wf (f s b).mem = true) (l : List β) :
    ∀ s : State, Memory.wf s.mem = true → Memory.wf (l.foldl f s).mem = true := by
  induction l with
  | nil => exact fun _ h => h
  | cons b l ih => exact fun s h => ih _ (hf s b h)

theorem foldl_mem {β : Type} (f : State → β → State) (hf : ∀ s b, (f s b).mem = s.mem) (l : List β) :
    ∀ s : State, (l.foldl f s).mem = s.mem := by
  induction l with
  | nil => exact fun _ => rfl
  | cons b l ih => exact fun s => (ih (f s b)).trans (hf s b)

@[simp] theorem State.telemetry_mem (s : State) (core unit code : Nat) (d : Detail) : (s.telemetry core unit code d).mem = s.mem := rfl

/-- What a write comes to in its stripes leaves every byte as it is. -/
@[simp] theorem State.wroteLines_mem (s : State) (pas : List Nat) : (s.wroteLines pas).mem = s.mem := by
  unfold State.wroteLines
  refine foldl_mem _ (fun t x => ?_) _ s
  dsimp only
  split
  · rfl
  · split <;> rfl

theorem State.applyBytes_wf (s : State) (pas : List Nat) (bs : List Byte) (die : Fin 4) (num : Nat) (clk : Clock) (tag : Tag)
    (h : Memory.wf s.mem = true) : Memory.wf (s.applyBytes pas bs die num clk tag).mem = true := by
  unfold State.applyBytes
  rw [State.wroteLines_mem]
  exact foldl_wf _ (fun s _ h => s.writeByte_wf _ _ h) _ _ h

theorem State.fillFrame_wf (s : State) (frame size : Nat) (cells : List Host.Cell) (last : Table Ver)
    (h : Memory.wf s.mem = true) : Memory.wf (s.fillFrame frame size cells last).mem = true := by
  unfold State.fillFrame
  rw [State.wroteLines_mem]
  refine foldl_wf _ ?_ last _ (foldl_wf _ ?_ _ _ h)
  · exact fun _ _ h => h
  · exact fun t _ h => twf_tset 0 t.mem _ _ h

theorem State.cleanCore_wf (s : State) (core : Nat) (h : Memory.wf s.mem = true) : Memory.wf (s.cleanCore core).mem = true := by
  unfold State.cleanCore
  rw [State.setCore_mem]
  exact twf_filter 0 _ s.mem h

theorem State.placeWord_wf (s : State) (w : Nat) (h : Memory.wf s.mem = true) : Memory.wf (s.placeWord w).mem = true := by
  unfold State.placeWord
  refine foldl_wf _ ?_ _ _ h
  exact fun s _ h => s.writeByte_wf _ _ h

/-- Memory after reset lists nothing. -/
theorem reset_wf : Memory.wf State.reset.mem = true := rfl

end Sys2Proof.Machine
end

