-- ==== Sys2Proof/Laws/PerInstr.lean ====
section
/-! SUPPORT. Laws.PerInstr: the family Fits. Every instruction that has a word has one of 32 bits (07 R158); an event has none. -/

namespace Sys2Proof.Laws.Fits

/-- The word of the instruction, if it has one, has 32 bits. -/
def Statement (i : Instr) : Prop := ∀ w, encode i = some w → w < 2 ^ 32

theorem bitNat_le (b : Bool) : bitNat b ≤ 1 := by cases b <;> decide
theorem fmt_lt (t : Fmt) : t.code < 32 := by
  cases t <;> simp only [Fmt.code] <;> omega
theorem kind_lt (k : FenceKind) : k.code < 32 := by cases k <;> decide
theorem scope_lt (k : FenceScope) : k.code < 32 := by cases k <;> decide
theorem off_lt (k : Off) : k.code < 4 := by cases k <;> decide
theorem cond_lt (k : Cond) : k.code < 8 := by cases k <;> decide
theorem pair_lt (k : Pair) : k.code < 4 := by cases k <;> decide

/-- An event has no word. -/
theorem of_none {i : Instr} (h : encode i = none) : Statement i := fun w e => by rw [h] at e; cases e
/-- An instruction with a word of 32 bits. -/
theorem of_some {i : Instr} {v : Nat} (h : encode i = some v) (hv : v < 2 ^ 32) : Statement i := fun w e => by
  rw [h] at e; cases e; exact hv

theorem add (s : Fin 4) (d : Fin 32) (a : Fin 32) (b : Fin 32) : Statement (.add s d a b) := of_some rfl (by have := s.isLt; have := d.isLt; have := a.isLt; have := b.isLt; simp only [head]; omega)
theorem sub (s : Fin 4) (d : Fin 32) (a : Fin 32) (b : Fin 32) : Statement (.sub s d a b) := of_some rfl (by have := s.isLt; have := d.isLt; have := a.isLt; have := b.isLt; simp only [head]; omega)
theorem addW (s : Fin 4) (d : Fin 32) (a : Fin 32) (b : Fin 32) : Statement (.addW s d a b) := of_some rfl (by have := s.isLt; have := d.isLt; have := a.isLt; have := b.isLt; simp only [head]; omega)
theorem subW (s : Fin 4) (d : Fin 32) (a : Fin 32) (b : Fin 32) : Statement (.subW s d a b) := of_some rfl (by have := s.isLt; have := d.isLt; have := a.isLt; have := b.isLt; simp only [head]; omega)
theorem mul (s : Fin 4) (d : Fin 32) (a : Fin 32) (b : Fin 32) : Statement (.mul s d a b) := of_some rfl (by have := s.isLt; have := d.isLt; have := a.isLt; have := b.isLt; simp only [head]; omega)
theorem mulh (s : Fin 4) (d : Fin 32) (a : Fin 32) (b : Fin 32) : Statement (.mulh s d a b) := of_some rfl (by have := s.isLt; have := d.isLt; have := a.isLt; have := b.isLt; simp only [head]; omega)
theorem mulhn (s : Fin 4) (d : Fin 32) (a : Fin 32) (b : Fin 32) : Statement (.mulhn s d a b) := of_some rfl (by have := s.isLt; have := d.isLt; have := a.isLt; have := b.isLt; simp only [head]; omega)
theorem div (s : Fin 4) (d : Fin 32) (a : Fin 32) (b : Fin 32) : Statement (.div s d a b) := of_some rfl (by have := s.isLt; have := d.isLt; have := a.isLt; have := b.isLt; simp only [head]; omega)
theorem divn (s : Fin 4) (d : Fin 32) (a : Fin 32) (b : Fin 32) : Statement (.divn s d a b) := of_some rfl (by have := s.isLt; have := d.isLt; have := a.isLt; have := b.isLt; simp only [head]; omega)
theorem rem (s : Fin 4) (d : Fin 32) (a : Fin 32) (b : Fin 32) : Statement (.rem s d a b) := of_some rfl (by have := s.isLt; have := d.isLt; have := a.isLt; have := b.isLt; simp only [head]; omega)
theorem remn (s : Fin 4) (d : Fin 32) (a : Fin 32) (b : Fin 32) : Statement (.remn s d a b) := of_some rfl (by have := s.isLt; have := d.isLt; have := a.isLt; have := b.isLt; simp only [head]; omega)
theorem and (s : Fin 4) (d : Fin 32) (a : Fin 32) (b : Fin 32) : Statement (.and s d a b) := of_some rfl (by have := s.isLt; have := d.isLt; have := a.isLt; have := b.isLt; simp only [head]; omega)
theorem or (s : Fin 4) (d : Fin 32) (a : Fin 32) (b : Fin 32) : Statement (.or s d a b) := of_some rfl (by have := s.isLt; have := d.isLt; have := a.isLt; have := b.isLt; simp only [head]; omega)
theorem xor (s : Fin 4) (d : Fin 32) (a : Fin 32) (b : Fin 32) : Statement (.xor s d a b) := of_some rfl (by have := s.isLt; have := d.isLt; have := a.isLt; have := b.isLt; simp only [head]; omega)
theorem andn (s : Fin 4) (d : Fin 32) (a : Fin 32) (b : Fin 32) : Statement (.andn s d a b) := of_some rfl (by have := s.isLt; have := d.isLt; have := a.isLt; have := b.isLt; simp only [head]; omega)
theorem sll (s : Fin 4) (d : Fin 32) (a : Fin 32) (b : Fin 32) : Statement (.sll s d a b) := of_some rfl (by have := s.isLt; have := d.isLt; have := a.isLt; have := b.isLt; simp only [head]; omega)
theorem srl (s : Fin 4) (d : Fin 32) (a : Fin 32) (b : Fin 32) : Statement (.srl s d a b) := of_some rfl (by have := s.isLt; have := d.isLt; have := a.isLt; have := b.isLt; simp only [head]; omega)
theorem sra (s : Fin 4) (d : Fin 32) (a : Fin 32) (b : Fin 32) : Statement (.sra s d a b) := of_some rfl (by have := s.isLt; have := d.isLt; have := a.isLt; have := b.isLt; simp only [head]; omega)
theorem slt (s : Fin 4) (d : Fin 32) (a : Fin 32) (b : Fin 32) : Statement (.slt s d a b) := of_some rfl (by have := s.isLt; have := d.isLt; have := a.isLt; have := b.isLt; simp only [head]; omega)
theorem sltn (s : Fin 4) (d : Fin 32) (a : Fin 32) (b : Fin 32) : Statement (.sltn s d a b) := of_some rfl (by have := s.isLt; have := d.isLt; have := a.isLt; have := b.isLt; simp only [head]; omega)
theorem min (s : Fin 4) (d : Fin 32) (a : Fin 32) (b : Fin 32) : Statement (.min s d a b) := of_some rfl (by have := s.isLt; have := d.isLt; have := a.isLt; have := b.isLt; simp only [head]; omega)
theorem max (s : Fin 4) (d : Fin 32) (a : Fin 32) (b : Fin 32) : Statement (.max s d a b) := of_some rfl (by have := s.isLt; have := d.isLt; have := a.isLt; have := b.isLt; simp only [head]; omega)
theorem minn (s : Fin 4) (d : Fin 32) (a : Fin 32) (b : Fin 32) : Statement (.minn s d a b) := of_some rfl (by have := s.isLt; have := d.isLt; have := a.isLt; have := b.isLt; simp only [head]; omega)
theorem maxn (s : Fin 4) (d : Fin 32) (a : Fin 32) (b : Fin 32) : Statement (.maxn s d a b) := of_some rfl (by have := s.isLt; have := d.isLt; have := a.isLt; have := b.isLt; simp only [head]; omega)
theorem clz (s : Fin 4) (d : Fin 32) (a : Fin 32) : Statement (.clz s d a) := of_some rfl (by have := s.isLt; have := d.isLt; have := a.isLt; simp only [head]; omega)
theorem ffs (s : Fin 4) (d : Fin 32) (a : Fin 32) : Statement (.ffs s d a) := of_some rfl (by have := s.isLt; have := d.isLt; have := a.isLt; simp only [head]; omega)
theorem popc (s : Fin 4) (d : Fin 32) (a : Fin 32) : Statement (.popc s d a) := of_some rfl (by have := s.isLt; have := d.isLt; have := a.isLt; simp only [head]; omega)
theorem addi (s : Fin 4) (d : Fin 32) (a : Fin 32) (i : BitVec 13) : Statement (.addi s d a i) := of_some rfl (by have := s.isLt; have := d.isLt; have := a.isLt; have := i.isLt; simp only [head]; omega)
theorem andi (s : Fin 4) (d : Fin 32) (a : Fin 32) (i : BitVec 13) : Statement (.andi s d a i) := of_some rfl (by have := s.isLt; have := d.isLt; have := a.isLt; have := i.isLt; simp only [head]; omega)
theorem ori (s : Fin 4) (d : Fin 32) (a : Fin 32) (i : BitVec 13) : Statement (.ori s d a i) := of_some rfl (by have := s.isLt; have := d.isLt; have := a.isLt; have := i.isLt; simp only [head]; omega)
theorem xori (s : Fin 4) (d : Fin 32) (a : Fin 32) (i : BitVec 13) : Statement (.xori s d a i) := of_some rfl (by have := s.isLt; have := d.isLt; have := a.isLt; have := i.isLt; simp only [head]; omega)
theorem slli (s : Fin 4) (d : Fin 32) (a : Fin 32) (h : Fin 64) : Statement (.slli s d a h) := of_some rfl (by have := s.isLt; have := d.isLt; have := a.isLt; have := h.isLt; simp only [head]; omega)
theorem srli (s : Fin 4) (d : Fin 32) (a : Fin 32) (h : Fin 64) : Statement (.srli s d a h) := of_some rfl (by have := s.isLt; have := d.isLt; have := a.isLt; have := h.isLt; simp only [head]; omega)
theorem srai (s : Fin 4) (d : Fin 32) (a : Fin 32) (h : Fin 64) : Statement (.srai s d a h) := of_some rfl (by have := s.isLt; have := d.isLt; have := a.isLt; have := h.isLt; simp only [head]; omega)
theorem slti (s : Fin 4) (d : Fin 32) (a : Fin 32) (i : BitVec 12) : Statement (.slti s d a i) := of_some rfl (by have := s.isLt; have := d.isLt; have := a.isLt; have := i.isLt; simp only [head]; omega)
theorem sltni (s : Fin 4) (d : Fin 32) (a : Fin 32) (i : BitVec 12) : Statement (.sltni s d a i) := of_some rfl (by have := s.isLt; have := d.isLt; have := a.isLt; have := i.isLt; simp only [head]; omega)
theorem lui (s : Fin 4) (d : Fin 32) (i : BitVec 18) : Statement (.lui s d i) := of_some rfl (by have := s.isLt; have := d.isLt; have := i.isLt; simp only [head]; omega)
theorem auipc (s : Fin 4) (d : Fin 32) (i : BitVec 18) : Statement (.auipc s d i) := of_some rfl (by have := s.isLt; have := d.isLt; have := i.isLt; simp only [head]; omega)
theorem fadd (s : Fin 4) (d : Fin 32) (a : Fin 32) (b : Fin 32) (p : Bool) : Statement (.fadd s d a b p) := of_some rfl (by have := s.isLt; have := d.isLt; have := a.isLt; have := b.isLt; have := bitNat_le p; simp only [head]; omega)
theorem fsub (s : Fin 4) (d : Fin 32) (a : Fin 32) (b : Fin 32) (p : Bool) : Statement (.fsub s d a b p) := of_some rfl (by have := s.isLt; have := d.isLt; have := a.isLt; have := b.isLt; have := bitNat_le p; simp only [head]; omega)
theorem fmul (s : Fin 4) (d : Fin 32) (a : Fin 32) (b : Fin 32) (p : Bool) : Statement (.fmul s d a b p) := of_some rfl (by have := s.isLt; have := d.isLt; have := a.isLt; have := b.isLt; have := bitNat_le p; simp only [head]; omega)
theorem fmac (s : Fin 4) (d : Fin 32) (a : Fin 32) (b : Fin 32) (p : Bool) : Statement (.fmac s d a b p) := of_some rfl (by have := s.isLt; have := d.isLt; have := a.isLt; have := b.isLt; have := bitNat_le p; simp only [head]; omega)
theorem fdiv (s : Fin 4) (d : Fin 32) (a : Fin 32) (b : Fin 32) (p : Bool) : Statement (.fdiv s d a b p) := of_some rfl (by have := s.isLt; have := d.isLt; have := a.isLt; have := b.isLt; have := bitNat_le p; simp only [head]; omega)
theorem fmin (s : Fin 4) (d : Fin 32) (a : Fin 32) (b : Fin 32) (p : Bool) : Statement (.fmin s d a b p) := of_some rfl (by have := s.isLt; have := d.isLt; have := a.isLt; have := b.isLt; have := bitNat_le p; simp only [head]; omega)
theorem fmax (s : Fin 4) (d : Fin 32) (a : Fin 32) (b : Fin 32) (p : Bool) : Statement (.fmax s d a b p) := of_some rfl (by have := s.isLt; have := d.isLt; have := a.isLt; have := b.isLt; have := bitNat_le p; simp only [head]; omega)
theorem fcmpEq (s : Fin 4) (d : Fin 32) (a : Fin 32) (b : Fin 32) (p : Bool) : Statement (.fcmpEq s d a b p) := of_some rfl (by have := s.isLt; have := d.isLt; have := a.isLt; have := b.isLt; have := bitNat_le p; simp only [head]; omega)
theorem fcmpLt (s : Fin 4) (d : Fin 32) (a : Fin 32) (b : Fin 32) (p : Bool) : Statement (.fcmpLt s d a b p) := of_some rfl (by have := s.isLt; have := d.isLt; have := a.isLt; have := b.isLt; have := bitNat_le p; simp only [head]; omega)
theorem fcmpLe (s : Fin 4) (d : Fin 32) (a : Fin 32) (b : Fin 32) (p : Bool) : Statement (.fcmpLe s d a b p) := of_some rfl (by have := s.isLt; have := d.isLt; have := a.isLt; have := b.isLt; have := bitNat_le p; simp only [head]; omega)
theorem fsqrt (s : Fin 4) (d : Fin 32) (a : Fin 32) (p : Bool) : Statement (.fsqrt s d a p) := of_some rfl (by have := s.isLt; have := d.isLt; have := a.isLt; have := bitNat_le p; simp only [head]; omega)
theorem fclass (s : Fin 4) (d : Fin 32) (a : Fin 32) (p : Bool) : Statement (.fclass s d a p) := of_some rfl (by have := s.isLt; have := d.isLt; have := a.isLt; have := bitNat_le p; simp only [head]; omega)
theorem fcvt (s : Fin 4) (d : Fin 32) (a : Fin 32) (t : Fmt) (p : Bool) : Statement (.fcvt s d a t p) := of_some rfl (by have := s.isLt; have := d.isLt; have := a.isLt; have := fmt_lt t; have := bitNat_le p; simp only [head]; omega)
theorem fcvti (s : Fin 4) (d : Fin 32) (a : Fin 32) (t : Fmt) (n : Bool) : Statement (.fcvti s d a t n) := of_some rfl (by have := s.isLt; have := d.isLt; have := a.isLt; have := fmt_lt t; have := bitNat_le n; simp only [head]; omega)
theorem beq (s : Fin 4) (a : Fin 32) (b : Fin 32) (i : BitVec 10) : Statement (.beq s a b i) := of_some rfl (by have := s.isLt; have := a.isLt; have := b.isLt; have := i.isLt; simp only [head]; omega)
theorem bne (s : Fin 4) (a : Fin 32) (b : Fin 32) (i : BitVec 10) : Statement (.bne s a b i) := of_some rfl (by have := s.isLt; have := a.isLt; have := b.isLt; have := i.isLt; simp only [head]; omega)
theorem blt (s : Fin 4) (a : Fin 32) (b : Fin 32) (i : BitVec 10) : Statement (.blt s a b i) := of_some rfl (by have := s.isLt; have := a.isLt; have := b.isLt; have := i.isLt; simp only [head]; omega)
theorem bge (s : Fin 4) (a : Fin 32) (b : Fin 32) (i : BitVec 10) : Statement (.bge s a b i) := of_some rfl (by have := s.isLt; have := a.isLt; have := b.isLt; have := i.isLt; simp only [head]; omega)
theorem bltn (s : Fin 4) (a : Fin 32) (b : Fin 32) (i : BitVec 10) : Statement (.bltn s a b i) := of_some rfl (by have := s.isLt; have := a.isLt; have := b.isLt; have := i.isLt; simp only [head]; omega)
theorem bgen (s : Fin 4) (a : Fin 32) (b : Fin 32) (i : BitVec 10) : Statement (.bgen s a b i) := of_some rfl (by have := s.isLt; have := a.isLt; have := b.isLt; have := i.isLt; simp only [head]; omega)
theorem j (s : Fin 4) (i : BitVec 23) : Statement (.j s i) := of_some rfl (by have := s.isLt; have := i.isLt; simp only [head]; omega)
theorem jal (s : Fin 4) (i : BitVec 23) : Statement (.jal s i) := of_some rfl (by have := s.isLt; have := i.isLt; simp only [head]; omega)
theorem jalr (s : Fin 4) (d : Fin 32) (a : Fin 32) (i : BitVec 13) : Statement (.jalr s d a i) := of_some rfl (by have := s.isLt; have := d.isLt; have := a.isLt; have := i.isLt; simp only [head]; omega)
theorem ldB (s : Fin 4) (x : Fin 32) (a : Fin 32) (i : BitVec 10) : Statement (.ldB s x a i) := of_some rfl (by have := s.isLt; have := x.isLt; have := a.isLt; have := i.isLt; simp only [head]; omega)
theorem ldH (s : Fin 4) (x : Fin 32) (a : Fin 32) (i : BitVec 10) : Statement (.ldH s x a i) := of_some rfl (by have := s.isLt; have := x.isLt; have := a.isLt; have := i.isLt; simp only [head]; omega)
theorem ldW (s : Fin 4) (x : Fin 32) (a : Fin 32) (i : BitVec 10) : Statement (.ldW s x a i) := of_some rfl (by have := s.isLt; have := x.isLt; have := a.isLt; have := i.isLt; simp only [head]; omega)
theorem ldD (s : Fin 4) (x : Fin 32) (a : Fin 32) (i : BitVec 10) : Statement (.ldD s x a i) := of_some rfl (by have := s.isLt; have := x.isLt; have := a.isLt; have := i.isLt; simp only [head]; omega)
theorem ldnB (s : Fin 4) (x : Fin 32) (a : Fin 32) (i : BitVec 10) : Statement (.ldnB s x a i) := of_some rfl (by have := s.isLt; have := x.isLt; have := a.isLt; have := i.isLt; simp only [head]; omega)
theorem ldnH (s : Fin 4) (x : Fin 32) (a : Fin 32) (i : BitVec 10) : Statement (.ldnH s x a i) := of_some rfl (by have := s.isLt; have := x.isLt; have := a.isLt; have := i.isLt; simp only [head]; omega)
theorem ldnW (s : Fin 4) (x : Fin 32) (a : Fin 32) (i : BitVec 10) : Statement (.ldnW s x a i) := of_some rfl (by have := s.isLt; have := x.isLt; have := a.isLt; have := i.isLt; simp only [head]; omega)
theorem stB (s : Fin 4) (x : Fin 32) (a : Fin 32) (i : BitVec 10) : Statement (.stB s x a i) := of_some rfl (by have := s.isLt; have := x.isLt; have := a.isLt; have := i.isLt; simp only [head]; omega)
theorem stH (s : Fin 4) (x : Fin 32) (a : Fin 32) (i : BitVec 10) : Statement (.stH s x a i) := of_some rfl (by have := s.isLt; have := x.isLt; have := a.isLt; have := i.isLt; simp only [head]; omega)
theorem stW (s : Fin 4) (x : Fin 32) (a : Fin 32) (i : BitVec 10) : Statement (.stW s x a i) := of_some rfl (by have := s.isLt; have := x.isLt; have := a.isLt; have := i.isLt; simp only [head]; omega)
theorem stD (s : Fin 4) (x : Fin 32) (a : Fin 32) (i : BitVec 10) : Statement (.stD s x a i) := of_some rfl (by have := s.isLt; have := x.isLt; have := a.isLt; have := i.isLt; simp only [head]; omega)
theorem amoadd (s : Fin 4) (d : Fin 32) (a : Fin 32) (b : Fin 32) (w : Bool) (q : Bool) (r : Bool) : Statement (.amoadd s d a b w q r) := of_some rfl (by have := s.isLt; have := d.isLt; have := a.isLt; have := b.isLt; have := bitNat_le w; have := bitNat_le q; have := bitNat_le r; simp only [head]; omega)
theorem amoand (s : Fin 4) (d : Fin 32) (a : Fin 32) (b : Fin 32) (w : Bool) (q : Bool) (r : Bool) : Statement (.amoand s d a b w q r) := of_some rfl (by have := s.isLt; have := d.isLt; have := a.isLt; have := b.isLt; have := bitNat_le w; have := bitNat_le q; have := bitNat_le r; simp only [head]; omega)
theorem amoor (s : Fin 4) (d : Fin 32) (a : Fin 32) (b : Fin 32) (w : Bool) (q : Bool) (r : Bool) : Statement (.amoor s d a b w q r) := of_some rfl (by have := s.isLt; have := d.isLt; have := a.isLt; have := b.isLt; have := bitNat_le w; have := bitNat_le q; have := bitNat_le r; simp only [head]; omega)
theorem amoxor (s : Fin 4) (d : Fin 32) (a : Fin 32) (b : Fin 32) (w : Bool) (q : Bool) (r : Bool) : Statement (.amoxor s d a b w q r) := of_some rfl (by have := s.isLt; have := d.isLt; have := a.isLt; have := b.isLt; have := bitNat_le w; have := bitNat_le q; have := bitNat_le r; simp only [head]; omega)
theorem amomin (s : Fin 4) (d : Fin 32) (a : Fin 32) (b : Fin 32) (w : Bool) (q : Bool) (r : Bool) : Statement (.amomin s d a b w q r) := of_some rfl (by have := s.isLt; have := d.isLt; have := a.isLt; have := b.isLt; have := bitNat_le w; have := bitNat_le q; have := bitNat_le r; simp only [head]; omega)
theorem amomax (s : Fin 4) (d : Fin 32) (a : Fin 32) (b : Fin 32) (w : Bool) (q : Bool) (r : Bool) : Statement (.amomax s d a b w q r) := of_some rfl (by have := s.isLt; have := d.isLt; have := a.isLt; have := b.isLt; have := bitNat_le w; have := bitNat_le q; have := bitNat_le r; simp only [head]; omega)
theorem amominn (s : Fin 4) (d : Fin 32) (a : Fin 32) (b : Fin 32) (w : Bool) (q : Bool) (r : Bool) : Statement (.amominn s d a b w q r) := of_some rfl (by have := s.isLt; have := d.isLt; have := a.isLt; have := b.isLt; have := bitNat_le w; have := bitNat_le q; have := bitNat_le r; simp only [head]; omega)
theorem amomaxn (s : Fin 4) (d : Fin 32) (a : Fin 32) (b : Fin 32) (w : Bool) (q : Bool) (r : Bool) : Statement (.amomaxn s d a b w q r) := of_some rfl (by have := s.isLt; have := d.isLt; have := a.isLt; have := b.isLt; have := bitNat_le w; have := bitNat_le q; have := bitNat_le r; simp only [head]; omega)
theorem amoswap (s : Fin 4) (d : Fin 32) (a : Fin 32) (b : Fin 32) (w : Bool) (q : Bool) (r : Bool) : Statement (.amoswap s d a b w q r) := of_some rfl (by have := s.isLt; have := d.isLt; have := a.isLt; have := b.isLt; have := bitNat_le w; have := bitNat_le q; have := bitNat_le r; simp only [head]; omega)
theorem amocas (s : Fin 4) (d : Fin 32) (a : Fin 32) (b : Fin 32) (w : Bool) (q : Bool) (r : Bool) : Statement (.amocas s d a b w q r) := of_some rfl (by have := s.isLt; have := d.isLt; have := a.isLt; have := b.isLt; have := bitNat_le w; have := bitNat_le q; have := bitNat_le r; simp only [head]; omega)
theorem fence (s : Fin 4) (k : FenceKind) (p : FenceScope) : Statement (.fence s k p) := of_some rfl (by have := s.isLt; have := kind_lt k; have := scope_lt p; simp only [head]; omega)
theorem ldaqB (s : Fin 4) (d : Fin 32) (a : Fin 32) : Statement (.ldaqB s d a) := of_some rfl (by have := s.isLt; have := d.isLt; have := a.isLt; simp only [head]; omega)
theorem ldaqH (s : Fin 4) (d : Fin 32) (a : Fin 32) : Statement (.ldaqH s d a) := of_some rfl (by have := s.isLt; have := d.isLt; have := a.isLt; simp only [head]; omega)
theorem ldaqW (s : Fin 4) (d : Fin 32) (a : Fin 32) : Statement (.ldaqW s d a) := of_some rfl (by have := s.isLt; have := d.isLt; have := a.isLt; simp only [head]; omega)
theorem ldaqD (s : Fin 4) (d : Fin 32) (a : Fin 32) : Statement (.ldaqD s d a) := of_some rfl (by have := s.isLt; have := d.isLt; have := a.isLt; simp only [head]; omega)
theorem strlB (s : Fin 4) (a : Fin 32) (b : Fin 32) : Statement (.strlB s a b) := of_some rfl (by have := s.isLt; have := a.isLt; have := b.isLt; simp only [head]; omega)
theorem strlH (s : Fin 4) (a : Fin 32) (b : Fin 32) : Statement (.strlH s a b) := of_some rfl (by have := s.isLt; have := a.isLt; have := b.isLt; simp only [head]; omega)
theorem strlW (s : Fin 4) (a : Fin 32) (b : Fin 32) : Statement (.strlW s a b) := of_some rfl (by have := s.isLt; have := a.isLt; have := b.isLt; simp only [head]; omega)
theorem strlD (s : Fin 4) (a : Fin 32) (b : Fin 32) : Statement (.strlD s a b) := of_some rfl (by have := s.isLt; have := a.isLt; have := b.isLt; simp only [head]; omega)
theorem endTask (s : Fin 4) : Statement (.endTask s) := of_some rfl (by have := s.isLt; simp only [head]; omega)
theorem stall (s : Fin 4) : Statement (.stall s) := of_some rfl (by have := s.isLt; simp only [head]; omega)
theorem slip (s : Fin 4) : Statement (.slip s) := of_some rfl (by have := s.isLt; simp only [head]; omega)
theorem yieldTurn (s : Fin 4) : Statement (.yieldTurn s) := of_some rfl (by have := s.isLt; simp only [head]; omega)
theorem svc (s : Fin 4) (i : BitVec 10) : Statement (.svc s i) := of_some rfl (by have := s.isLt; have := i.isLt; simp only [head]; omega)
theorem brk (s : Fin 4) (i : BitVec 10) : Statement (.brk s i) := of_some rfl (by have := s.isLt; have := i.isLt; simp only [head]; omega)
theorem qpush (s : Fin 4) (d : Fin 32) : Statement (.qpush s d) := of_some rfl (by have := s.isLt; have := d.isLt; simp only [head]; omega)
theorem qpushC (s : Fin 4) (d : Fin 32) (a : Fin 32) : Statement (.qpushC s d a) := of_some rfl (by have := s.isLt; have := d.isLt; have := a.isLt; simp only [head]; omega)
theorem qpop (s : Fin 4) : Statement (.qpop s) := of_some rfl (by have := s.isLt; simp only [head]; omega)
theorem qtry (s : Fin 4) (d : Fin 32) : Statement (.qtry s d) := of_some rfl (by have := s.isLt; have := d.isLt; simp only [head]; omega)
theorem join (s : Fin 4) (d : Fin 32) (a : Fin 32) : Statement (.join s d a) := of_some rfl (by have := s.isLt; have := d.isLt; have := a.isLt; simp only [head]; omega)
theorem early (s : Fin 4) : Statement (.early s) := of_some rfl (by have := s.isLt; simp only [head]; omega)
theorem pwait (s : Fin 4) (d : Fin 32) : Statement (.pwait s d) := of_some rfl (by have := s.isLt; have := d.isLt; simp only [head]; omega)
theorem lnch (s : Fin 4) (d : Fin 32) (a : Fin 32) (b : Fin 32) : Statement (.lnch s d a b) := of_some rfl (by have := s.isLt; have := d.isLt; have := a.isLt; have := b.isLt; simp only [head]; omega)
theorem hcanL (s : Fin 4) (d : Fin 32) (a : Fin 32) : Statement (.hcanL s d a) := of_some rfl (by have := s.isLt; have := d.isLt; have := a.isLt; simp only [head]; omega)
theorem hcanG (s : Fin 4) (d : Fin 32) (a : Fin 32) : Statement (.hcanG s d a) := of_some rfl (by have := s.isLt; have := d.isLt; have := a.isLt; simp only [head]; omega)
theorem hcanP (s : Fin 4) (d : Fin 32) (a : Fin 32) : Statement (.hcanP s d a) := of_some rfl (by have := s.isLt; have := d.isLt; have := a.isLt; simp only [head]; omega)
theorem hcanJ (s : Fin 4) (d : Fin 32) (a : Fin 32) : Statement (.hcanJ s d a) := of_some rfl (by have := s.isLt; have := d.isLt; have := a.isLt; simp only [head]; omega)
theorem hcntL (s : Fin 4) (d : Fin 32) (a : Fin 32) : Statement (.hcntL s d a) := of_some rfl (by have := s.isLt; have := d.isLt; have := a.isLt; simp only [head]; omega)
theorem hcntG (s : Fin 4) (d : Fin 32) (a : Fin 32) : Statement (.hcntG s d a) := of_some rfl (by have := s.isLt; have := d.isLt; have := a.isLt; simp only [head]; omega)
theorem hcntP (s : Fin 4) (d : Fin 32) (a : Fin 32) : Statement (.hcntP s d a) := of_some rfl (by have := s.isLt; have := d.isLt; have := a.isLt; simp only [head]; omega)
theorem hcntJ (s : Fin 4) (d : Fin 32) (a : Fin 32) : Statement (.hcntJ s d a) := of_some rfl (by have := s.isLt; have := d.isLt; have := a.isLt; simp only [head]; omega)
theorem twait (s : Fin 4) (d : Fin 32) (a : Fin 32) (b : Fin 32) : Statement (.twait s d a b) := of_some rfl (by have := s.isLt; have := d.isLt; have := a.isLt; have := b.isLt; simp only [head]; omega)
theorem twaitAny (s : Fin 4) (d : Fin 32) (a : Fin 32) (b : Fin 32) : Statement (.twaitAny s d a b) := of_some rfl (by have := s.isLt; have := d.isLt; have := a.isLt; have := b.isLt; simp only [head]; omega)
theorem twaitAll (s : Fin 4) (d : Fin 32) (a : Fin 32) (b : Fin 32) : Statement (.twaitAll s d a b) := of_some rfl (by have := s.isLt; have := d.isLt; have := a.isLt; have := b.isLt; simp only [head]; omega)
theorem tffr (s : Fin 4) (d : Fin 32) (a : Fin 32) (b : Fin 32) : Statement (.tffr s d a b) := of_some rfl (by have := s.isLt; have := d.isLt; have := a.isLt; have := b.isLt; simp only [head]; omega)
theorem tcan (s : Fin 4) (d : Fin 32) (a : Fin 32) : Statement (.tcan s d a) := of_some rfl (by have := s.isLt; have := d.isLt; have := a.isLt; simp only [head]; omega)
theorem tdet (s : Fin 4) (d : Fin 32) (a : Fin 32) : Statement (.tdet s d a) := of_some rfl (by have := s.isLt; have := d.isLt; have := a.isLt; simp only [head]; omega)
theorem tadopt (s : Fin 4) (d : Fin 32) (a : Fin 32) : Statement (.tadopt s d a) := of_some rfl (by have := s.isLt; have := d.isLt; have := a.isLt; simp only [head]; omega)
theorem tstat (s : Fin 4) (d : Fin 32) (a : Fin 32) : Statement (.tstat s d a) := of_some rfl (by have := s.isLt; have := d.isLt; have := a.isLt; simp only [head]; omega)
theorem wch (s : Fin 4) (d : Fin 32) (a : Fin 32) (b : Fin 32) : Statement (.wch s d a b) := of_some rfl (by have := s.isLt; have := d.isLt; have := a.isLt; have := b.isLt; simp only [head]; omega)
theorem tch (s : Fin 4) (d : Fin 32) (a : Fin 32) : Statement (.tch s d a) := of_some rfl (by have := s.isLt; have := d.isLt; have := a.isLt; simp only [head]; omega)
theorem crr (s : Fin 4) (d : Fin 32) (r : Fin 64) : Statement (.crr s d r) := of_some rfl (by have := s.isLt; have := d.isLt; have := r.isLt; simp only [head]; omega)
theorem crw (s : Fin 4) (r : Fin 64) (a : Fin 32) : Statement (.crw s r a) := of_some rfl (by have := s.isLt; have := r.isLt; have := a.isLt; simp only [head]; omega)
theorem crwi (s : Fin 4) (r : Fin 64) (i : BitVec 10) : Statement (.crwi s r i) := of_some rfl (by have := s.isLt; have := r.isLt; have := i.isLt; simp only [head]; omega)
theorem ldpB (s : Fin 4) (d : Fin 32) (w : Fin 8) (a : Fin 32) : Statement (.ldpB s d w a) := of_some rfl (by have := s.isLt; have := d.isLt; have := w.isLt; have := a.isLt; simp only [head]; omega)
theorem ldpH (s : Fin 4) (d : Fin 32) (w : Fin 8) (a : Fin 32) : Statement (.ldpH s d w a) := of_some rfl (by have := s.isLt; have := d.isLt; have := w.isLt; have := a.isLt; simp only [head]; omega)
theorem ldpW (s : Fin 4) (d : Fin 32) (w : Fin 8) (a : Fin 32) : Statement (.ldpW s d w a) := of_some rfl (by have := s.isLt; have := d.isLt; have := w.isLt; have := a.isLt; simp only [head]; omega)
theorem ldpD (s : Fin 4) (d : Fin 32) (w : Fin 8) (a : Fin 32) : Statement (.ldpD s d w a) := of_some rfl (by have := s.isLt; have := d.isLt; have := w.isLt; have := a.isLt; simp only [head]; omega)
theorem ldpnB (s : Fin 4) (d : Fin 32) (w : Fin 8) (a : Fin 32) : Statement (.ldpnB s d w a) := of_some rfl (by have := s.isLt; have := d.isLt; have := w.isLt; have := a.isLt; simp only [head]; omega)
theorem ldpnH (s : Fin 4) (d : Fin 32) (w : Fin 8) (a : Fin 32) : Statement (.ldpnH s d w a) := of_some rfl (by have := s.isLt; have := d.isLt; have := w.isLt; have := a.isLt; simp only [head]; omega)
theorem ldpnW (s : Fin 4) (d : Fin 32) (w : Fin 8) (a : Fin 32) : Statement (.ldpnW s d w a) := of_some rfl (by have := s.isLt; have := d.isLt; have := w.isLt; have := a.isLt; simp only [head]; omega)
theorem vadd (c : Bool) (s : Fin 4) (d : Fin 32) (a : Fin 32) (b : Fin 32) : Statement (.vadd c s d a b) := of_some rfl (by have := bitNat_le c; have := s.isLt; have := d.isLt; have := a.isLt; have := b.isLt; simp only [head]; omega)
theorem vsub (c : Bool) (s : Fin 4) (d : Fin 32) (a : Fin 32) (b : Fin 32) : Statement (.vsub c s d a b) := of_some rfl (by have := bitNat_le c; have := s.isLt; have := d.isLt; have := a.isLt; have := b.isLt; simp only [head]; omega)
theorem vmul (c : Bool) (s : Fin 4) (d : Fin 32) (a : Fin 32) (b : Fin 32) : Statement (.vmul c s d a b) := of_some rfl (by have := bitNat_le c; have := s.isLt; have := d.isLt; have := a.isLt; have := b.isLt; simp only [head]; omega)
theorem vmulh (c : Bool) (s : Fin 4) (d : Fin 32) (a : Fin 32) (b : Fin 32) : Statement (.vmulh c s d a b) := of_some rfl (by have := bitNat_le c; have := s.isLt; have := d.isLt; have := a.isLt; have := b.isLt; simp only [head]; omega)
theorem vmin (c : Bool) (s : Fin 4) (d : Fin 32) (a : Fin 32) (b : Fin 32) : Statement (.vmin c s d a b) := of_some rfl (by have := bitNat_le c; have := s.isLt; have := d.isLt; have := a.isLt; have := b.isLt; simp only [head]; omega)
theorem vmax (c : Bool) (s : Fin 4) (d : Fin 32) (a : Fin 32) (b : Fin 32) : Statement (.vmax c s d a b) := of_some rfl (by have := bitNat_le c; have := s.isLt; have := d.isLt; have := a.isLt; have := b.isLt; simp only [head]; omega)
theorem vand (c : Bool) (s : Fin 4) (d : Fin 32) (a : Fin 32) (b : Fin 32) : Statement (.vand c s d a b) := of_some rfl (by have := bitNat_le c; have := s.isLt; have := d.isLt; have := a.isLt; have := b.isLt; simp only [head]; omega)
theorem vor (c : Bool) (s : Fin 4) (d : Fin 32) (a : Fin 32) (b : Fin 32) : Statement (.vor c s d a b) := of_some rfl (by have := bitNat_le c; have := s.isLt; have := d.isLt; have := a.isLt; have := b.isLt; simp only [head]; omega)
theorem vxor (c : Bool) (s : Fin 4) (d : Fin 32) (a : Fin 32) (b : Fin 32) : Statement (.vxor c s d a b) := of_some rfl (by have := bitNat_le c; have := s.isLt; have := d.isLt; have := a.isLt; have := b.isLt; simp only [head]; omega)
theorem vandn (c : Bool) (s : Fin 4) (d : Fin 32) (a : Fin 32) (b : Fin 32) : Statement (.vandn c s d a b) := of_some rfl (by have := bitNat_le c; have := s.isLt; have := d.isLt; have := a.isLt; have := b.isLt; simp only [head]; omega)
theorem vsll (c : Bool) (s : Fin 4) (d : Fin 32) (a : Fin 32) (b : Fin 32) : Statement (.vsll c s d a b) := of_some rfl (by have := bitNat_le c; have := s.isLt; have := d.isLt; have := a.isLt; have := b.isLt; simp only [head]; omega)
theorem vsrl (c : Bool) (s : Fin 4) (d : Fin 32) (a : Fin 32) (b : Fin 32) : Statement (.vsrl c s d a b) := of_some rfl (by have := bitNat_le c; have := s.isLt; have := d.isLt; have := a.isLt; have := b.isLt; simp only [head]; omega)
theorem vsra (c : Bool) (s : Fin 4) (d : Fin 32) (a : Fin 32) (b : Fin 32) : Statement (.vsra c s d a b) := of_some rfl (by have := bitNat_le c; have := s.isLt; have := d.isLt; have := a.isLt; have := b.isLt; simp only [head]; omega)
theorem vadds (c : Bool) (s : Fin 4) (d : Fin 32) (a : Fin 32) (b : Fin 32) : Statement (.vadds c s d a b) := of_some rfl (by have := bitNat_le c; have := s.isLt; have := d.isLt; have := a.isLt; have := b.isLt; simp only [head]; omega)
theorem vsubs (c : Bool) (s : Fin 4) (d : Fin 32) (a : Fin 32) (b : Fin 32) : Statement (.vsubs c s d a b) := of_some rfl (by have := bitNat_le c; have := s.isLt; have := d.isLt; have := a.isLt; have := b.isLt; simp only [head]; omega)
theorem vavg (c : Bool) (s : Fin 4) (d : Fin 32) (a : Fin 32) (b : Fin 32) : Statement (.vavg c s d a b) := of_some rfl (by have := bitNat_le c; have := s.isLt; have := d.isLt; have := a.isLt; have := b.isLt; simp only [head]; omega)
theorem vabs (c : Bool) (s : Fin 4) (d : Fin 32) (a : Fin 32) : Statement (.vabs c s d a) := of_some rfl (by have := bitNat_le c; have := s.isLt; have := d.isLt; have := a.isLt; simp only [head]; omega)
theorem vclz (c : Bool) (s : Fin 4) (d : Fin 32) (a : Fin 32) : Statement (.vclz c s d a) := of_some rfl (by have := bitNat_le c; have := s.isLt; have := d.isLt; have := a.isLt; simp only [head]; omega)
theorem vffs (c : Bool) (s : Fin 4) (d : Fin 32) (a : Fin 32) : Statement (.vffs c s d a) := of_some rfl (by have := bitNat_le c; have := s.isLt; have := d.isLt; have := a.isLt; simp only [head]; omega)
theorem vpopc (c : Bool) (s : Fin 4) (d : Fin 32) (a : Fin 32) : Statement (.vpopc c s d a) := of_some rfl (by have := bitNat_le c; have := s.isLt; have := d.isLt; have := a.isLt; simp only [head]; omega)
theorem vaddVs (c : Bool) (s : Fin 4) (d : Fin 32) (a : Fin 32) (x : Fin 32) : Statement (.vaddVs c s d a x) := of_some rfl (by have := bitNat_le c; have := s.isLt; have := d.isLt; have := a.isLt; have := x.isLt; simp only [head]; omega)
theorem vsubVs (c : Bool) (s : Fin 4) (d : Fin 32) (a : Fin 32) (x : Fin 32) : Statement (.vsubVs c s d a x) := of_some rfl (by have := bitNat_le c; have := s.isLt; have := d.isLt; have := a.isLt; have := x.isLt; simp only [head]; omega)
theorem vmulVs (c : Bool) (s : Fin 4) (d : Fin 32) (a : Fin 32) (x : Fin 32) : Statement (.vmulVs c s d a x) := of_some rfl (by have := bitNat_le c; have := s.isLt; have := d.isLt; have := a.isLt; have := x.isLt; simp only [head]; omega)
theorem vmulhVs (c : Bool) (s : Fin 4) (d : Fin 32) (a : Fin 32) (x : Fin 32) : Statement (.vmulhVs c s d a x) := of_some rfl (by have := bitNat_le c; have := s.isLt; have := d.isLt; have := a.isLt; have := x.isLt; simp only [head]; omega)
theorem vminVs (c : Bool) (s : Fin 4) (d : Fin 32) (a : Fin 32) (x : Fin 32) : Statement (.vminVs c s d a x) := of_some rfl (by have := bitNat_le c; have := s.isLt; have := d.isLt; have := a.isLt; have := x.isLt; simp only [head]; omega)
theorem vmaxVs (c : Bool) (s : Fin 4) (d : Fin 32) (a : Fin 32) (x : Fin 32) : Statement (.vmaxVs c s d a x) := of_some rfl (by have := bitNat_le c; have := s.isLt; have := d.isLt; have := a.isLt; have := x.isLt; simp only [head]; omega)
theorem vandVs (c : Bool) (s : Fin 4) (d : Fin 32) (a : Fin 32) (x : Fin 32) : Statement (.vandVs c s d a x) := of_some rfl (by have := bitNat_le c; have := s.isLt; have := d.isLt; have := a.isLt; have := x.isLt; simp only [head]; omega)
theorem vorVs (c : Bool) (s : Fin 4) (d : Fin 32) (a : Fin 32) (x : Fin 32) : Statement (.vorVs c s d a x) := of_some rfl (by have := bitNat_le c; have := s.isLt; have := d.isLt; have := a.isLt; have := x.isLt; simp only [head]; omega)
theorem vxorVs (c : Bool) (s : Fin 4) (d : Fin 32) (a : Fin 32) (x : Fin 32) : Statement (.vxorVs c s d a x) := of_some rfl (by have := bitNat_le c; have := s.isLt; have := d.isLt; have := a.isLt; have := x.isLt; simp only [head]; omega)
theorem vandnVs (c : Bool) (s : Fin 4) (d : Fin 32) (a : Fin 32) (x : Fin 32) : Statement (.vandnVs c s d a x) := of_some rfl (by have := bitNat_le c; have := s.isLt; have := d.isLt; have := a.isLt; have := x.isLt; simp only [head]; omega)
theorem vsllVs (c : Bool) (s : Fin 4) (d : Fin 32) (a : Fin 32) (x : Fin 32) : Statement (.vsllVs c s d a x) := of_some rfl (by have := bitNat_le c; have := s.isLt; have := d.isLt; have := a.isLt; have := x.isLt; simp only [head]; omega)
theorem vsrlVs (c : Bool) (s : Fin 4) (d : Fin 32) (a : Fin 32) (x : Fin 32) : Statement (.vsrlVs c s d a x) := of_some rfl (by have := bitNat_le c; have := s.isLt; have := d.isLt; have := a.isLt; have := x.isLt; simp only [head]; omega)
theorem vsraVs (c : Bool) (s : Fin 4) (d : Fin 32) (a : Fin 32) (x : Fin 32) : Statement (.vsraVs c s d a x) := of_some rfl (by have := bitNat_le c; have := s.isLt; have := d.isLt; have := a.isLt; have := x.isLt; simp only [head]; omega)
theorem vaddsVs (c : Bool) (s : Fin 4) (d : Fin 32) (a : Fin 32) (x : Fin 32) : Statement (.vaddsVs c s d a x) := of_some rfl (by have := bitNat_le c; have := s.isLt; have := d.isLt; have := a.isLt; have := x.isLt; simp only [head]; omega)
theorem vsubsVs (c : Bool) (s : Fin 4) (d : Fin 32) (a : Fin 32) (x : Fin 32) : Statement (.vsubsVs c s d a x) := of_some rfl (by have := bitNat_le c; have := s.isLt; have := d.isLt; have := a.isLt; have := x.isLt; simp only [head]; omega)
theorem vavgVs (c : Bool) (s : Fin 4) (d : Fin 32) (a : Fin 32) (x : Fin 32) : Statement (.vavgVs c s d a x) := of_some rfl (by have := bitNat_le c; have := s.isLt; have := d.isLt; have := a.isLt; have := x.isLt; simp only [head]; omega)
theorem vfadd (c : Bool) (s : Fin 4) (d : Fin 32) (a : Fin 32) (b : Fin 32) : Statement (.vfadd c s d a b) := of_some rfl (by have := bitNat_le c; have := s.isLt; have := d.isLt; have := a.isLt; have := b.isLt; simp only [head]; omega)
theorem vfsub (c : Bool) (s : Fin 4) (d : Fin 32) (a : Fin 32) (b : Fin 32) : Statement (.vfsub c s d a b) := of_some rfl (by have := bitNat_le c; have := s.isLt; have := d.isLt; have := a.isLt; have := b.isLt; simp only [head]; omega)
theorem vfmul (c : Bool) (s : Fin 4) (d : Fin 32) (a : Fin 32) (b : Fin 32) : Statement (.vfmul c s d a b) := of_some rfl (by have := bitNat_le c; have := s.isLt; have := d.isLt; have := a.isLt; have := b.isLt; simp only [head]; omega)
theorem vfmac (c : Bool) (s : Fin 4) (d : Fin 32) (a : Fin 32) (b : Fin 32) : Statement (.vfmac c s d a b) := of_some rfl (by have := bitNat_le c; have := s.isLt; have := d.isLt; have := a.isLt; have := b.isLt; simp only [head]; omega)
theorem vfnmac (c : Bool) (s : Fin 4) (d : Fin 32) (a : Fin 32) (b : Fin 32) : Statement (.vfnmac c s d a b) := of_some rfl (by have := bitNat_le c; have := s.isLt; have := d.isLt; have := a.isLt; have := b.isLt; simp only [head]; omega)
theorem vfmin (c : Bool) (s : Fin 4) (d : Fin 32) (a : Fin 32) (b : Fin 32) : Statement (.vfmin c s d a b) := of_some rfl (by have := bitNat_le c; have := s.isLt; have := d.isLt; have := a.isLt; have := b.isLt; simp only [head]; omega)
theorem vfmax (c : Bool) (s : Fin 4) (d : Fin 32) (a : Fin 32) (b : Fin 32) : Statement (.vfmax c s d a b) := of_some rfl (by have := bitNat_le c; have := s.isLt; have := d.isLt; have := a.isLt; have := b.isLt; simp only [head]; omega)
theorem vfdiv (c : Bool) (s : Fin 4) (d : Fin 32) (a : Fin 32) (b : Fin 32) : Statement (.vfdiv c s d a b) := of_some rfl (by have := bitNat_le c; have := s.isLt; have := d.isLt; have := a.isLt; have := b.isLt; simp only [head]; omega)
theorem vfabs (c : Bool) (s : Fin 4) (d : Fin 32) (a : Fin 32) : Statement (.vfabs c s d a) := of_some rfl (by have := bitNat_le c; have := s.isLt; have := d.isLt; have := a.isLt; simp only [head]; omega)
theorem vfneg (c : Bool) (s : Fin 4) (d : Fin 32) (a : Fin 32) : Statement (.vfneg c s d a) := of_some rfl (by have := bitNat_le c; have := s.isLt; have := d.isLt; have := a.isLt; simp only [head]; omega)
theorem vfsqrt (c : Bool) (s : Fin 4) (d : Fin 32) (a : Fin 32) : Statement (.vfsqrt c s d a) := of_some rfl (by have := bitNat_le c; have := s.isLt; have := d.isLt; have := a.isLt; simp only [head]; omega)
theorem vfrec (c : Bool) (s : Fin 4) (d : Fin 32) (a : Fin 32) : Statement (.vfrec c s d a) := of_some rfl (by have := bitNat_le c; have := s.isLt; have := d.isLt; have := a.isLt; simp only [head]; omega)
theorem vfexp2 (c : Bool) (s : Fin 4) (d : Fin 32) (a : Fin 32) : Statement (.vfexp2 c s d a) := of_some rfl (by have := bitNat_le c; have := s.isLt; have := d.isLt; have := a.isLt; simp only [head]; omega)
theorem vflog2 (c : Bool) (s : Fin 4) (d : Fin 32) (a : Fin 32) : Statement (.vflog2 c s d a) := of_some rfl (by have := bitNat_le c; have := s.isLt; have := d.isLt; have := a.isLt; simp only [head]; omega)
theorem vfclass (c : Bool) (s : Fin 4) (d : Fin 32) (a : Fin 32) : Statement (.vfclass c s d a) := of_some rfl (by have := bitNat_le c; have := s.isLt; have := d.isLt; have := a.isLt; simp only [head]; omega)
theorem vfaddVs (c : Bool) (s : Fin 4) (d : Fin 32) (a : Fin 32) (x : Fin 32) : Statement (.vfaddVs c s d a x) := of_some rfl (by have := bitNat_le c; have := s.isLt; have := d.isLt; have := a.isLt; have := x.isLt; simp only [head]; omega)
theorem vfsubVs (c : Bool) (s : Fin 4) (d : Fin 32) (a : Fin 32) (x : Fin 32) : Statement (.vfsubVs c s d a x) := of_some rfl (by have := bitNat_le c; have := s.isLt; have := d.isLt; have := a.isLt; have := x.isLt; simp only [head]; omega)
theorem vfmulVs (c : Bool) (s : Fin 4) (d : Fin 32) (a : Fin 32) (x : Fin 32) : Statement (.vfmulVs c s d a x) := of_some rfl (by have := bitNat_le c; have := s.isLt; have := d.isLt; have := a.isLt; have := x.isLt; simp only [head]; omega)
theorem vfmacVs (c : Bool) (s : Fin 4) (d : Fin 32) (a : Fin 32) (x : Fin 32) : Statement (.vfmacVs c s d a x) := of_some rfl (by have := bitNat_le c; have := s.isLt; have := d.isLt; have := a.isLt; have := x.isLt; simp only [head]; omega)
theorem vfnmacVs (c : Bool) (s : Fin 4) (d : Fin 32) (a : Fin 32) (x : Fin 32) : Statement (.vfnmacVs c s d a x) := of_some rfl (by have := bitNat_le c; have := s.isLt; have := d.isLt; have := a.isLt; have := x.isLt; simp only [head]; omega)
theorem vfminVs (c : Bool) (s : Fin 4) (d : Fin 32) (a : Fin 32) (x : Fin 32) : Statement (.vfminVs c s d a x) := of_some rfl (by have := bitNat_le c; have := s.isLt; have := d.isLt; have := a.isLt; have := x.isLt; simp only [head]; omega)
theorem vfmaxVs (c : Bool) (s : Fin 4) (d : Fin 32) (a : Fin 32) (x : Fin 32) : Statement (.vfmaxVs c s d a x) := of_some rfl (by have := bitNat_le c; have := s.isLt; have := d.isLt; have := a.isLt; have := x.isLt; simp only [head]; omega)
theorem vfdivVs (c : Bool) (s : Fin 4) (d : Fin 32) (a : Fin 32) (x : Fin 32) : Statement (.vfdivVs c s d a x) := of_some rfl (by have := bitNat_le c; have := s.isLt; have := d.isLt; have := a.isLt; have := x.isLt; simp only [head]; omega)
theorem vcmp (c : Bool) (s : Fin 4) (o : Cond) (m : Fin 8) (a : Fin 32) (b : Fin 32) : Statement (.vcmp c s o m a b) := of_some rfl (by have := bitNat_le c; have := s.isLt; have := cond_lt o; have := m.isLt; have := a.isLt; have := b.isLt; simp only [head]; omega)
theorem vfcmp (c : Bool) (s : Fin 4) (o : Cond) (m : Fin 8) (a : Fin 32) (b : Fin 32) : Statement (.vfcmp c s o m a b) := of_some rfl (by have := bitNat_le c; have := s.isLt; have := cond_lt o; have := m.isLt; have := a.isLt; have := b.isLt; simp only [head]; omega)
theorem vslup (c : Bool) (s : Fin 4) (d : Fin 32) (a : Fin 32) (x : Fin 32) : Statement (.vslup c s d a x) := of_some rfl (by have := bitNat_le c; have := s.isLt; have := d.isLt; have := a.isLt; have := x.isLt; simp only [head]; omega)
theorem vsldn (c : Bool) (s : Fin 4) (d : Fin 32) (a : Fin 32) (x : Fin 32) : Statement (.vsldn c s d a x) := of_some rfl (by have := bitNat_le c; have := s.isLt; have := d.isLt; have := a.isLt; have := x.isLt; simp only [head]; omega)
theorem vdup (c : Bool) (s : Fin 4) (d : Fin 32) (a : Fin 32) (x : Fin 32) : Statement (.vdup c s d a x) := of_some rfl (by have := bitNat_le c; have := s.isLt; have := d.isLt; have := a.isLt; have := x.isLt; simp only [head]; omega)
theorem vcomp (c : Bool) (s : Fin 4) (d : Fin 32) (a : Fin 32) : Statement (.vcomp c s d a) := of_some rfl (by have := bitNat_le c; have := s.isLt; have := d.isLt; have := a.isLt; simp only [head]; omega)
theorem vexp (c : Bool) (s : Fin 4) (d : Fin 32) (a : Fin 32) : Statement (.vexp c s d a) := of_some rfl (by have := bitNat_le c; have := s.isLt; have := d.isLt; have := a.isLt; simp only [head]; omega)
theorem vtrn (c : Bool) (s : Fin 4) (d : Fin 32) (a : Fin 32) (p : Pair) : Statement (.vtrn c s d a p) := of_some rfl (by have := bitNat_le c; have := s.isLt; have := d.isLt; have := a.isLt; have := pair_lt p; simp only [head]; omega)
theorem viota (c : Bool) (s : Fin 4) (d : Fin 32) : Statement (.viota c s d) := of_some rfl (by have := bitNat_le c; have := s.isLt; have := d.isLt; simp only [head]; omega)
theorem vsel (c : Bool) (s : Fin 4) (d : Fin 32) (a : Fin 32) (b : Fin 32) : Statement (.vsel c s d a b) := of_some rfl (by have := bitNat_le c; have := s.isLt; have := d.isLt; have := a.isLt; have := b.isLt; simp only [head]; omega)
theorem vtbl (c : Bool) (s : Fin 4) (d : Fin 32) (a : Fin 32) (n : Fin 8) (h : Bool) (f : BitVec 8) : Statement (.vtbl c s d a n h f) := of_some rfl (by have := bitNat_le c; have := s.isLt; have := d.isLt; have := a.isLt; have := n.isLt; have := bitNat_le h; have := f.isLt; simp only [head]; omega)
theorem vrsum (c : Bool) (s : Fin 4) (d : Fin 32) (a : Fin 32) : Statement (.vrsum c s d a) := of_some rfl (by have := bitNat_le c; have := s.isLt; have := d.isLt; have := a.isLt; simp only [head]; omega)
theorem vrmax (c : Bool) (s : Fin 4) (d : Fin 32) (a : Fin 32) : Statement (.vrmax c s d a) := of_some rfl (by have := bitNat_le c; have := s.isLt; have := d.isLt; have := a.isLt; simp only [head]; omega)
theorem vrmin (c : Bool) (s : Fin 4) (d : Fin 32) (a : Fin 32) : Statement (.vrmin c s d a) := of_some rfl (by have := bitNat_le c; have := s.isLt; have := d.isLt; have := a.isLt; simp only [head]; omega)
theorem vrand (c : Bool) (s : Fin 4) (d : Fin 32) (a : Fin 32) : Statement (.vrand c s d a) := of_some rfl (by have := bitNat_le c; have := s.isLt; have := d.isLt; have := a.isLt; simp only [head]; omega)
theorem vror (c : Bool) (s : Fin 4) (d : Fin 32) (a : Fin 32) : Statement (.vror c s d a) := of_some rfl (by have := bitNat_le c; have := s.isLt; have := d.isLt; have := a.isLt; simp only [head]; omega)
theorem vrxor (c : Bool) (s : Fin 4) (d : Fin 32) (a : Fin 32) : Statement (.vrxor c s d a) := of_some rfl (by have := bitNat_le c; have := s.isLt; have := d.isLt; have := a.isLt; simp only [head]; omega)
theorem vscan (c : Bool) (s : Fin 4) (d : Fin 32) (a : Fin 32) : Statement (.vscan c s d a) := of_some rfl (by have := bitNat_le c; have := s.isLt; have := d.isLt; have := a.isLt; simp only [head]; omega)
theorem vcvt (c : Bool) (s : Fin 4) (d : Fin 32) (a : Fin 32) (t : Fmt) : Statement (.vcvt c s d a t) := of_some rfl (by have := bitNat_le c; have := s.isLt; have := d.isLt; have := a.isLt; have := fmt_lt t; simp only [head]; omega)
theorem amul (c : Bool) (s : Fin 4) (d : Fin 32) (a : Fin 32) (b : Fin 32) : Statement (.amul c s d a b) := of_some rfl (by have := bitNat_le c; have := s.isLt; have := d.isLt; have := a.isLt; have := b.isLt; simp only [head]; omega)
theorem amac (c : Bool) (s : Fin 4) (d : Fin 32) (a : Fin 32) (b : Fin 32) : Statement (.amac c s d a b) := of_some rfl (by have := bitNat_le c; have := s.isLt; have := d.isLt; have := a.isLt; have := b.isLt; simp only [head]; omega)
theorem aconj (c : Bool) (s : Fin 4) (d : Fin 32) (a : Fin 32) : Statement (.aconj c s d a) := of_some rfl (by have := bitNat_le c; have := s.isLt; have := d.isLt; have := a.isLt; simp only [head]; omega)
theorem anorm (c : Bool) (s : Fin 4) (d : Fin 32) (a : Fin 32) : Statement (.anorm c s d a) := of_some rfl (by have := bitNat_le c; have := s.isLt; have := d.isLt; have := a.isLt; simp only [head]; omega)
theorem ald (c : Bool) (s : Fin 4) (j : Fin 8) (a : Fin 32) : Statement (.ald c s j a) := of_some rfl (by have := bitNat_le c; have := s.isLt; have := j.isLt; have := a.isLt; simp only [head]; omega)
theorem scac (c : Bool) (s : Fin 4) (d : Fin 32) (a : Fin 32) (k : Fin 4) : Statement (.scac c s d a k) := of_some rfl (by have := bitNat_le c; have := s.isLt; have := d.isLt; have := a.isLt; have := k.isLt; simp only [head]; omega)
theorem omovF (c : Bool) (s : Fin 4) (d : Fin 32) (a : Fin 32) (dx : Off) (dy : Off) (dz : Off) : Statement (.omovF c s d a dx dy dz) := of_some rfl (by have := bitNat_le c; have := s.isLt; have := d.isLt; have := a.isLt; have := off_lt dx; have := off_lt dy; have := off_lt dz; simp only [head]; omega)
theorem oaddF (c : Bool) (s : Fin 4) (d : Fin 32) (a : Fin 32) (dx : Off) (dy : Off) (dz : Off) (b : Fin 32) : Statement (.oaddF c s d a dx dy dz b) := of_some rfl (by have := bitNat_le c; have := s.isLt; have := d.isLt; have := a.isLt; have := off_lt dx; have := off_lt dy; have := off_lt dz; have := b.isLt; simp only [head]; omega)
theorem osubF (c : Bool) (s : Fin 4) (d : Fin 32) (a : Fin 32) (dx : Off) (dy : Off) (dz : Off) (b : Fin 32) : Statement (.osubF c s d a dx dy dz b) := of_some rfl (by have := bitNat_le c; have := s.isLt; have := d.isLt; have := a.isLt; have := off_lt dx; have := off_lt dy; have := off_lt dz; have := b.isLt; simp only [head]; omega)
theorem omacF (c : Bool) (s : Fin 4) (d : Fin 32) (a : Fin 32) (dx : Off) (dy : Off) (dz : Off) (b : Fin 32) : Statement (.omacF c s d a dx dy dz b) := of_some rfl (by have := bitNat_le c; have := s.isLt; have := d.isLt; have := a.isLt; have := off_lt dx; have := off_lt dy; have := off_lt dz; have := b.isLt; simp only [head]; omega)
theorem omov (c : Bool) (s : Fin 4) (d : Fin 32) (a : Fin 32) (dx : Off) (dy : Off) (dz : Off) : Statement (.omov c s d a dx dy dz) := of_some rfl (by have := bitNat_le c; have := s.isLt; have := d.isLt; have := a.isLt; have := off_lt dx; have := off_lt dy; have := off_lt dz; simp only [head]; omega)
theorem oadd (c : Bool) (s : Fin 4) (d : Fin 32) (a : Fin 32) (dx : Off) (dy : Off) (dz : Off) (b : Fin 32) : Statement (.oadd c s d a dx dy dz b) := of_some rfl (by have := bitNat_le c; have := s.isLt; have := d.isLt; have := a.isLt; have := off_lt dx; have := off_lt dy; have := off_lt dz; have := b.isLt; simp only [head]; omega)
theorem osub (c : Bool) (s : Fin 4) (d : Fin 32) (a : Fin 32) (dx : Off) (dy : Off) (dz : Off) (b : Fin 32) : Statement (.osub c s d a dx dy dz b) := of_some rfl (by have := bitNat_le c; have := s.isLt; have := d.isLt; have := a.isLt; have := off_lt dx; have := off_lt dy; have := off_lt dz; have := b.isLt; simp only [head]; omega)
theorem omac (c : Bool) (s : Fin 4) (d : Fin 32) (a : Fin 32) (dx : Off) (dy : Off) (dz : Off) (b : Fin 32) : Statement (.omac c s d a dx dy dz b) := of_some rfl (by have := bitNat_le c; have := s.isLt; have := d.isLt; have := a.isLt; have := off_lt dx; have := off_lt dy; have := off_lt dz; have := b.isLt; simp only [head]; omega)
theorem vld (c : Bool) (s : Fin 4) (b : Fin 32) (a : Fin 32) (i : Fin 32) : Statement (.vld c s b a i) := of_some rfl (by have := bitNat_le c; have := s.isLt; have := b.isLt; have := a.isLt; have := i.isLt; simp only [head]; omega)
theorem vst (c : Bool) (s : Fin 4) (b : Fin 32) (a : Fin 32) (i : Fin 32) : Statement (.vst c s b a i) := of_some rfl (by have := bitNat_le c; have := s.isLt; have := b.isLt; have := a.isLt; have := i.isLt; simp only [head]; omega)
theorem vldl (c : Bool) (s : Fin 4) (b : Fin 32) (a : Fin 32) (i : Fin 32) : Statement (.vldl c s b a i) := of_some rfl (by have := bitNat_le c; have := s.isLt; have := b.isLt; have := a.isLt; have := i.isLt; simp only [head]; omega)
theorem vstl (c : Bool) (s : Fin 4) (b : Fin 32) (a : Fin 32) (i : Fin 32) : Statement (.vstl c s b a i) := of_some rfl (by have := bitNat_le c; have := s.isLt; have := b.isLt; have := a.isLt; have := i.isLt; simp only [head]; omega)
theorem vldx (c : Bool) (s : Fin 4) (b : Fin 32) (a : Fin 32) (i : Fin 32) : Statement (.vldx c s b a i) := of_some rfl (by have := bitNat_le c; have := s.isLt; have := b.isLt; have := a.isLt; have := i.isLt; simp only [head]; omega)
theorem vstx (c : Bool) (s : Fin 4) (b : Fin 32) (a : Fin 32) (i : Fin 32) : Statement (.vstx c s b a i) := of_some rfl (by have := bitNat_le c; have := s.isLt; have := b.isLt; have := a.isLt; have := i.isLt; simp only [head]; omega)
theorem vldi (c : Bool) (s : Fin 4) (b : Fin 32) (a : Fin 32) (i : Fin 32) : Statement (.vldi c s b a i) := of_some rfl (by have := bitNat_le c; have := s.isLt; have := b.isLt; have := a.isLt; have := i.isLt; simp only [head]; omega)
theorem vsti (c : Bool) (s : Fin 4) (b : Fin 32) (a : Fin 32) (i : Fin 32) : Statement (.vsti c s b a i) := of_some rfl (by have := bitNat_le c; have := s.isLt; have := b.isLt; have := a.isLt; have := i.isLt; simp only [head]; omega)
theorem vstia (c : Bool) (s : Fin 4) (b : Fin 32) (a : Fin 32) (i : Fin 32) : Statement (.vstia c s b a i) := of_some rfl (by have := bitNat_le c; have := s.isLt; have := b.isLt; have := a.isLt; have := i.isLt; simp only [head]; omega)
theorem vlda (c : Bool) (s : Fin 4) (b : Fin 32) (a : Fin 32) (i : Fin 32) : Statement (.vlda c s b a i) := of_some rfl (by have := bitNat_le c; have := s.isLt; have := b.isLt; have := a.isLt; have := i.isLt; simp only [head]; omega)
theorem gathb (c : Bool) (s : Fin 4) (b : Fin 32) (a : Fin 32) (i : Fin 32) (m : Fin 8) : Statement (.gathb c s b a i m) := of_some rfl (by have := bitNat_le c; have := s.isLt; have := b.isLt; have := a.isLt; have := i.isLt; have := m.isLt; simp only [head]; omega)
theorem mand (c : Bool) (s : Fin 4) (d : Fin 8) (a : Fin 8) (b : Fin 8) : Statement (.mand c s d a b) := of_some rfl (by have := bitNat_le c; have := s.isLt; have := d.isLt; have := a.isLt; have := b.isLt; simp only [head]; omega)
theorem mor (c : Bool) (s : Fin 4) (d : Fin 8) (a : Fin 8) (b : Fin 8) : Statement (.mor c s d a b) := of_some rfl (by have := bitNat_le c; have := s.isLt; have := d.isLt; have := a.isLt; have := b.isLt; simp only [head]; omega)
theorem mxor (c : Bool) (s : Fin 4) (d : Fin 8) (a : Fin 8) (b : Fin 8) : Statement (.mxor c s d a b) := of_some rfl (by have := bitNat_le c; have := s.isLt; have := d.isLt; have := a.isLt; have := b.isLt; simp only [head]; omega)
theorem mnot (c : Bool) (s : Fin 4) (d : Fin 8) (a : Fin 8) : Statement (.mnot c s d a) := of_some rfl (by have := bitNat_le c; have := s.isLt; have := d.isLt; have := a.isLt; simp only [head]; omega)
theorem mpopc (c : Bool) (s : Fin 4) (d : Fin 32) (a : Fin 8) : Statement (.mpopc c s d a) := of_some rfl (by have := bitNat_le c; have := s.isLt; have := d.isLt; have := a.isLt; simp only [head]; omega)
theorem mffs (c : Bool) (s : Fin 4) (d : Fin 32) (a : Fin 8) : Statement (.mffs c s d a) := of_some rfl (by have := bitNat_le c; have := s.isLt; have := d.isLt; have := a.isLt; simp only [head]; omega)
theorem mset (c : Bool) (s : Fin 4) (d : Fin 8) (a : Fin 32) (b : Fin 32) : Statement (.mset c s d a b) := of_some rfl (by have := bitNat_le c; have := s.isLt; have := d.isLt; have := a.isLt; have := b.isLt; simp only [head]; omega)
theorem mget (c : Bool) (s : Fin 4) (d : Fin 32) (a : Fin 8) (b : Fin 32) : Statement (.mget c s d a b) := of_some rfl (by have := bitNat_le c; have := s.isLt; have := d.isLt; have := a.isLt; have := b.isLt; simp only [head]; omega)
theorem vsplat (c : Bool) (s : Fin 4) (d : Fin 32) (x : Fin 32) : Statement (.vsplat c s d x) := of_some rfl (by have := bitNat_le c; have := s.isLt; have := d.isLt; have := x.isLt; simp only [head]; omega)
theorem vext (c : Bool) (s : Fin 4) (d : Fin 32) (a : Fin 32) (x : Fin 32) : Statement (.vext c s d a x) := of_some rfl (by have := bitNat_le c; have := s.isLt; have := d.isLt; have := a.isLt; have := x.isLt; simp only [head]; omega)
theorem vins (c : Bool) (s : Fin 4) (d : Fin 32) (a : Fin 32) (x : Fin 32) : Statement (.vins c s d a x) := of_some rfl (by have := bitNat_le c; have := s.isLt; have := d.isLt; have := a.isLt; have := x.isLt; simp only [head]; omega)
theorem vsetl (c : Bool) (s : Fin 4) (d : Fin 32) (a : Fin 32) : Statement (.vsetl c s d a) := of_some rfl (by have := bitNat_le c; have := s.isLt; have := d.isLt; have := a.isLt; simp only [head]; omega)
theorem vsetb (c : Bool) (s : Fin 4) (d : Fin 32) (a : Fin 32) : Statement (.vsetb c s d a) := of_some rfl (by have := bitNat_le c; have := s.isLt; have := d.isLt; have := a.isLt; simp only [head]; omega)
theorem nbset (c : Bool) (s : Fin 4) (d : Fin 32) (a : Fin 32) (b : Fin 32) : Statement (.nbset c s d a b) := of_some rfl (by have := bitNat_le c; have := s.isLt; have := d.isLt; have := a.isLt; have := b.isLt; simp only [head]; omega)
theorem nbget (c : Bool) (s : Fin 4) (a : Fin 32) (b : Fin 32) (d : Fin 32) : Statement (.nbget c s a b d) := of_some rfl (by have := bitNat_le c; have := s.isLt; have := a.isLt; have := b.isLt; have := d.isLt; simp only [head]; omega)
theorem waitv (c : Bool) (s : Fin 4) (m : Fin 8) (a : Fin 32) (b : Fin 32) (x : Fin 32) : Statement (.waitv c s m a b x) := of_some rfl (by have := bitNat_le c; have := s.isLt; have := m.isLt; have := a.isLt; have := b.isLt; have := x.isLt; simp only [head]; omega)
theorem copy (s : Fin 4) (p : Bool) (t : Fin 32) (a : Fin 32) (b : Fin 32) : Statement (.copy s p t a b) := of_some rfl (by have := s.isLt; have := bitNat_le p; have := t.isLt; have := a.isLt; have := b.isLt; simp only [head]; omega)
theorem copyf (s : Fin 4) (p : Bool) (t : Fin 32) (a : Fin 32) (b : Fin 32) : Statement (.copyf s p t a b) := of_some rfl (by have := s.isLt; have := bitNat_le p; have := t.isLt; have := a.isLt; have := b.isLt; simp only [head]; omega)
theorem copym (s : Fin 4) (p : Bool) (t : Fin 32) (a : Fin 32) (b : Fin 32) : Statement (.copym s p t a b) := of_some rfl (by have := s.isLt; have := bitNat_le p; have := t.isLt; have := a.isLt; have := b.isLt; simp only [head]; omega)
theorem grows (s : Fin 4) (p : Bool) (t : Fin 32) (a : Fin 32) (b : Fin 32) : Statement (.grows s p t a b) := of_some rfl (by have := s.isLt; have := bitNat_le p; have := t.isLt; have := a.isLt; have := b.isLt; simp only [head]; omega)
theorem publish (s : Fin 4) (p : Bool) (t : Fin 32) (a : Fin 32) : Statement (.publish s p t a) := of_some rfl (by have := s.isLt; have := bitNat_le p; have := t.isLt; have := a.isLt; simp only [head]; omega)
theorem mma (s : Fin 4) (p : Bool) (t : Fin 32) (a : Fin 32) (b : Fin 32) : Statement (.mma s p t a b) := of_some rfl (by have := s.isLt; have := bitNat_le p; have := t.isLt; have := a.isLt; have := b.isLt; simp only [head]; omega)
theorem mmas (s : Fin 4) (p : Bool) (t : Fin 32) (a : Fin 32) (b : Fin 32) : Statement (.mmas s p t a b) := of_some rfl (by have := s.isLt; have := bitNat_le p; have := t.isLt; have := a.isLt; have := b.isLt; simp only [head]; omega)
theorem mclr (s : Fin 4) (p : Bool) (t : Fin 32) : Statement (.mclr s p t) := of_some rfl (by have := s.isLt; have := bitNat_le p; have := t.isLt; simp only [head]; omega)
theorem mrd (s : Fin 4) (p : Bool) (t : Fin 32) (a : Fin 32) : Statement (.mrd s p t a) := of_some rfl (by have := s.isLt; have := bitNat_le p; have := t.isLt; have := a.isLt; simp only [head]; omega)
theorem credSum (s : Fin 4) (p : Bool) (t : Fin 32) (a : Fin 32) (b : Fin 32) : Statement (.credSum s p t a b) := of_some rfl (by have := s.isLt; have := bitNat_le p; have := t.isLt; have := a.isLt; have := b.isLt; simp only [head]; omega)
theorem credMax (s : Fin 4) (p : Bool) (t : Fin 32) (a : Fin 32) (b : Fin 32) : Statement (.credMax s p t a b) := of_some rfl (by have := s.isLt; have := bitNat_le p; have := t.isLt; have := a.isLt; have := b.isLt; simp only [head]; omega)
theorem credMin (s : Fin 4) (p : Bool) (t : Fin 32) (a : Fin 32) (b : Fin 32) : Statement (.credMin s p t a b) := of_some rfl (by have := s.isLt; have := bitNat_le p; have := t.isLt; have := a.isLt; have := b.isLt; simp only [head]; omega)
theorem credAnd (s : Fin 4) (p : Bool) (t : Fin 32) (a : Fin 32) (b : Fin 32) : Statement (.credAnd s p t a b) := of_some rfl (by have := s.isLt; have := bitNat_le p; have := t.isLt; have := a.isLt; have := b.isLt; simp only [head]; omega)
theorem credOr (s : Fin 4) (p : Bool) (t : Fin 32) (a : Fin 32) (b : Fin 32) : Statement (.credOr s p t a b) := of_some rfl (by have := s.isLt; have := bitNat_le p; have := t.isLt; have := a.isLt; have := b.isLt; simp only [head]; omega)
theorem credXor (s : Fin 4) (p : Bool) (t : Fin 32) (a : Fin 32) (b : Fin 32) : Statement (.credXor s p t a b) := of_some rfl (by have := s.isLt; have := bitNat_le p; have := t.isLt; have := a.isLt; have := b.isLt; simp only [head]; omega)
theorem cgat (s : Fin 4) (p : Bool) (t : Fin 32) (a : Fin 32) (b : Fin 32) : Statement (.cgat s p t a b) := of_some rfl (by have := s.isLt; have := bitNat_le p; have := t.isLt; have := a.isLt; have := b.isLt; simp only [head]; omega)
theorem cbc (s : Fin 4) (p : Bool) (t : Fin 32) (a : Fin 32) (b : Fin 32) : Statement (.cbc s p t a b) := of_some rfl (by have := s.isLt; have := bitNat_le p; have := t.isLt; have := a.isLt; have := b.isLt; simp only [head]; omega)
theorem cbar (s : Fin 4) (p : Bool) (t : Fin 32) : Statement (.cbar s p t) := of_some rfl (by have := s.isLt; have := bitNat_le p; have := t.isLt; simp only [head]; omega)
theorem train (s : Fin 4) (p : Bool) (t : Fin 32) (a : Fin 32) (b : Fin 32) : Statement (.train s p t a b) := of_some rfl (by have := s.isLt; have := bitNat_le p; have := t.isLt; have := a.isLt; have := b.isLt; simp only [head]; omega)
theorem migrOut (s : Fin 4) (p : Bool) (t : Fin 32) (a : Fin 32) (b : Fin 32) : Statement (.migrOut s p t a b) := of_some rfl (by have := s.isLt; have := bitNat_le p; have := t.isLt; have := a.isLt; have := b.isLt; simp only [head]; omega)
theorem migrIn (s : Fin 4) (p : Bool) (t : Fin 32) (a : Fin 32) (b : Fin 32) : Statement (.migrIn s p t a b) := of_some rfl (by have := s.isLt; have := bitNat_le p; have := t.isLt; have := a.isLt; have := b.isLt; simp only [head]; omega)
theorem scld (s : Fin 4) (k : Fin 4) (a : Fin 32) (b : Fin 32) : Statement (.scld s k a b) := of_some rfl (by have := s.isLt; have := k.isLt; have := a.isLt; have := b.isLt; simp only [head]; omega)
theorem claim (s : Fin 4) (d : Fin 32) : Statement (.claim s d) := of_some rfl (by have := s.isLt; have := d.isLt; simp only [head]; omega)
theorem tret (s : Fin 4) : Statement (.tret s) := of_some rfl (by have := s.isLt; simp only [head]; omega)
theorem srr (s : Fin 4) (d : Fin 32) (r : Fin 1024) : Statement (.srr s d r) := of_some rfl (by have := s.isLt; have := d.isLt; have := r.isLt; simp only [head]; omega)
theorem srw (s : Fin 4) (r : Fin 1024) (b : Fin 32) : Statement (.srw s r b) := of_some rfl (by have := s.isLt; have := r.isLt; have := b.isLt; simp only [head]; omega)
theorem tlbi (s : Fin 4) (d : Fin 32) (a : Fin 32) (b : Fin 32) : Statement (.tlbi s d a b) := of_some rfl (by have := s.isLt; have := d.isLt; have := a.isLt; have := b.isLt; simp only [head]; omega)
theorem ctxsv (s : Fin 4) (d : Fin 32) (a : Fin 32) (b : Fin 32) : Statement (.ctxsv s d a b) := of_some rfl (by have := s.isLt; have := d.isLt; have := a.isLt; have := b.isLt; simp only [head]; omega)
theorem ctxld (s : Fin 4) (d : Fin 32) (a : Fin 32) (b : Fin 32) : Statement (.ctxld s d a b) := of_some rfl (by have := s.isLt; have := d.isLt; have := a.isLt; have := b.isLt; simp only [head]; omega)
theorem park (s : Fin 4) (d : Fin 32) (a : Fin 32) (b : Fin 32) : Statement (.park s d a b) := of_some rfl (by have := s.isLt; have := d.isLt; have := a.isLt; have := b.isLt; simp only [head]; omega)
theorem halt (s : Fin 4) (d : Fin 32) (a : Fin 32) (b : Fin 32) : Statement (.halt s d a b) := of_some rfl (by have := s.isLt; have := d.isLt; have := a.isLt; have := b.isLt; simp only [head]; omega)
theorem bset (s : Fin 4) (d : Fin 32) (a : Fin 32) (b : Fin 32) : Statement (.bset s d a b) := of_some rfl (by have := s.isLt; have := d.isLt; have := a.isLt; have := b.isLt; simp only [head]; omega)
theorem pcan (s : Fin 4) (d : Fin 32) (a : Fin 32) : Statement (.pcan s d a) := of_some rfl (by have := s.isLt; have := d.isLt; have := a.isLt; simp only [head]; omega)
theorem seqr (s : Fin 4) (d : Fin 32) (a : Fin 32) : Statement (.seqr s d a) := of_some rfl (by have := s.isLt; have := d.isLt; have := a.isLt; simp only [head]; omega)
theorem illegalWord (w : BitVec 32) : Statement (.illegalWord w) := of_none rfl
theorem vectorWordStart (c : Nat) : Statement (.vectorWordStart c) := of_none rfl
theorem convoyStep (c : Nat) : Statement (.convoyStep c) := of_none rfl
theorem remoteGroupServe (c : Nat) (src : Nat) (r : Fin 32) (g : Fin 8) : Statement (.remoteGroupServe c src r g) := of_none rfl
theorem groupLand (c : Nat) (r : Fin 32) (g : Fin 8) : Statement (.groupLand c r g) := of_none rfl
theorem writeApply (i : Nat) (part : Nat) : Statement (.writeApply i part) := of_none rfl
theorem writeAcknowledge (i : Nat) : Statement (.writeAcknowledge i) := of_none rfl
theorem frontierReceive (d : Fin 4) (e : Fin 4) : Statement (.frontierReceive d e) := of_none rfl
theorem readServe (c : Nat) : Statement (.readServe c) := of_none rfl
theorem looseWriteApply (c : Nat) (i : Nat) : Statement (.looseWriteApply c i) := of_none rfl
theorem waitSatisfied (c : Nat) : Statement (.waitSatisfied c) := of_none rfl
theorem waitTimeout (c : Nat) : Statement (.waitTimeout c) := of_none rfl
theorem taskTake (c : Nat) : Statement (.taskTake c) := of_none rfl
theorem dispatchGenerate (p : Nat) (lid : Nat) : Statement (.dispatchGenerate p lid) := of_none rfl
theorem dispatchPreempt (p : Nat) (lid : Nat) : Statement (.dispatchPreempt p lid) := of_none rfl
theorem threadSave (c : Nat) : Statement (.threadSave c) := of_none rfl
theorem taskPriorityAge (core : Nat) (i : Nat) : Statement (.taskPriorityAge core i) := of_none rfl
theorem launchPriorityAge (p : Nat) (lid : Nat) : Statement (.launchPriorityAge p lid) := of_none rfl
theorem ringRefill (core : Nat) : Statement (.ringRefill core) := of_none rfl
theorem joinBufferDrain (core : Nat) : Statement (.joinBufferDrain core) := of_none rfl
theorem stealAsk (core : Nat) : Statement (.stealAsk core) := of_none rfl
theorem stealLend (victim : Nat) (thief : Nat) : Statement (.stealLend victim thief) := of_none rfl
theorem lendAcknowledge (thief : Nat) : Statement (.lendAcknowledge thief) := of_none rfl
theorem lendExpiry (victim : Nat) (seq : Nat) : Statement (.lendExpiry victim seq) := of_none rfl
theorem cancelReachesThread (c : Nat) : Statement (.cancelReachesThread c) := of_none rfl
theorem cancelDrained (p : Nat) (lid : Nat) : Statement (.cancelDrained p lid) := of_none rfl
theorem launchComplete (p : Nat) (lid : Nat) : Statement (.launchComplete p lid) := of_none rfl
theorem graphComplete (p : Nat) (job : Nat) (g : Nat) : Statement (.graphComplete p job g) := of_none rfl
theorem phaseComplete (p : Nat) (job : Nat) (ph : Nat) : Statement (.phaseComplete p job ph) := of_none rfl
theorem jobComplete (p : Nat) (job : Nat) : Statement (.jobComplete p job) := of_none rfl
theorem opStart (core : Nat) (slot : Nat) : Statement (.opStart core slot) := of_none rfl
theorem predecessorFault (core : Nat) (slot : Nat) : Statement (.predecessorFault core slot) := of_none rfl
theorem copyStep (core : Nat) (slot : Nat) : Statement (.copyStep core slot) := of_none rfl
theorem growsRow (core : Nat) (slot : Nat) (row : Nat) : Statement (.growsRow core slot row) := of_none rfl
theorem publishExchange (core : Nat) (slot : Nat) : Statement (.publishExchange core slot) := of_none rfl
theorem mmaKBlock (core : Nat) (slot : Nat) (miss1 : Option (Fin 128)) (miss2 : Option (Fin 128)) : Statement (.mmaKBlock core slot miss1 miss2) := of_none rfl
theorem mclrStep (core : Nat) (slot : Nat) : Statement (.mclrStep core slot) := of_none rfl
theorem mrdRow (core : Nat) (slot : Nat) : Statement (.mrdRow core slot) := of_none rfl
theorem trainApply (core : Nat) (slot : Nat) (die : Nat) : Statement (.trainApply core slot die) := of_none rfl
theorem trainAck (core : Nat) (slot : Nat) (dest : Nat) (ok : Bool) : Statement (.trainAck core slot dest ok) := of_none rfl
theorem collectiveStep (core : Nat) (slot : Nat) : Statement (.collectiveStep core slot) := of_none rfl
theorem collJoinTimeout (core : Nat) (slot : Nat) (m : Nat) : Statement (.collJoinTimeout core slot m) := of_none rfl
theorem cbarComplete (core : Nat) (slot : Nat) : Statement (.cbarComplete core slot) := of_none rfl
theorem migrPageMove (core : Nat) (slot : Nat) (linkOk : Bool) : Statement (.migrPageMove core slot linkOk) := of_none rfl
theorem parkDrainExpiry (p : Nat) : Statement (.parkDrainExpiry p) := of_none rfl
theorem woadCoreStop (core : Nat) : Statement (.woadCoreStop core) := of_none rfl
theorem stateParityError (p : Nat) (unit : Nat) : Statement (.stateParityError p unit) := of_none rfl
theorem scrub (core : Nat) : Statement (.scrub core) := of_none rfl
theorem hostReadRequest (p : Nat) (pa : Nat) (len : Nat) : Statement (.hostReadRequest p pa len) := of_none rfl
theorem hostWrite (p : Nat) (pa : Nat) (bytes : List (BitVec 8)) : Statement (.hostWrite p pa bytes) := of_none rfl
theorem fabricRequest (port : Nat) (p : Nat) (pa : Nat) (wr : Bool) (bytes : List (BitVec 8)) : Statement (.fabricRequest port p pa wr bytes) := of_none rfl
theorem linkCompletion (link : Nat) (tag : Nat) (status : Nat) : Statement (.linkCompletion link tag status) := of_none rfl
theorem linkAcknowledgement (link : Nat) (seq : Nat) : Statement (.linkAcknowledgement link seq) := of_none rfl
theorem linkReplayRequest (link : Nat) (seq : Nat) : Statement (.linkReplayRequest link seq) := of_none rfl
theorem flitCorrupt (link : Nat) : Statement (.flitCorrupt link) := of_none rfl
theorem linkFail (link : Nat) : Statement (.linkFail link) := of_none rfl
theorem migrationData (p : Nat) (ta : Nat) (bytes : List (BitVec 8)) : Statement (.migrationData p ta bytes) := of_none rfl
theorem statusQuery : Statement (.statusQuery) := of_none rfl
theorem attestationRequest (nonce : BitVec 256) : Statement (.attestationRequest nonce) := of_none rfl
theorem gangLaunchReceive (p : Nat) (q : Nat) (from_ : Nat) (desc : List (BitVec 64)) : Statement (.gangLaunchReceive p q from_ desc) := of_none rfl
theorem gangAck (p : Nat) (lid : Nat) (m : Nat) : Statement (.gangAck p lid m) := of_none rfl
theorem gangRefusal (p : Nat) (lid : Nat) (m : Nat) : Statement (.gangRefusal p lid m) := of_none rfl
theorem gangMemberReport (p : Nat) (lid : Nat) (m : Nat) (cancelled : Bool) : Statement (.gangMemberReport p lid m cancelled) := of_none rfl
theorem gangAckTimeout (p : Nat) (lid : Nat) (m : Nat) : Statement (.gangAckTimeout p lid m) := of_none rfl
theorem powerOnReset : Statement (.powerOnReset) := of_none rfl
theorem firmwareLoad : Statement (.firmwareLoad) := of_none rfl
theorem firmwareVerify : Statement (.firmwareVerify) := of_none rfl
theorem selfTest : Statement (.selfTest) := of_none rfl
theorem brctlGo : Statement (.brctlGo) := of_none rfl
theorem brctlFail (detail : BitVec 16) : Statement (.brctlFail detail) := of_none rfl
theorem oppWrite (island : Nat) (v : BitVec 8) : Statement (.oppWrite island v) := of_none rfl
theorem oppChangeComplete (island : Nat) : Statement (.oppChangeComplete island) := of_none rfl
theorem powerLimitExceeded : Statement (.powerLimitExceeded) := of_none rfl
theorem powerLimitRestore : Statement (.powerLimitRestore) := of_none rfl
theorem qctlWrite (p : Nat) (off : Nat) (v : BitVec 64) : Statement (.qctlWrite p off v) := of_none rfl
theorem poolWrite (p : Nat) (off : Nat) (v : BitVec 64) : Statement (.poolWrite p off v) := of_none rfl
theorem ringWrite (p : Nat) (off : Nat) (v : BitVec 64) : Statement (.ringWrite p off v) := of_none rfl
theorem qjobWrite (p : Nat) (off : Nat) (v : BitVec 64) : Statement (.qjobWrite p off v) := of_none rfl
theorem jcloseWrite (p : Nat) (v : BitVec 64) : Statement (.jcloseWrite p v) := of_none rfl
theorem migrationBlockWrite (p : Nat) (off : Nat) (v : BitVec 64) : Statement (.migrationBlockWrite p off v) := of_none rfl
theorem carveWrite (p : Nat) (off : Nat) (v : BitVec 64) : Statement (.carveWrite p off v) := of_none rfl
theorem portTrain (n : Nat) : Statement (.portTrain n) := of_none rfl
theorem partWrite (c : Nat) (v : BitVec 64) : Statement (.partWrite c v) := of_none rfl
theorem registerWrite (pa : Nat) (v : BitVec 64) : Statement (.registerWrite pa v) := of_none rfl
theorem pushArrival (i : Nat) : Statement (.pushArrival i) := of_none rfl
theorem stealAnswer (thief : Nat) : Statement (.stealAnswer thief) := of_none rfl
theorem lendAnswer (thief : Nat) : Statement (.lendAnswer thief) := of_none rfl
theorem gangCancel (p : Nat) (lid : Nat) : Statement (.gangCancel p lid) := of_none rfl
theorem securityVersionRaise (v : BitVec 32) : Statement (.securityVersionRaise v) := of_none rfl

end Sys2Proof.Laws.Fits
end

