-- ==== Sys2Proof/Laws/Scalar.lean ====
section
/-! SUPPORT. Laws.Scalar: what the shared operations of scalar words can do: reading registers (07 R165, R166), the check of
declared distances, and a word that writes one register. -/

namespace Sys2Proof.Machine

/-- A register at no short declared distance has no old value to be read (07 R165). -/
theorem Ctx.olds_of_short (k : Ctx) {l : List Nat} {n : Nat} (h : k.short l = []) (hn : n ∈ l) (h0 : n ≠ 0) : k.olds n = [] := by
  simp only [Ctx.olds, List.map_eq_nil_iff, List.filter_eq_nil_iff, Ctx.short, Bool.and_eq_true, decide_eq_true_eq] at h ⊢
  rintro e he ⟨h1, h2⟩
  exact h e he ⟨⟨h2, h1 ▸ hn⟩, h1 ▸ h0⟩

theorem State.choose_of_olds (s : State) {n : Nat} (v : Word) (h : s.me.olds n = []) : s.choose n v = v := by
  simp [State.choose, h, Config.pick]

/-- A scalar register that a word names reads its new value when no named register is at a short distance. -/
theorem State.rx_of_short (s : State) {l : List Nat} {r : Fin 32} (h : s.me.short l = []) (hr : r.val ∈ l) :
    s.rx r = s.me.rx r.val := by
  unfold State.rx
  split
  · next h0 => rw [h0]; rfl
  · next h0 => exact s.choose_of_olds _ (s.me.olds_of_short h hr h0)

theorem State.rc_of_short (s : State) {l : List Nat} {r : Nat} (h : s.me.short l = []) (hr : ctlReg r ∈ l) :
    s.rc r = s.me.ctrl.get r :=
  s.choose_of_olds _ (s.me.olds_of_short h hr (by simp [ctlReg]))

theorem State.checked_of_reads (s : State) {l : List Nat} (f : State → Out) (h : s.Reads l) : s.checked l f = f s := by
  simp [State.checked, State.sound, h.1, h.2]

/-- A register that lies in a failed slot, at no short distance, traps (18 R345). -/
theorem State.checked_fails (s : State) {l : List Nat} {r : Nat} (f : State → Out) (h : s.me.short l = [])
    (hr : s.failedScalar l = some r) : s.checked l f = .next (s.trap Code.eccUncorr { loc := r }) := by
  simp [State.checked, State.sound, h, hr]

/-- At a short distance with DCHK.EN = 1 the word traps and does nothing else (07 R166). -/
theorem State.checked_traps (s : State) {l : List Nat} {e : Shadow} {t : List Shadow} (f : State → Out) (h : s.me.short l = e :: t)
    (hd : bitW (s.rc 0x07) 0 = true) :
    s.checked l f = .next (s.trap Code.stallShort { d0 := e.addr, d1 := word (s.me.pos - e.pos) }) := by
  simp [State.checked, h, hd]

theorem Ctx.still_advance (k : Ctx) (S : Fin 4) : (k.advance S).still = k.still := rfl
theorem Ctx.still_jump (k : Ctx) (S : Fin 4) (t : Word) : (k.jump S t).still = k.still := rfl
theorem Ctx.still_result (k : Ctx) (r : Nat) (v : Word) (l : Nat) : (k.result r v l).still = k.still := by
  unfold Ctx.result Ctx.wx Ctx.shade
  split
  · rfl
  · split <;> rfl

/-- A change of the issuing context is a change of nothing else. -/
theorem State.onlyMe_setMe (s : State) (f : Ctx → Ctx) : s.OnlyMe (s.setMe f) :=
  ⟨rfl, fun _ h => s.setMe_ctx_ne f h, fun _ => rfl⟩

theorem Ctx.wrote_result (k : Ctx) (d : Fin 32) (v : Word) (l : Nat) : k.Wrote (k.result d.val v l) d v := by
  intro r
  rw [Ctx.rx_result]
  simp only [Fin.ext_iff, ne_eq, Fin.val_zero]

/-- The context after a word that writes register d and goes on. -/
theorem State.wroteReg_advance (s : State) (S : Fin 4) (d : Fin 32) (v : Word) (l : Nat) :
    s.WroteReg (s.setMe fun c => (c.result d.val v l).advance S) d v (s.me.pc + 4) := by
  refine ⟨?_, ?_, ?_, s.onlyMe_setMe _⟩
  · rw [State.setMe_me]; exact s.me.wrote_result d v l
  · rw [State.setMe_me]; exact ⟨by simp, by simp, rfl⟩
  · rw [State.setMe_me, Ctx.still_advance, Ctx.still_result]

/-- What `scalar` does when its registers can be read. -/
theorem State.scalar_spec (s : State) (S : Fin 4) (d : Fin 32) (l : Nat) (srcs : List Nat) (v : State → Word)
    (h : s.Reads srcs) : ∃ t, s.scalar S d l srcs v = .next t ∧ s.WroteReg t d (v s) (s.me.pc + 4) :=
  ⟨_, s.checked_of_reads _ h, s.wroteReg_advance S d (v s) l⟩

/-- What `interlocked` does. -/
theorem State.wroteReg_interlocked (s : State) (S : Fin 4) (d : Fin 32) (v : Word) :
    s.WroteReg (s.interlocked S d v) d v (s.me.pc + 4) := s.wroteReg_advance S d v 1

/-- Flags raised in a lane: the OR, and no other lane (04 R96). -/
theorem Ctx.lane_raise (k : Ctx) (n m : Nat) (f : Flags) : (k.raise n f).lane m = if m = n then k.lane n ||| f else k.lane m := by
  unfold Ctx.raise
  split
  · next h => subst h; split <;> simp_all
  · simp only [Ctx.lane, tget_tset]

theorem Ctx.still_raise (k : Ctx) (n : Nat) (f : Flags) : { (k.raise n f).still with flags := [] } = { k.still with flags := [] } := by
  unfold Ctx.raise; split <;> rfl

theorem Ctx.rx_raise (k : Ctx) (n : Nat) (f : Flags) (r : Nat) : (k.raise n f).rx r = k.rx r := by
  unfold Ctx.raise; split <;> rfl
@[simp] theorem Ctx.raise_pc (k : Ctx) (n : Nat) (f : Flags) : (k.raise n f).pc = k.pc := by unfold Ctx.raise; split <;> rfl
@[simp] theorem Ctx.raise_icnt (k : Ctx) (n : Nat) (f : Flags) : (k.raise n f).icnt = k.icnt := by unfold Ctx.raise; split <;> rfl

/-- The context after a word that raises flags in lane 0, writes register d and goes on. -/
theorem State.wroteFlags_advance (s : State) (S : Fin 4) (d : Fin 32) (v : Word) (l : Nat) (f : Flags) :
    s.WroteFlags (s.setMe fun c => ((c.raise 0 f).result d.val v l).advance S) d v f (s.me.pc + 4) := by
  refine ⟨?_, ?_, ?_, ?_, s.onlyMe_setMe _⟩
  · intro r
    rw [State.setMe_me, Ctx.rx_advance, Ctx.wrote_result (s.me.raise 0 f) d v l r, Ctx.rx_raise]
  · rw [State.setMe_me]; exact ⟨by simp, by simp, rfl⟩
  · intro n
    rw [State.setMe_me]
    simp only [Ctx.lane, Ctx.advance_flags, Ctx.result_flags]
    exact Ctx.lane_raise s.me 0 n f
  · rw [State.setMe_me, Ctx.still_advance, Ctx.still_result, Ctx.still_raise]

end Sys2Proof.Machine
end

