-- ==== Sys2Proof/Laws/Traps.lean ====
section
/-! SUPPORT. Laws.Traps: what taking a trap can do (15 R280). -/

namespace Sys2Proof.Machine

@[simp] theorem State.nextSeq_ctxs (s : State) (core unit : Nat) : (s.nextSeq core unit).2.ctxs = s.ctxs := rfl
@[simp] theorem State.record_ctxs (s : State) (c unit code : Nat) (d : Detail) (a : Word) : (s.record c unit code d a).2.ctxs = s.ctxs := rfl
@[simp] theorem State.record_ctx (s : State) (c unit code : Nat) (d : Detail) (a : Word) (n : Nat) :
    (s.record c unit code d a).2.ctx n = s.ctx n := rfl
@[simp] theorem State.record_part (s : State) (c unit code : Nat) (d : Detail) (a : Word) (n : Nat) :
    (s.record c unit code d a).2.part n = s.part n := rfl
@[simp] theorem State.record_partOf (s : State) (c unit code : Nat) (d : Detail) (a : Word) (n : Nat) :
    (s.record c unit code d a).2.partOf n = s.partOf n := rfl
@[simp] theorem State.record_peek (s : State) (c unit code : Nat) (d : Detail) (a : Word) (n : Nat) :
    (s.record c unit code d a).2.peek n = s.peek n := rfl
@[simp] theorem State.record_cur (s : State) (c unit code : Nat) (d : Detail) (a : Word) : (s.record c unit code d a).2.cur = s.cur := rfl

/-- The state after a trap of context c at U, with the record made. -/
theorem State.takeTrap_user (s : State) (c code : Nat) (r : Rec8) (resume : Word) (vq : Bool) (h : (s.ctx c).sys.cpl = .u) :
    s.takeTrap c code r resume vq false = s.setCtx c fun k => { k.break with
      wait := none
      waited := 0
      pc := vector (s.part (s.partOf (coreOf c))).tvec code
      sys := { k.sys with ppl := .u, cpl := .s, epc := resume, ecause := cause vq code, frec := r } } := by
  unfold State.takeTrap
  rw [h]

/-- The state after a trap of context c at S: M's registers are written, and S's are left (15 R280). -/
theorem State.takeTrap_super (s : State) (c code : Nat) (r : Rec8) (resume : Word) (vq direct : Bool) (h : (s.ctx c).sys.cpl = .s) :
    s.takeTrap c code r resume vq direct = s.setCtx c fun k => { k.break with
      wait := none
      waited := 0
      pc := vector s.mvec code
      sys := { k.sys with mppl := k.sys.cpl, cpl := .m, mepc := resume, mcause := cause vq code, mfrec := r } } := by
  unfold State.takeTrap
  rw [h]

/-- A scalar word traps with no convoy begun: the trap of the record it makes. -/
theorem State.trapWord_plain (s : State) (c code : Nat) (d : Detail) (a resume : Word) (vq : Bool) (h : (s.ctx c).opened = []) :
    s.trapWord c code d a resume vq =
      ((s.record c 0 code d a).2.setCtx c id).takeTrap c code (s.record c 0 code d a).1 resume vq false := by
  unfold State.trapWord
  rw [h]
  simp only [State.setCtx, State.record_ctx, h]
  rfl

/-- A trap of the issuing context at U (15 R280). -/
theorem State.trap_user (s : State) (code : Nat) (d : Detail) (hu : s.me.sys.cpl = .u) (ho : s.me.opened = []) :
    s.TookTrap (s.trap code d) code s.me.pc ∧ (s.trap code d).me.sys.frec = (s.record s.cur 0 code d s.me.pc).1 := by
  unfold State.trap
  rw [s.trapWord_plain s.cur code d s.me.pc s.me.pc false ho]
  rw [State.takeTrap_user _ _ _ _ _ _ (by rw [State.setCtx_ctx_same]; exact hu)]
  generalize hr : s.record s.cur 0 code d s.me.pc = r
  have e1 : r.2.ctxs = s.ctxs := by rw [← hr]; rfl
  have e2 : ∀ n, r.2.ctx n = s.ctx n := fun n => by rw [← hr]; rfl
  have e3 : ∀ n, r.2.part n = s.part n := fun n => by rw [← hr]; rfl
  have e4 : ∀ n, r.2.partOf n = s.partOf n := fun n => by rw [← hr]; rfl
  have e5 : ∀ n, r.2.peek n = s.peek n := fun n => by rw [← hr]; rfl
  have e6 : r.2.cur = s.cur := by rw [← hr]; rfl
  have em : ∀ (t : State) (f : Ctx → Ctx), t.cur = s.cur → (t.setCtx s.cur f).me = f (t.ctx s.cur) := by
    intro t f h
    unfold State.me
    rw [State.setCtx_cur, h, State.setCtx_ctx_same]
  refine ⟨⟨?_, ?_, ?_, ?_, ?_, ?_, ?_⟩, ?_⟩
  · rw [em _ _ (by simpa using e6)]; exact ⟨rfl, rfl⟩
  · rw [em _ _ (by simpa using e6)]
  · rw [em _ _ (by simpa using e6)]
  · rw [em _ _ (by simpa using e6)]
    show vector (State.part (r.2.setCtx s.cur id) ((r.2.setCtx s.cur id).partOf (coreOf s.cur))).tvec code = _
    show vector (r.2.part (r.2.partOf (coreOf s.cur))).tvec code = _
    rw [e3, e4]
  · rw [em _ _ (by simpa using e6)]
    simp only [State.setCtx_ctx_same, e2]
    exact ⟨rfl, rfl, rfl, rfl, rfl, rfl⟩
  · intro c hc
    rw [State.setCtx_ctx_ne _ _ hc, State.setCtx_ctx_ne _ _ hc, e2]
  · intro a; exact e5 a
  · rw [em _ _ (by simpa using e6)]

end Sys2Proof.Machine
end

