-- ==== Sys2Proof/Tests/Slice0.lean ====
section
/-! SUPPORT. Tests.Slice0: words decoded and refused, the checks of WellFormed, single steps, and for every statement states
that meet its premises. Expected values come from the spec: 07 R158 to R179 for words, the cited rules for steps. -/

namespace Sys2Proof.Tests

open Sys2Proof.Machine Sys2Proof.Claims
set_option Elab.async false

/-! ### Words, from the encodings of 07 R158, R159, R177 to R179 and 15 R276 -/
theorem test_decode_add : decodeWord 0b0_00_000001_00011_00100_00101_00000000 = some (.add 0 3 4 5) := by decide
theorem test_decode_addi : decodeWord 0b0_01_000010_00001_00010_1111111111111 = some (.addi 1 1 2 0x1FFF) := by decide
theorem test_decode_srai : decodeWord 0b0_00_000110_00001_00010_10_00000_111111 = some (.srai 0 1 2 63) := by decide
theorem test_decode_sltni : decodeWord 0b0_00_000111_00001_00010_1_000000000111 = some (.sltni 0 1 2 7) := by decide
theorem test_decode_lui : decodeWord 0b0_00_001000_11111_100000000000000000 = some (.lui 0 31 0x20000) := by decide
theorem test_decode_fadd : decodeWord 0b0_00_001010_00001_00010_00011_0000000_1 = some (.fadd 0 1 2 3 true) := by decide
theorem test_decode_fcvt : decodeWord 0b0_00_001010_00001_00010_00110_0001011_0 = some (.fcvt 0 1 2 .i64 false) := by decide
theorem test_decode_bgen : decodeWord 0b0_00_001011_111_00100_00101_1111111110 = some (.bgen 0 4 5 0x3FE) := by decide
theorem test_decode_j : decodeWord 0b0_00_001100_11111111111111111111111 = some (.j 0 0x7FFFFF) := by decide
theorem test_decode_jalr : decodeWord 0b0_00_001110_00001_00010_0000000000100 = some (.jalr 0 1 2 4) := by decide
theorem test_decode_ldn : decodeWord 0b0_00_001111_00001_00010_110_0000000001 = some (.ldnW 0 1 2 1) := by decide
theorem test_decode_st : decodeWord 0b0_00_010000_00001_00010_011_1111111111 = some (.stD 0 1 2 0x3FF) := by decide
theorem test_decode_amocas : decodeWord 0b0_00_010001_00001_00010_00011_1001_1_1_0_0 = some (.amocas 0 1 2 3 true true false) := by decide
theorem test_decode_fence : decodeWord 0b0_00_010010_00000_00011_00100_00000000 = some (.fence 0 .loose .system) := by decide
theorem test_decode_svc : decodeWord 0b0_00_010010_00000_1000000001_00001101 = some (.svc 0 0x201) := by decide
theorem test_decode_qpushC : decodeWord 0b0_00_010011_00001_00010_00000_00000001 = some (.qpushC 0 1 2) := by decide
theorem test_decode_twaitAny : decodeWord 0b0_00_010100_00001_00010_00011_00000001 = some (.twaitAny 0 1 2 3) := by decide
theorem test_decode_crwi : decodeWord 0b0_00_010101_0000000001_10_00000_000111 = some (.crwi 0 7 1) := by decide
theorem test_decode_ldpn : decodeWord 0b0_00_010110_00001_00010_00000_101_01_1_00 = some (.ldpnH 0 1 5 2) := by decide
theorem test_decode_vadds : decodeWord 0b1_10_011000_00001_00010_00011_00001101 = some (.vadds true 2 1 2 3) := by decide
theorem test_decode_vfnmac : decodeWord 0b0_00_011001_00001_00010_00011_00000100 = some (.vfnmac false 0 1 2 3) := by decide
theorem test_decode_vfcmp : decodeWord 0b0_00_011010_00_010_00100_00101_1_0000_110 = some (.vfcmp false 0 .un 2 4 5) := by decide
theorem test_decode_vtbl : decodeWord 0b0_00_011011_00001_00010_1_1_010_10100101 = some (.vtbl false 0 1 2 2 true 0xA5) := by decide
theorem test_decode_vtrn : decodeWord 0b0_00_011011_00001_00010_0_0100_00000_010 = some (.vtrn false 0 1 2 .xz) := by decide
theorem test_decode_vscan : decodeWord 0b0_00_011100_00001_00010_00000_00000110 = some (.vscan false 0 1 2) := by decide
theorem test_decode_vcvt : decodeWord 0b0_00_011101_00001_00010_01011_00000000 = some (.vcvt false 0 1 2 .f16) := by decide
theorem test_decode_ald : decodeWord 0b0_00_011110_00_011_00101_00000_00000100 = some (.ald false 0 3 5) := by decide
theorem test_decode_scac : decodeWord 0b0_00_011110_00001_00010_000_11_00000101 = some (.scac false 0 1 2 3) := by decide
theorem test_decode_vsubVs : decodeWord 0b0_00_011111_00001_00010_00011_00000001 = some (.vsubVs false 0 1 2 3) := by decide
theorem test_decode_vfmacVs : decodeWord 0b0_00_100000_00001_00010_00011_00000011 = some (.vfmacVs false 0 1 2 3) := by decide
theorem test_decode_oaddF : decodeWord 0x1090A6C5 = some (.oaddF false 0 4 5 .plus .zero .minus 6) := by decide
theorem test_decode_oadd : decodeWord 0x1110A6C5 = some (.oadd false 0 4 5 .plus .zero .minus 6) := by decide
theorem test_decode_vst : decodeWord 0b0_00_100011_00001_00010_00011_00000001 = some (.vst false 0 1 2 3) := by decide
theorem test_decode_vstia : decodeWord 0b0_00_100110_00001_00010_00011_00000010 = some (.vstia false 0 1 2 3) := by decide
theorem test_decode_gathb : decodeWord 0b0_00_100111_00001_00010_00011_101_00001 = some (.gathb false 0 1 2 3 5) := by decide
theorem test_decode_mxor : decodeWord 0b0_00_101000_00_001_00_010_00_011_00000010 = some (.mxor false 0 1 2 3) := by decide
theorem test_decode_vins : decodeWord 0b0_00_101001_00001_00010_00011_00000010 = some (.vins false 0 1 2 3) := by decide
theorem test_decode_nbget : decodeWord 0b0_00_101010_00111_00010_00011_000_00001 = some (.nbget false 0 2 3 7) := by decide
theorem test_decode_waitv : decodeWord 0b0_00_101010_00001_00010_00011_100_00010 = some (.waitv false 0 4 1 2 3) := by decide
theorem test_decode_copyf : decodeWord 0x18514C81 = some (.copyf 0 true 20 10 12) := by decide
theorem test_decode_mrd : decodeWord 0b0_00_110001_00001_00010_00000_0_0000011 = some (.mrd 0 false 1 2) := by decide
theorem test_decode_train : decodeWord 0b0_00_110010_00001_00010_00011_0_0010000 = some (.train 0 false 1 2 3) := by decide
theorem test_decode_migrIn : decodeWord 0b0_00_110011_00001_00010_00011_1_0000001 = some (.migrIn 0 true 1 2 3) := by decide
theorem test_decode_scld : decodeWord 0b0_00_110100_000_10_00101_00110_00000000 = some (.scld 0 2 5 6) := by decide
theorem test_decode_srr : decodeWord 0b0_00_111110_00001_0000000001_00000010 = some (.srr 0 1 1) := by decide
theorem test_decode_srw : decodeWord 0b0_00_111110_0000000001_00101_00000011 = some (.srw 0 1 5) := by decide
theorem test_decode_halt : decodeWord 0x1F000008 = some (.halt 0 0 0 0) := by decide

/-- Refused (R161): no word of major 0. -/
theorem test_refuse_zero : decodeWord 0 = none := by decide
/-- Refused (R161): nor of major 0x3F. -/
theorem test_refuse_ones : decodeWord 0xFFFFFFFF = none := by decide
/-- Refused (R161): C = 1 on a scalar word. -/
theorem test_refuse_carry : decodeWord 0b1_00_000001_00011_00100_00101_00000000 = none := by decide
/-- Refused (R161): CLZ with a nonzero xb. -/
theorem test_refuse_reserved : decodeWord 0b0_00_000001_00011_00100_00101_00011000 = none := by decide
/-- Refused (R161): offset code 10. -/
theorem test_refuse_offset : decodeWord 0b0_00_100001_00100_00101_00110_10_00_01_01 = none := by decide
/-- Refused (R161): format code 01100. -/
theorem test_refuse_format : decodeWord 0b0_00_011101_00001_00010_01100_00000000 = none := by decide
/-- Refused (R161): an odd pair. -/
theorem test_refuse_odd : decodeWord 0b0_00_110000_10100_01011_01100_1_0000001 = none := by decide

/-! ### Well-formed instructions -/

/-- FCVT has no destination of 8 bits (R186). -/
theorem test_wf_fcvt : (Instr.fcvt 0 1 2 .i8 true).wf = false ∧ (Instr.fcvt 0 1 2 .f64 true).wf = true := by decide
/-- FCVTI has no integer destination (R186). -/
theorem test_wf_fcvti : (Instr.fcvti 0 1 2 .i64 true).wf = false ∧ (Instr.fcvti 0 1 2 .f32 true).wf = true := by decide
/-- Only VFCMP has UN (R219). -/
theorem test_wf_vcmp : (Instr.vcmp false 0 .un 1 2 3).wf = false ∧ (Instr.vfcmp false 0 .un 1 2 3).wf = true := by decide
/-- A pair begins at an even register (R178). -/
theorem test_wf_copyf : (Instr.copyf 0 false 1 3 4).wf = false ∧ (Instr.copyf 0 false 1 4 3).wf = false ∧
    (Instr.copyf 0 false 1 4 6).wf = true := by decide
theorem test_wf_copym : (Instr.copym 0 false 1 3 4).wf = false ∧ (Instr.copym 0 false 1 4 3).wf = true := by decide
theorem test_wf_grows : (Instr.grows 0 false 1 3 4).wf = false ∧ (Instr.grows 0 false 1 4 3).wf = true := by decide
/-- An event has no word. -/
theorem test_wf_event : (Instr.scrub 0).wf = false ∧ (Instr.add 0 1 2 3).wf = true := by decide

/-! ### Small states -/

/-- Buffer 0 of partition 0: 0x10000 to 0x1FFFF, backed in main memory. -/
def tb : Buf := { vbase := 0x10000, size := 0x10000, pa := 0x20000, pb := 0x30000 }
/-- Launch 1 of partition 0, one block, made; its completion word is at 0x10040. -/
def tl : Launch := { desc := { d0 := 0x1000, d4 := 0x10040 }, windows := [0x10000, 16], gx := 1, gy := 1, gz := 1, made := 1, counter := 1 }
/-- Partition 0: cores 0 to 3, the first GiB of main memory, launch queue 0 open. -/
def tp : Part := { qmask := 1, composed := true, tvec := 0x4000, lqopen := 1, qctl := [(0, 0x80)], launches := [(1, tl)], nextId := 2
                   lastInQueue := [(0, 1)], bufs := [(0, tb)], carves := 1, ppb := 0x40000, ppc := 1 }
def tt : Thread := ⟨{ d0 := 0x1000, d3 := 1 }, 0, 1, 0, 1⟩
def tk : Ctx := { x := [(1, 5), (2, 0x10000), (3, 7)], pc := 0x1000, thread := some tt }
/-- The thread of launch 1 at U on context 0, in RUN. -/
def u : State := { ctxs := [(0, tk)], cores := [(0, { halted := false }), (1, { halted := false })], parts := [(0, tp)], mvec := 0x8000
                   woad := { boot := .run } }
def at_ (l : Level) : State := u.setMe fun k => { k with sys := { k.sys with cpl := l } }
/-- Context 0 with a register set. -/
def withX (s : State) (r : Nat) (v : Word) : State := s.setMe fun k => { k with x := tput k.x r v }
def withCtrl (s : State) (f : Ctrl → Ctrl) : State := s.setMe fun k => { k with ctrl := f k.ctrl }
/-- The word w at address 0 of CONFIG (log entry 8). -/
def boot (w : Nat) : State := State.reset.withFetchWord 32 w

/-! ### States that meet the premises of the statements -/

theorem test_meets_scalarInteger : (∃ f, scalarForm (.sub 0 0 2 3) = some f ∧ u.Reads (nums f.srcs)) ∧
    ∃ f, scalarForm (.auipc 3 31 0x20000) = some f ∧ u.Reads (nums f.srcs) := ⟨⟨_, rfl, by decide⟩, _, rfl, by decide⟩
theorem test_meets_scalarDivision : ∃ f, divideForm (.rem 0 1 3 0) = some (1, 3, 0, f) ∧ u.Reads (nums [3, 0]) :=
  ⟨_, rfl, by decide⟩
theorem test_meets_scalarFloat : (∃ f, roundedForm (.fmac 0 1 2 3 true) = some f ∧ u.Reads (nums f.srcs ++ [ctlReg 3, ctlReg 6])) ∧
    ∃ f, exactForm (.fcmpLe 0 1 2 3 false) = some f ∧ u.Reads (nums f.srcs) := ⟨⟨_, rfl, by decide⟩, _, rfl, by decide⟩
theorem test_meets_branches : ∃ c off, branchForm (.bgen 0 1 3 0x200) = some (1, 3, c, off) ∧ u.Reads (nums [1, 3]) :=
  ⟨_, _, rfl, by decide⟩
theorem test_meets_jumps : (u.me.rx 2 + (4 : BitVec 13).signExtend 64).toNat % 4 = 0 ∧ u.Reads (nums [2]) ∧
    (u.me.rx 2 + (3 : BitVec 13).signExtend 64).toNat % 4 ≠ 0 ∧ u.me.sys.cpl = .u ∧ u.me.opened = [] ∧
    (∀ l ∈ [Level.s, .m], ((at_ l).me.rx 2 + (3 : BitVec 13).signExtend 64).toNat % 4 ≠ 0 ∧ (at_ l).me.sys.cpl = l ∧
      (at_ l).me.opened = [] ∧ (at_ l).Reads (nums [2])) := by decide

/-- The bytes of buffer 0 from an offset. -/
def bufLocs (o n : Nat) : List Loc := (List.range n).map fun i => .buf 0 0 (o + i)
theorem at_bufs : AtRest u := ⟨by decide, by decide⟩
/-- Each byte holds what it has held since its only write (05 R119). -/
theorem u_hist : u.histOk := by unfold State.histOk; decide
/-- With no line and no channel failed, no walk reads a lost line. -/
theorem walks_whole (s : State) (va : Word) (n : Nat) (h : s.badLines = []) (g : s.deadChannels = []) : Walks s va n := fun _ _ e _ _ => by
  have k : ∀ i, s.lineDead (stripe e) i = false := fun i => by unfold State.lineDead; rw [h, g]; rfl
  have z : s.deadLines (stripe e) = 0 := by
    unfold State.deadLines
    rw [List.filter_eq_nil_iff.2 fun i _ => by rw [k i]; exact Bool.false_ne_true]
    rfl
  omega
theorem test_meets_loads : (loadForm (.ldW 0 1 2 1) = some (1, 2, 4, 4, false, false) ∧ u.Reads (nums [2]) ∧ u.histOk ∧
      Claims.Access u .read (u.me.rx 2 + 4) 4 (bufLocs 4 4) ∧ Prompt u ((bufLocs 4 4).map u.visible)) ∧
    loadForm (.ldaqD 0 1 2) = some (1, 2, 0, 8, false, true) ∧ Claims.Access u .read (u.me.rx 2 + 0) 8 (bufLocs 0 8) ∧
      Prompt u ((bufLocs 0 8).map u.visible) ∧ (u.me.rx 2 + 0).toNat % 8 = 0 :=
  ⟨⟨rfl, by decide, u_hist, ⟨by decide, by decide, by decide, walks_whole _ _ _ rfl rfl⟩, ⟨by decide, by decide, by decide, rfl, by decide⟩⟩, rfl,
    ⟨by decide, by decide, by decide, walks_whole _ _ _ rfl rfl⟩, ⟨by decide, by decide, by decide, rfl, by decide⟩, by decide⟩
theorem test_meets_stores : (storeForm (.stH 0 1 2 1) = some (1, 2, 2, 2, false) ∧ u.Reads (nums [1, 2]) ∧
      Claims.Access u .write (u.me.rx 2 + 2) 2 (bufLocs 2 2) ∧ Prompt u ((bufLocs 2 2).map u.visible)) ∧
    storeForm (.strlD 0 2 1) = some (1, 2, 0, 8, true) ∧ Claims.Access u .write (u.me.rx 2 + 0) 8 (bufLocs 0 8) ∧
      Prompt u ((bufLocs 0 8).map u.visible) ∧ (u.me.rx 2 + 0).toNat % 8 = 0 ∧ u.performed = true :=
  ⟨⟨rfl, by decide, ⟨by decide, by decide, by decide, walks_whole _ _ _ rfl rfl⟩, ⟨by decide, by decide, by decide, rfl, by decide⟩⟩, rfl,
    ⟨by decide, by decide, by decide, walks_whole _ _ _ rfl rfl⟩, ⟨by decide, by decide, by decide, rfl, by decide⟩, by decide⟩
theorem test_meets_atomics : atomicForm (.amocas 0 1 2 3 false false true) = some (1, 2, 3, false, true, .cas) ∧
    u.Reads (nums [2, 3, 1]) ∧ (u.me.rx 2).toNat % 4 = 0 ∧ Claims.Access u .atomic (u.me.rx 2) 4 (bufLocs 0 4) ∧
    Prompt u ((bufLocs 0 4).map u.visible) ∧ ((bufLocs 0 4).map u.visible).Nodup ∧ u.performed = true ∧
    u.applicableAt 0 {} ((bufLocs 0 4).map u.visible) = true ∧ u.stoppedAhead 0 (some 0) {} ((bufLocs 0 4).map u.visible) = false ∧
    (((bufLocs 0 4).map u.visible).foldl (fun k p => k.join (u.last p).clock) u.me.clock) = {} :=
  ⟨rfl, by decide, by decide, ⟨by decide, by decide, by decide, walks_whole _ _ _ rfl rfl⟩, ⟨by decide, by decide, by decide, rfl, by decide⟩, by decide, by decide,
    by decide, by decide, by decide⟩
theorem test_meets_parameterLoads : windowForm (.ldpW 0 1 0 3) = some (1, 0, 3, 4, false) ∧ u.Reads (nums [3]) ∧
    u.locateIn u.cur 2 0 u.me.sys.cpl .read (u.me.rx 3) 4 = .inl (bufLocs 7 4) ∧ u.isMmio (bufLocs 7 4) = false ∧
    Sound u (((u.launchOf u.cur).window 0).1 + u.me.rx 3) ((bufLocs 7 4).map u.visible) := ⟨rfl, by decide, by decide, by decide, by decide⟩
/-- A FENCE of kind both with a store of the thread's own still in flight before it, and one that has nothing to wait for. -/
def fencing : Fence := { kind := .both, scope := .package, icnt := 0, wic := 1, order := 0, handler := false }
def storing : State := { u.setMe (fun k => { k with wic := 1, fences := [fencing] }) with
  writes := [{ die := 0, num := 1, clock := {}, ctx := 0, parts := [{ locs := bufLocs 0 4, bytes := [1, 2, 3, 4] }], id := 1 }] }
theorem test_meets_fences : u.me.fences = [] ∧ u.fenceMet u.cur { fencing with icnt := u.me.icnt, wic := u.me.wic, order := u.nextOrder } = true ∧
    (storing.setMe fun k => { k with fences := [] }).fenceMet 0 fencing = false ∧ u.me.vq = [] ∧ u.me.opened = [] ∧ u.me.landing = [] ∧
    fencing ∈ storing.me.fences ∧ fencing.icnt.toNat ≤ 1 ∧ fencing.done = false ∧ storing.me.inTrap = false ∧
    (∃ p ∈ (bufLocs 0 4).map storing.visible, fenceCovers fencing.scope storing.cur p = true) := by decide

theorem test_meets_trapsAtUser : u.me.sys.cpl = .u ∧ u.me.opened = [] ∧ decodeWord (0 : BitVec 32).toNat = none := by decide
theorem test_meets_trapsAboveUser : (at_ .s).me.opened = [] ∧ (at_ .s).me.sys.cpl = .s ∧ (at_ .m).me.sys.cpl = .m ∧
    (at_ .m).woad.boot ≠ .config ∧ (boot 0).me.sys.cpl = .m ∧ (boot 0).woad.boot = .config ∧ (boot 0).me.opened = [] := by decide
theorem test_meets_privilegedWords : systemWord (.seqr 0 1 2) = true ∧ u.me.sys.cpl = .u ∧ u.me.opened = [] ∧
    systemWord (.halt 0 1 2 3) = true ∧ (at_ .s).me.sys.cpl = .s ∧ needsM (.halt 0 1 2 3) = true ∧ needsM (.srr 0 1 0x30) = true ∧
    needsM (.srw 0 0x22 1) = true := by decide

/-- A product in x3 that is still in its latency. -/
def late : State := u.setMe fun k => { k with shadow := [⟨3, 1, 0, 3, 0xFFC⟩], pos := 1 }
theorem test_meets_shortDistances : (late.me.opened = [] ∧ late.me.short (nums [1, 3]) = [⟨3, 1, 0, 3, 0xFFC⟩] ∧
      late.me.olds (ctlReg 7) = [] ∧ late.me.ctrl.dchk = 0) ∧
    (withCtrl late fun c => { c with dchk := 1 }).me.ctrl.dchk = 1 ∧ (withCtrl late fun c => { c with dchk := 1 }).me.sys.cpl = .u ∧
    ({ u with badCells := [(4, 0, 3, 0)] } : State).me.short (nums [1, 3]) = [] ∧
    ({ u with badCells := [(4, 0, 3, 0)] } : State).failedScalar (nums [1, 3]) = some 3 ∧ late.failedScalar (nums [1, 3]) = none := by decide
theorem test_meets_controlRegisters : ctlRW 0x14 = true ∧ ctlRO 0x18 = true ∧ ctlRO 0x1B = true ∧ u.Reads [ctlReg 0x14] ∧
    (0x02, (fun (c : Ctrl) => c.vs), (0x7FFFFFFFFFFFFFFF : Word)).1 ∈ controls.map (·.1) ∧ ctlRefused 0x09 (u.me.rx 1) = false ∧
    ctlRefused 0x01 ((5 : BitVec 10).setWidth 64) = false ∧ u.me.vlPending = false ∧ u.Reads [ctlReg 0] ∧
    ctlRefused 0 (u.me.rx 1) = false ∧ ctlRefused 0 0x8000000000001101 = false := by decide
theorem test_meets_systemRegisters : ((at_ .s).me.sys.cpl = .s ∧ needsM (.srr 0 1 2) = false ∧ (at_ .s).Reads [sysReg 2] ∧
      sysValue (at_ .s).me.sys 2 = some 0) ∧ (at_ .m).me.sys.cpl = .m ∧ (at_ .m).Reads [sysReg 0x30] ∧
    (0x30, (at_ .m).mvec) ∈ [(1, ((at_ .m).part (at_ .m).myPart).tvec), (0x20, ((at_ .m).part (at_ .m).myPart).ttb),
      (0x21, ((at_ .m).part (at_ .m).myPart).lqopen), (0x30, (at_ .m).mvec)] ∧
    (needsM (.srw 0 0x21 1) = false ∧ (at_ .s).Reads (nums [1]) ∧ isSysReg 0x21 = true ∧
      (at_ .s).sysRefused 0x21 ((at_ .s).me.rx 1) = false) ∧
    isSysReg 3 = true ∧ isSysReg 0x3F = true ∧ (at_ .s).sysRefused 3 ((at_ .s).me.rx 1) = false ∧ (at_ .s).sysRefused 0 0 = false := by decide

/-- A handler at S, and one at M, that have not claimed. -/
def handler (l : Level) : State := u.setMe fun k => { k with sys := { k.sys with cpl := l, ecause := 0x8000, mcause := 0x8000, mppl := .s } }
def frozen1 : State := (handler .s).setMe fun k => { k with vq := [(handler .s).entry false 0 (.iota 1)] }
theorem test_meets_handlers : ((handler .s).me.sys.cpl = .s ∧ (handler .s).Reads [sysReg 0, sysReg 2] ∧
      (handler .s).me.sys.ecause.getLsbD 15 = true ∧ (handler .s).me.sys.ecause.getLsbD 14 = false ∧ (handler .s).me.sys.epc.toNat % 4 = 0) ∧
    ((handler .m).me.sys.cpl = .m ∧ (handler .m).Reads [sysReg 0, sysReg 0x31] ∧ (handler .m).me.sys.mcause.getLsbD 15 = true ∧
      (handler .m).me.sys.mcause.getLsbD 14 = false ∧ (handler .m).me.sys.mepc.toNat % 4 = 0) ∧
    ((at_ .s).me.sys.cpl ≠ .u ∧ (at_ .s).me.claimable = false) ∧
    (frozen1.me.sys.cpl = .s ∧ frozen1.me.claimable = true ∧ frozen1.quiescent frozen1.cur = true) := by decide
theorem test_meets_trapThenReturn : u.me.sys.cpl = .u ∧ u.me.opened = [] ∧ u.me.pc.toNat % 4 = 0 := by decide

def qe (d0 : Word) : QEntry := ⟨{ d0 := d0, d3 := 1 }, 0, 0, {}, none, 0⟩
def withCore (s : State) (f : Core → Core) : State := s.setCore 0 f
/-- A full queue, and no ring. -/
def fullQ : State := withCore u fun k => { k with queue := List.replicate 32 (qe 0) }
theorem test_meets_taskPush : (pushForm u (.qpush 0 1) = some 1 ∧ Settled u ∧ badRecord (recordOf u.me) = false ∧ Room u 0) ∧
    pushForm (withX u 3 0) (.qpushC 0 1 3) = some 1 ∧ ¬ Room fullQ 0 ∧ pushForm fullQ (.qpush 0 1) = some 1 ∧
    (withX u 3 1).me.rx 3 ∈ [(1 : Word)] ∧ 1 ∈ u.coresOf u.myPart ∧ 1 ≠ coreOf u.cur ∧ (u.core 1).halting = false ∧
    (u.core 1).halted = false := by unfold Settled Room; decide
/-- A queue whose second record is the thread's own. -/
def queued : State := withCore u fun k => { k with queue := [⟨{ d3 := 2 }, 0, 0, {}, none, 0⟩, qe 0x1000] }
theorem test_meets_taskPop : ((queued.core 0).fifo = [⟨{ d3 := 2 }, 0, 0, {}, none, 0⟩] ++ qe 0x1000 :: [] ∧
      (∀ x ∈ [(⟨{ d3 := 2 }, 0, 0, {}, none, 0⟩ : QEntry)], ¬ mine queued x) ∧ mine queued (qe 0x1000) ∧
      queued.ackedTo (qe 0x1000).prod (qe 0x1000).wic = true) ∧ ∀ x ∈ (u.core 0).fifo, ¬ mine u x := by unfold mine; decide

/-- A join block at buffer 0 whose counter is n. -/
def joined (n : Nat) : State := withX { u with mem := if n = 0 then [] else [(0x20000, BitVec.ofNat 8 n)] } 2 0x10000
def joinPas : List Nat := (List.range 72).map fun i => 0x20000 + i
theorem test_meets_join : ∀ n ∈ [0, 1, 2], Settled (joined n) ∧ ((joined n).me.rx 2).toNat % 8 = 0 ∧
    (joined n).probeJoin ((joined n).me.rx 2) = .inl joinPas ∧ joinPas.Nodup ∧ Sound (joined n) ((joined n).me.rx 2) joinPas ∧
    (joined n).performed = true ∧ (joined n).joinRoom 0 = true ∧ (joined n).atomicServable joinPas = true ∧ Live (joined n) ∧
    leNat ((joinPas.take 8).map fun p => ((joined n).last p).val) = n := by unfold Settled Live; decide +kernel
/-- The launch as the successor of launch 5, whose STAT it may know. -/
def after5 (stat : Nat) : State := { u with parts := [(0, { tp with launches := [(1, { tl with pred := some 5, predStat := stat })] })] }
theorem test_meets_earlyAndPwait : u.me.thread = some tt ∧ (u.launch tt.part tt.lid).pred = none ∧ (after5 1).me.thread = some tt ∧
    ((after5 1).launch tt.part tt.lid).pred ≠ none ∧ ((after5 1).launch tt.part tt.lid).predStat ≠ 0 ∧
    ((after5 0).launch tt.part tt.lid).predStat = 0 := by decide
/-- A thread whose record names a join block at 0x10100. -/
def joiner : Thread := { tt with r := { tt.r with d2 := 0x10100 } }
def ending : State := u.setMe fun k => { k with thread := some joiner }
theorem test_meets_end : (u.me.thread = some tt ∧ u.endReady = true ∧
      u.probeRW (u.launchOf u.cur).level (u.launchOf u.cur).cword 8 = .inl (span 0x20040 8) ∧ tt.r.d2 = 0 ∧ (span 0x20040 8 ++ []).Nodup ∧
      Sound u (u.launchOf u.cur).cword (span 0x20040 8) ∧ (u.launchOf u.cur).cancelled = false ∧ u.atomicServable (span 0x20040 8) = true) ∧
    ending.me.thread = some joiner ∧ ending.endReady = true ∧ joiner.r.d2 ≠ 0 ∧ joiner.r.d2.toNat % 8 = 0 ∧
    ending.probeRW ending.me.sys.cpl joiner.r.d2 80 = .inl (span 0x20100 80) ∧ (span 0x20040 8 ++ span 0x20100 80).Nodup ∧
    Sound ending joiner.r.d2 (span 0x20100 80) ∧ ending.atomicServable (span 0x20100 80) = true := by decide +kernel

/-- A launch descriptor at 0x10000, of a grid of 1 by 1 by 1 with its completion word at 0x10040, and queue 0. -/
def launching : State := withX { u with mem := [(0x20001, 0x10), (0x20010, 1), (0x20014, 1), (0x20018, 1), (0x20020, 0x40), (0x20022, 0x01)] } 3 0
def launchDesc : Rec8 := { d0 := 0x1000, d2 := 0x100000001, d3 := 1, d4 := 0x10040 }
def readBy (s : State) : State := match s.fetchDwords (s.me.rx 2) 8 with | .vals _ t => t | _ => s
theorem test_meets_launch : Settled launching ∧ (launching.me.rx 3).toNat < 64 ∧ ((launching.part 0).lqopen.getLsbD 0 = true) ∧
    (launching.me.rx 2).toNat % 64 = 0 ∧ LaunchRead launching (launching.me.rx 2) launchDesc [] (1, 1, 1) [] (readBy launching) ∧
    (readBy launching).accepts launching.myPart 0 = true ∧ (launching.part 0).lqopen.getLsbD 1 = false ∧ launching.me.opened = [] :=
  ⟨by unfold Settled; decide, by decide, by decide, by decide,
    ⟨by decide, ⟨_, readBy launching, readBy launching, rfl, by decide, by rw [if_pos (by decide)]; exact ⟨rfl, rfl⟩,
      by rw [if_neg (by decide)]; exact ⟨rfl, by rw [if_pos (by decide)]; exact ⟨rfl, rfl⟩⟩, ⟨_, rfl⟩⟩, by decide⟩, by decide, by decide, by decide⟩
/-- The same with a launch of another job beside the thread's. -/
def jobs : State := { u with parts := [(0, { tp with launches := [(1, tl), (2, { tl with job := 7 })] })] }
theorem test_meets_levels : Settled u ∧ jobs.levelPriv jobs.myPart (jobs.levelOf .job 7) false = true ∧ countForm (.hcntL 0 1 2) = some (1, 2, .launch) ∧ u.levelPriv u.myPart (u.levelOf .launch 1) false = false ∧
    cancelForm (.hcanP 0 1 2) = some (1, 2, .phase) ∧
    u.levelPriv u.myPart (u.levelOf .phase 1) true = true ∧ u.levelPriv u.myPart (u.levelOf .launch 2) true = false ∧
    u.levelExists u.myPart (u.levelOf .launch 2) = false ∧ u.levelExists u.myPart (u.levelOf .launch 1) = true ∧
    u.levelHolds (u.levelOf .launch 1) = true ∧
    (at_ .s).levelPriv u.myPart ((at_ .s).levelOf .job 0) true = false ∧ (at_ .s).levelExists u.myPart ((at_ .s).levelOf .job 0) = true := by unfold Settled; decide

/-- Slot 0 of core 0 holds an operation of the thread in a state; x1 names it, and x3 is a mask of it. -/
def holds (x : Slot) : State := withX (withX (withCore u fun k => { k with slots := [(0, x)] }) 1 0x4000) 3 1
def op1 : EngOp := { kind := .copy, ctx := 0, lid := 1, part := 0, uid := 1 }
def mineIn (st : SlotState) : Slot := { st := st, owner := some 0, op := op1 }
theorem test_meets_tokenWaits :
    (Settled (holds (mineIn .done)) ∧ Fresh (holds (mineIn .done)) 0x4000 ∧
      (holds (mineIn .done)).ownsSlot (slotOf (holds (mineIn .done)) 0x4000) = true ∧ (slotOf (holds (mineIn .done)) 0x4000).st.terminal = true) ∧
    (slotOf (holds (mineIn .running)) 0x4000).st.terminal = false ∧ u.masked 5 = [] ∧ (holds (mineIn .faulted)).maskedEnded 1 = 0 :: [] ∧
    (holds (mineIn .running)).masked 1 ≠ [] ∧ (holds (mineIn .running)).maskedEnded 1 = [] ∧
    ((holds (mineIn .done)).masked 1).all (fun e => e.2.st.terminal) = true ∧
    ((holds (mineIn .running)).masked 1).all (fun e => e.2.st.terminal) = false := by unfold Settled Fresh; decide
theorem test_meets_staleTokens : Settled u ∧ u.badToken 0x4000 = false ∧ (slotOf u 0x4000).st = .free ∧
    (slotOf (holds (mineIn .done)) 0x8000).gen ≠ fldW (0x8000 : Word) 14 24 ∧ u.me.sys.cpl = .u ∧ u.me.opened = [] := by
  unfold Settled; decide
theorem test_meets_tokenControl :
    (∀ t ∈ [SlotState.waiting, .running, .done, .faulted], Settled (holds (mineIn t)) ∧ Fresh (holds (mineIn t)) 0x4000 ∧
      (slotOf (holds (mineIn t)) 0x4000).op.job = (holds (mineIn t)).myJob ∧ (slotOf (holds (mineIn t)) 0x4000).op.part = u.myPart ∧
      (holds (mineIn t)).ownsSlot (slotOf (holds (mineIn t)) 0x4000) = true ∧ (slotOf (holds (mineIn t)) 0x4000).detached = false) ∧
    (slotOf (holds (mineIn .running)) 0x4000).st.terminal = false ∧ (slotOf (holds (mineIn .running)) 0x4000).owner ≠ none ∧
    (slotOf (holds { mineIn .running with detached := true }) 0x4000).detached = true ∧
    (slotOf (holds { mineIn .orphaned with owner := none }) 0x4000).st = .orphaned ∧ (slotOf (holds (mineIn .parked)) 0x4000).st = .parked := by
  unfold Settled Fresh; decide
/-- A range of chunks at the end of the map: the last, and one past it. -/
theorem test_meets_chunks : (¬ (fldW (0x000117FF : Word) 13 3 ≠ 0 ∨ fldW (0x000117FF : Word) 29 35 ≠ 0 ∨ fldW (0x000117FF : Word) 16 13 = 0 ∨
      6144 < fldW (0x000117FF : Word) 0 13 + fldW (0x000117FF : Word) 16 13)) ∧ (BitVec.allOnes 6144).getLsbD 6143 = true ∧
    (0 : BitVec 6144).getLsbD 6143 = false ∧ (u.core 0).chunks = BitVec.allOnes 6144 ∧
    6144 < fldW (0x000217FF : Word) 0 13 + fldW (0x000217FF : Word) 16 13 ∧ (6143 : Word).toNat < 6144 ∧ 6144 ≤ (6144 : Word).toNat :=
  ⟨by decide, by simp, by simp, rfl, by decide, by decide, by decide⟩

theorem test_meets_translation :
    (∀ k ∈ [0, 1], Settled (at_ .s) ∧ fldW (BitVec.ofNat 64 k) 2 62 = 0 ∧ fldW (BitVec.ofNat 64 k) 0 2 ≠ 3 ∧ (at_ .s).me.sys.cpl = .s ∧
      fldW (BitVec.ofNat 64 k) 0 2 ≠ 2 ∧ (at_ .s).tlbiReady k = true) ∧
    ((at_ .m).me.sys.cpl = .m ∧ fldW (2 : Word) 2 62 = 0 ∧ fldW (2 : Word) 0 2 = 2 ∧ (at_ .m).tlbiReady 2 = true) ∧
    ((at_ .s).setMe fun k => { k with wic := 1 }).tlbiReady 0 = false ∧
    fldW (0x59F : Word) 0 8 < 160 ∧ fldW (0x59F : Word) 8 3 < 6 ∧ fldW (0x59F : Word) 11 53 = 0 := by unfold Settled; decide

/-- Firmware at M on context 0, with a second partition of core 4 to 7 that has a launch and a thread. -/
def two : State := { at_ .m with
  parts := [(0, tp), (1, { qmask := 2, composed := true, launches := [(1, tl)] })]
  ctxs := [(0, (at_ .m).me), (16, { thread := some { tt with part := 1, uid := 2 } })]
  cores := [(0, { halted := false }), (4, { halted := false })] }
def parked (b : Bool) : State := two.setPart 1 fun q => { q with parked := b }
theorem test_meets_coreAndPartition : Settled two ∧ two.me.sys.cpl = .m ∧
    ((two.core 159).halted = true ∧ (two.core 159).stopped = false) ∧ (two.core 4).halted = false ∧ (two.core 4).stopped = false ∧
    two.haltReady 4 = false ∧ (two.setCtx 16 fun k => { k with thread := none }).haltReady 4 = true ∧
    (parked false).part 1 = two.part 1 ∧ ((parked true).part 1).parked = true ∧ (∀ im ∈ ((parked true).part 1).images, im.park = true → im.ctx ≠ 0) ∧
    two.hasWork 39 = false ∧ two.hasWork 1 = true ∧ two.me.thread = some tt ∧ tt.part ≠ 1 := by unfold Settled; decide

/-- A supervisor at S with an area at 0x40000 and context 1 named in x1; the area holds a valid image of a thread of context 1. -/
def im1 : Image := { pa := 0x40000, ctx := 1, lid := 1, pool := none, park := false, holds := false, eff := 0, uid := 2 }
def saver : State := withX (withX (at_ .s) 1 1) 2 0x40000
def loader : State := { saver with
  parts := [(0, { tp with images := [im1] })]
  mem := [(0x51E40, 0x17), (0x51E41, 0x5A), (0x51E42, 0x05), (0x51E98, 1)] }
theorem test_meets_contextMoves : Settled saver ∧ saver.me.sys.cpl ≠ .u ∧ saver.badTarget (saver.me.rx 1) (saver.me.rx 2) = none ∧
    (saver.ctx 1).thread = none ∧ (∀ i ∈ (saver.part saver.myPart).images, i.pa ≠ 0x40000 ∨ i.ctx ≠ 1) ∧
    ((saver.setCtx 1 fun k => { k with thread := some tt }).ctx 1).thread ≠ none ∧
    ((saver.setCtx 1 fun k => { k with thread := some tt }).ctx 1).saving = none ∧
    loader.badTarget (loader.me.rx 1) (loader.me.rx 2) = none ∧ (loader.ctx 1).thread = none ∧
    ((loader.part loader.myPart).images.find? fun i => i.pa = 0x40000 && i.ctx = 1) = some im1 ∧
    loader.imageValid loader.myPart 1 0x40000 = true := by unfold Settled; decide

/-- A supervisor with a buffer descriptor at 0x10000, for entry 1 at a base. -/
def setting (base : Byte) : State := withX (withX { at_ .s with
  mem := [(0x20000, 1), (0x20002, base), (0x2000A, 1), (0x20012, 6), (0x2001A, 7)] } 1 1) 2 0x10000
def bufDesc (base : Nat) : List Word := [BitVec.ofNat 64 (base * 65536 + 1), 0x10000, 0x60000, 0x70000]
def isVals (g : Got (List Word)) (l : List Word) : Bool := match g with | .vals m _ => m = l | _ => false
def busy : State := (setting 5).setCore 0 fun k => { k with slots := [(3, { st := .running, owner := some 0, op := { kind := .publish, xa := 1, part := 0 } })] }
theorem test_meets_bufferTable : Settled (setting 5) ∧ (setting 5).me.sys.cpl ≠ .u ∧ fldW ((setting 5).me.rx 1) 9 55 = 0 ∧
    ((setting 5).me.rx 2).toNat % 8 = 0 ∧ ((setting 5).me.rx 1).getLsbD 8 = false ∧
    isVals ((setting 5).fetchDwords ((setting 5).me.rx 2) 4) (bufDesc 5) = true ∧ (setting 5).badBuf (setting 5).myPart (bufDesc 5) = false ∧
    (setting 5).bufBusy 0 1 = false ∧ ((setting 5).part 0).bufMeets 1 0x50000 0x10000 = false ∧
    isVals ((setting 1).fetchDwords ((setting 1).me.rx 2) 4) (bufDesc 1) = true ∧ ((setting 1).part 0).bufMeets 1 0x10000 0x10000 = true ∧
    busy.bufBusy 0 1 = true ∧ (0x101 : Word).getLsbD 8 = true ∧
    (setting 5).locate 0 0 (setting 5).me.sys.cpl .write true 0x10000 32 = .inl (bufLocs 0 32) ∧
    (setting 5).isMmio (bufLocs 0 32) = false ∧ ((bufLocs 0 32).map (setting 5).visible).Nodup := by unfold Settled; decide
theorem test_meets_composition : (withX (at_ .m) 1 0x201).woad.boot ≠ .config ∧ Settled (withX (at_ .m) 1 0x201) ∧
    (withX (at_ .m) 1 0x201).me.sys.cpl = .m ∧
    (withX (at_ .m) 1 0x201).partRefused (withX (at_ .m) 1 0x201).myPart ((withX (at_ .m) 1 0x201).me.rx 1) = false ∧
    ¬ quadCores (BitVec.ofNat 40 2 ^^^ 0) (coreOf 0) ∧ u.partRefused (u.partOf (coreOf 0)) 0x201 = false := by
  unfold Settled quadCores; decide

def copies : State := withCtrl u fun c => { c with vl := 1, csh := 0x100000004 }
theorem test_meets_engines : ∀ i ∈ [Instr.copy 0 false 1 2 3, .copyf 0 false 1 4 6, .copym 0 false 1 4 0, .publish 0 false 1 0, .mma 0 false 1 0 0,
      .mmas 0 false 1 0 0, .mclr 0 false 1, .mrd 0 false 1 0, .credSum 0 false 1 2 3, .cgat 0 false 1 2 3, .cbc 0 false 1 2 3, .cbar 0 false 1,
      .train 0 false 1 2 3, .migrOut 0 false 1 0 0, .migrIn 0 false 1 0 0], i.wf = true ∧ ∃ f, engineForm copies i = some f ∧ f.p = false := by
  simp only [List.mem_cons, List.not_mem_nil, or_false, forall_eq_or_imp, forall_eq]
  refine ⟨?_, ?_, ?_, ?_, ?_, ?_, ?_, ?_, ?_, ?_, ?_, ?_, ?_, ?_, ?_⟩ <;> exact ⟨by decide, _, rfl, rfl⟩
/-- The same with MSH.SP = 1. -/
def sparse : State := withCtrl copies fun c => { c with msh := c.msh ||| 0x800000000 }
theorem test_meets_engineChecks : Settled copies ∧ copyFits copies.me ∧ quietVector copies.me ∧ collectiveLegal copies.me ∧
    copies.freeSlots 0 ≠ [] ∧ (copies.withMatrix { copies.capture .copym 0 0 with xa1 := 0 }).mmaRefused = none ∧
    (copies.withMatrix (copies.capture .mma 0 0)).mmaRefused = none ∧ (sparse.withMatrix (sparse.capture .mmas 0 0)).mmaRefused = none ∧
    mftC copies.me.ctrl.mft = .f32 ∧ badCell (copies.withMatrix (copies.capture .mrd 0 0)).dim .f32 = false ∧
    8 ≤ (format copies.me).width ∧ vlFits (format copies.me).width copies.me.ctrl.vl = true ∧ copies.me.vlPending = false ∧
    ({ copies.capture .train 0 0 with brickA := copies.me.brick 2, brickB := copies.me.brick 3
                                      mask := copies.me.mask (fldW copies.me.ctrl.vm 0 3) }.actives.all (· < 256)) = true ∧
    thas (copies.part copies.myPart).bufs 0 = true := by unfold Settled copyFits quietVector collectiveLegal; decide +kernel
/-- GROWS counts rows in an integer format (10 R256). -/
theorem test_meets_grows : let s := withCtrl copies fun c => { c with vt := 4 }
    (Instr.grows 0 false 1 4 3).wf = true ∧ (∃ f, engineForm s (.grows 0 false 1 4 3) = some f ∧ f.p = false) ∧ s.me.frozen = false ∧
    format s.me = .i32 ∧ vlFits (format s.me).width s.me.ctrl.vl = true := ⟨by decide, ⟨_, rfl, rfl⟩, by decide, by decide, by decide⟩
/-- Every slot taken: by operations that end by themselves, or detached ones of the thread's own launch. -/
def taken (b : Bool) : State := withCore copies fun k => { k with
  slots := (List.range 64).map fun i => (i, { mineIn .running with detached := b, owner := if b then none else some 0 }) }
theorem test_meets_engineFull : (taken false).freeSlots 0 = [] ∧ (taken false).slotsStuck 0 = false ∧ (taken true).freeSlots 0 = [] ∧
    (taken true).slotsStuck 0 = true ∧ (taken true).me.sys.cpl = .u ∧ (taken true).me.opened = [] := by decide

/-- The thread with VL = 2 and a sequencer that runs at once. -/
def lane : State := { withCtrl u fun c => { c with vl := 2 } with prompt := true }
theorem test_meets_vectorQueues : laneOp (.vadd true 0 1 2 3) = some (true, 0, .int .add 1 2 3) ∧ isLength (.int .add 1 2 3) = false ∧
    Settled u ∧ u.me.vlPending = false ∧ u.me.opened = [] ∧ u.me.frozen = false ∧ u.me.queueFull .load = false ∧ u.prompt = false ∧
    (u.setMe fun k => { k with vq := List.replicate 16 (u.entry false 0 (.iota 1)) }).me.queueFull .arith = true ∧
    laneOp (.vsetl false 0 1 2) = some (false, 0, .setl 1 2) ∧ u.me.queueFull .arith = false ∧
    fldW (0x1101 : Word) 0 8 ≠ 0 ∧ fldW (0x1101 : Word) 8 4 ≠ 0 ∧ fldW (0x1101 : Word) 12 4 ≠ 0 ∧ fldW (0x1001 : Word) 8 4 = 0 ∧
    u.me.sys.cpl = .u := by unfold Settled; decide

/-- The same with another format in VT (04 R80). -/
def laneT (t : Word) : State := withCtrl lane fun c => { c with vt := t }
/-- Words that the state can start. -/
theorem lane_startable (s : Fin 4) (op : VOp) (h : lane.operandChecks lane.cur (laneWord lane s op) (laneWord lane s op).on = []) :
    Startable lane s op := ⟨rfl, by decide, by decide, rfl, by unfold Settled; decide, h⟩
theorem test_meets_laneArithmetic : (∃ d res, arithmetic lane.me (laneWord lane 0 (.fp .mac 1 2 3)) = some (d, res) ∧
      laneOp (.vfmac false 0 1 2 3) = some (false, 0, .fp .mac 1 2 3) ∧ Startable lane 0 (.fp .mac 1 2 3)) ∧
    ∃ d on res, testing lane.me (laneWord lane 0 (.mask .xor 1 2 3)) = some (d, on, res) ∧
      laneOp (.mxor false 0 1 2 3) = some (false, 0, .mask .xor 1 2 3) ∧ Startable lane 0 (.mask .xor 1 2 3) :=
  ⟨⟨_, _, rfl, rfl, lane_startable _ _ (by decide)⟩, _, _, _, rfl, rfl, lane_startable _ _ (by decide)⟩
theorem test_meets_laneIntegers : Fmt.i8.isInt = true ∧ 255 < 2 ^ Fmt.i8.width ∧ 128 < 2 ^ Fmt.n8.width := by decide
theorem test_meets_laneMoves : (∃ d on res, moved lane.me (laneWord lane 0 (.slup 1 2 3)) = some (d, on, res) ∧ Startable lane 0 (.slup 1 2 3)) ∧
    Startable lane 0 (.comp 1 2) ∧ Startable (laneT 3) 0 (.tbl 1 2 true 0 0xA5) :=
  ⟨⟨_, _, _, rfl, lane_startable _ _ (by decide)⟩, lane_startable _ _ (by decide),
    ⟨rfl, by decide, by decide, rfl, by unfold Settled; decide, by decide⟩⟩
theorem test_meets_reductions : laneOp (.vrsum false 0 1 2) = some (false, 0, .red .sum 1 2) ∧ Startable lane 0 (.red .sum 1 2) ∧
    Startable lane 0 (.scan 1 2) := ⟨rfl, lane_startable _ _ (by decide), lane_startable _ _ (by decide)⟩
/-- The indices that these words take from x0: the first element, and the first dword of a mask. -/
theorem test_meets_elementMoves : Startable lane 0 (.ext 1 2 0) ∧ Startable lane 0 (.ins 1 2 0) ∧ Startable lane 0 (.mpopc 1 2) ∧
    Startable lane 0 (.mffs 1 2) ∧ Startable lane 0 (.mset 1 2 0) ∧ Startable lane 0 (.mget 1 2 0) ∧ Startable lane 0 (.nbset 1 0 0) ∧
    Startable lane 0 (.nbget 1 2 3) :=
  ⟨lane_startable _ _ (by decide), lane_startable _ _ (by decide), lane_startable _ _ (by decide), lane_startable _ _ (by decide),
    lane_startable _ _ (by decide), lane_startable _ _ (by decide), lane_startable _ _ (by decide), lane_startable _ _ (by decide)⟩
/-- An offset of 0 finds every neighbour in the brick itself. -/
theorem test_meets_offsets : Startable lane 0 (.off true .add 1 2 3 .zero .zero .zero) ∧
    ∃ links, lane.prepare lane.cur (lane.entry false 0 (.off true .add 1 2 3 .zero .zero .zero)) =
        ({ laneWord lane 0 (.off true .add 1 2 3 .zero .zero .zero) with res := links }, []) ∧ links ≠ [] ∧
      ∀ x ∈ links, x.2 = .fill ∨ x.2 = .reg lane.cur 2 x.1 :=
  ⟨lane_startable _ _ (by decide +kernel), (lane.prepare lane.cur (lane.entry false 0 (.off true .add 1 2 3 .zero .zero .zero))).1.res,
    by decide +kernel, by decide +kernel, by decide +kernel⟩

/-- The locations that a word's probe finds in the state. -/
def probed (op : VOp) : Table (List Loc) := (lane.prepare lane.cur (lane.entry false 0 op)).1.locs
theorem lane_rest : AtRest lane := ⟨by decide, by decide⟩
theorem test_meets_vectorLoads : laneOp (.vld false 0 1 2 0) = some (false, 0, .ld .space 1 2 0) ∧ Startable lane 0 (.ld .space 1 2 0) ∧
    AtRest lane ∧ Probed lane 0 (.ld .space 1 2 0) (probed (.ld .space 1 2 0)) ∧ (probed (.ld .space 1 2 0)).length = 2 ∧
    Startable lane 0 (.ldi 1 2 4) ∧ Probed lane 0 (.ldi 1 2 4) (probed (.ldi 1 2 4)) :=
  ⟨rfl, lane_startable _ _ (by decide +kernel), lane_rest, by unfold Probed; decide +kernel, by decide +kernel,
    lane_startable _ _ (by decide +kernel), by unfold Probed; decide +kernel⟩
theorem test_meets_vectorStores : (VOp.st .space 1 2 0).isLoose = false ∧ (VOp.st .cross 1 2 0).isLoose = true ∧
    Startable lane 0 (.st .space 1 2 0) ∧ Probed lane 0 (.st .space 1 2 0) (probed (.st .space 1 2 0)) ∧
    Startable lane 0 (.st .cross 1 2 0) ∧ Probed lane 0 (.st .cross 1 2 0) (probed (.st .cross 1 2 0)) ∧
    Startable lane 0 (.stia 1 2 4) ∧ Probed lane 0 (.stia 1 2 4) (probed (.stia 1 2 4)) :=
  ⟨rfl, rfl, lane_startable _ _ (by decide +kernel), by unfold Probed; decide +kernel, lane_startable _ _ (by decide +kernel),
    by unfold Probed; decide +kernel, lane_startable _ _ (by decide +kernel), by unfold Probed; decide +kernel⟩
/-- The table of A1 after reset (04 R106) in memory at 0x20000, and a state in format n64 for WAITV. -/
def tabled : State := { lane with mem := ((span 0x20000 72).zip (leBytes 72 (lane.me.table 1).toNat)).filter fun e => e.2 ≠ 0 }
def waiting : State := (laneT 7).setMe fun k => { k with b := [(1, 0x100000000000000010000)] }
theorem test_meets_table : badTable (BitVec.ofNat 576 (leNat ((span 0x20000 72).map tabled.peek))) = false := by decide +kernel
theorem test_meets_waitv : Startable waiting 0 (.waitv 4 1 2 3) ∧
    ∃ locs, waiting.prepare waiting.cur (waiting.entry false 0 (.waitv 4 1 2 3)) = ({ laneWord waiting 0 (.waitv 4 1 2 3) with locs := locs }, []) :=
  ⟨⟨rfl, by decide, by decide, rfl, by unfold Settled; decide, by decide +kernel⟩,
    (waiting.prepare waiting.cur (waiting.entry false 0 (.waitv 4 1 2 3))).1.locs, by decide +kernel⟩
theorem test_meets_vectorMemoryOthers : (Startable lane 0 (.ald 1 2) ∧ Probed lane 0 (.ald 1 2) (probed (.ald 1 2))) ∧
    (Startable lane 0 (.scld 1 2 3) ∧ Probed lane 0 (.scld 1 2 3) (probed (.scld 1 2 3))) ∧
    (Startable lane 0 (.lda 1 2 0) ∧ Probed lane 0 (.lda 1 2 0) (probed (.lda 1 2 0))) ∧
    (Startable lane 0 (.gathb 1 2 4 5) ∧ Probed lane 0 (.gathb 1 2 4 5) (probed (.gathb 1 2 4 5))) :=
  ⟨⟨lane_startable _ _ (by decide +kernel), by unfold Probed; decide +kernel⟩, ⟨lane_startable _ _ (by decide +kernel), by unfold Probed; decide +kernel⟩,
    ⟨lane_startable _ _ (by decide +kernel), by unfold Probed; decide +kernel⟩, ⟨lane_startable _ _ (by decide +kernel), by unfold Probed; decide +kernel⟩⟩

/-- A numbered write of four bytes in flight, and a loose one. -/
def w1 : Write := { die := 0, num := 1, clock := {}, ctx := 0, parts := [{ locs := bufLocs 0 4, bytes := [1, 2, 3, 4] }], id := 1 }
def l1 : Loose := ⟨{ locs := bufLocs 8 2, bytes := [5, 6] }, 0⟩
def flying : State := { u.setMe (fun k => { k with wic := 1, loose := [l1] }) with writes := [w1], issued := { c0 := 1 } }
def w2 : Write := { w1 with clock := { c1 := 5 } }
theorem test_meets_writes : Whole flying ∧ flying.stoppedAhead 0 (some 0) {} ((bufLocs 0 4).map flying.visible) = false ∧ flying.writes[0]? = some w1 ∧ w1.parts[0]? = some { locs := bufLocs 0 4, bytes := [1, 2, 3, 4] } ∧
    ((bufLocs 0 4).map flying.visible).Nodup ∧ flying.applicable w1 ((bufLocs 0 4).map flying.visible) = true ∧
    flying.inOrder 0 w1 (w1.parts.take 0) { locs := bufLocs 0 4, bytes := [1, 2, 3, 4] } = true ∧
    { flying with writes := [w2] }.applicable w2 ((bufLocs 0 4).map flying.visible) = false ∧
    (flying.ctx 0).loose[0]? = some l1 ∧ (flying.ctx 0).vq = [] ∧ ((bufLocs 8 2).map flying.visible).Nodup ∧ l1.part.bytes.length = 2 ∧
    { w1 with parts := [] }.growing = false ∧ Clear flying 32 ∧ flying.fabric = [] ∧
    ({ flying with links := [(dieLink 0 1, { failed := true })] } : State).links ≠ [] := by unfold Whole Clear; decide
/-- The thread waits. -/
def waits (s : State) (w : Wait) : State := s.setMe fun k => { k with wait := some w }
theorem test_meets_waits :
    (let s := waits u (.read 1 ⟨4, false⟩ 0x10000 (bufLocs 0 4) false)
     s.ctxRuns 0 = true ∧ (seenBy s 0).readReady (bufLocs 0 4) = true ∧ s.histOk ∧ (s.ctx 0).fences = [] ∧
      Sound (seenBy s 0) 0x10000 ((bufLocs 0 4).map s.visible) ∧ (bufLocs 0 4).length = 4) ∧
    reissues (waits u (.queue [.load])) 0 (.queue [.load]) ∧ reissues (waits u .slot) 0 .slot ∧
    (let s := waits (holds (mineIn .done)) (.token 2 0 0 1 9)
     s.ctxRuns 0 = true ∧ (s.slot 0 0).gen = 1 ∧ (s.slot 0 0).st.terminal = true ∧ (seenBy s 0).ownsSlot (s.slot 0 0) = true) ∧
    ((waits u .stall).ctx 0).vq = [] ∧ ((waits u .stall).ctx 0).opened = [] ∧ ((waits u .stall).ctx 0).landing = [] ∧
    timedOut (waits (holds (mineIn .running)) (.token 2 0 0 1 9)) 0 (.token 2 0 0 1 9) = some (2, 3) ∧
    timedOut (waits (holds (mineIn .running)) (.all 2 1 9)) 0 (.all 2 1 9) = some (2, 2) := by
  unfold State.histOk reissues; decide

/-- A queued VADD, not started and started, and one that a fault of the operand check will stop (VT of a float format). -/
def ve (op : VOp) : VEntry := (laneT 4).entry false 0 op
def qd (es : List VEntry) : State := (laneT 4).setMe fun k => { k with vq := es }
def begunE : VEntry := { ((qd []).prepare 0 (ve (.int .add 1 2 3))).1 with started := true }
theorem test_meets_sequencer : (qd [ve (.int .add 1 2 3)]).vecRuns 0 = true ∧ firstConvoy ((qd [ve (.int .add 1 2 3)]).ctx 0).vq = [ve (.int .add 1 2 3)] ∧
    ((qd [ve (.int .add 1 2 3)]).prepare 0 (ve (.int .add 1 2 3))).2 = [] ∧ bitW ((qd []).ctx 0).ctrl.dchk 0 = false ∧
    (((qd []).prepare 0 (ve (.fp .add 1 2 3))).2.map fun f => f.2.1) = [Code.illop] ∧ ((qd []).ctx 0).sys.cpl = .u ∧
    (qd [begunE]).vecRuns 0 = true ∧ begunE.started = true ∧ begunE.op.solo = false ∧ ((qd [begunE]).ctx 0).vq ≠ [] ∧
    dueAt 0 ((qd [begunE]).convoy 0) = [(0, 0)] ∧ ((qd [begunE]).convoy 0) = [(begunE, 0)] ∧ (qd [begunE]).groupReady 0 begunE 0 = true := by
  decide +kernel
/-- A word that needs a group of context 1's brick 3, and a group that lands. -/
def farE : VEntry := { begunE with res := [(0, .reg 1 3 0)] }
def landE : VEntry := { ((lane.prepare lane.cur (lane.entry false 0 (.lda 1 2 0))).1) with started := true }
def landing1 : State := lane.setMe fun k => { k with landing := [⟨1, 0, landE, [], []⟩], landed := [(1, 0xFE)] }
/-- The head words of the queue, not started and started (09 R210). -/
theorem test_meets_headWord : HeadWord (qd [ve (.int .add 1 2 3)]) 0 (ve (.int .add 1 2 3)) .add 1 2 3 ∧ HeadWord (qd [begunE]) 0 begunE .add 1 2 3 ∧
    begunE.late = false ∧ begunE.olds = [] ∧ ((qd [begunE]).ctx 0).landing = [] ∧ begunE.groups[begunE.prog]? = some 0 ∧
    begunE.prog ≤ ((qd [begunE]).ctx 0).vstep ∧ markLate [] (firstConvoy ((qd [ve (.int .add 1 2 3)]).ctx 0).vq) = [ve (.int .add 1 2 3)] ∧
    ((qd []).ctx 0).indexLanded begunE = true :=
  ⟨⟨by decide +kernel, by decide +kernel, rfl, by decide +kernel⟩, ⟨by decide +kernel, by decide +kernel, rfl, by decide +kernel⟩, by decide +kernel, by decide +kernel, rfl,
    by decide +kernel, by decide +kernel, by decide +kernel, by decide +kernel⟩
theorem test_meets_groups : farE.needsRemote 0 1 3 0 = true ∧ ((qd [farE]).ctx 1).isLanded 3 0 = true ∧
    (((qd [farE]).ctx 1).land 3).getLsbD 0 = true ∧ (firstConvoy ((qd [farE]).ctx 0).vq)[0]? = some farE ∧ landing1.vecRuns 0 = true ∧
    (landing1.ctx 0).landing = [] ++ ⟨1, 0, landE, [], []⟩ :: [] ∧ landing1.landReady 0 ⟨1, 0, landE, [], []⟩ = true ∧ (landing1.ctx 0).vq = [] ∧
    (landing1.ctx 0).opened = [] := by decide +kernel
theorem test_meets_landing_rest : AtRest (seenBy landing1 0) := ⟨by decide, by decide⟩

/-- A record of launch 1 waits on core 0, whose context 1 is free; and a launch of two blocks whose second is to be made. -/
def taking : State := withCore u fun k => { k with queue := [qe 0x1000] }
def making : State := { u with parts := [(0, { tp with launches := [(1, { tl with desc := { tl.desc with d2 := 0x100000002, d3 := 1 }, gx := 2 })] })] }
/-- A thread saved in the pool, whose context is free again. -/
def pooled : State := { u with parts := [(0, { tp with images := [{ im1 with pool := some 0 }] })] }
/-- Every context of the partition has a thread, and a launch of queue 0, now of PRI 3, has a block to make. -/
def allBusy : State := { making with
  ctxs := (List.range 16).map fun c => (c, { thread := some { tt with uid := c + 1 } })
  parts := making.parts.map fun e => (e.1, { e.2 with qctl := [(0, 0x83)] }) }
theorem test_meets_taskStarts : taking.partRuns (taking.partOf 0) = true ∧ taking.freeCtx 1 = true ∧ taking.poolFor 0 1 = none ∧
    taking.recordFor 0 1 = some (0, qe 0x1000) ∧ atMost (taking.generatedFor 0 1) (qe 0x1000).eff = true ∧ taking.stampMet (qe 0x1000) = true ∧
    pooled.freeCtx 1 = true ∧ pooled.poolFor 0 1 = some { im1 with pool := some 0 } ∧ pooled.recordFor 0 1 = none ∧ pooled.generatedFor 0 1 = none ∧
    making.nextLaunch 0 = some 1 ∧ making.place 0 = some 4 ∧ making.permits 0 (making.launch 0 1).eff = true ∧ making.yields 0 1 4 = false ∧
    making.recordFor 0 4 = none ∧ making.poolFor 0 4 = none ∧
    allBusy.partRuns 0 = true ∧ allBusy.eligible 0 1 = true ∧ allBusy.queuePri 0 0 = 3 ∧ allBusy.allFull 0 = true ∧
    (∀ k ∈ allBusy.coresOf 0, ∀ x ∈ ctxsOf k, allBusy.freeCtx x = false) ∧ allBusy.victim 0 = some 0 ∧ allBusy.freeArea 0 = some 0 := by decide
/-- A thread that a CTXSV of context 4 saves. -/
def saving : State := { (u.setMe fun k => { k with saving := some { pa := 0x40000, by_ := some 4 } }) with
  ctxs := tput (u.setMe fun k => { k with saving := some { pa := 0x40000, by_ := some 4 } }).ctxs 4 { thread := some { tt with uid := 9 }, wait := some (.ctxsv 3 0 1 0x40000) } }
theorem test_meets_threadSave : saving.saveReady 0 = true ∧ (saving.ctx 0).saving = some { pa := 0x40000, by_ := some 4 } ∧
    (saving.ctx 0).thread = some tt ∧ (saving.ctx 0).opened = [] ∧ (saving.ctx 4).wait = some (.ctxsv 3 0 1 0x40000) := by decide
/-- A queue of 31, a ring of one, a join buffer of one, and a push on its way. -/
def ringed : State := { withCore u (fun k => { k with queue := List.replicate 31 (qe 0), ring := [qe 4], joinBuf := [qe 8] }) with
  parts := [(0, { tp with ring1 := [(0, 16)] })]
  ctxs := [(0, tk), (4, { thread := some { tt with uid := 9 }, wait := some (.push 3 7) })], travel := [⟨4, 3, 0, qe 12, 7, false⟩] }
theorem test_meets_queueEvents : 31 < (ringed.core 0).fifo.length ∧ 0 < (ringed.core 0).joinBuf.length ∧ (ringed.core 0).ring ≠ [] ∧
    (ringed.core 0).queue.length < 32 ∧ (ringed.core 0).joinBuf = qe 8 :: [] ∧ Room ringed 0 ∧ ringed.travel[0]? = some ⟨4, 3, 0, qe 12, 7, false⟩ ∧
    (ringed.ctx 4).wait = some (.push 3 7) ∧ (ringed.core 0).halting = false ∧ making.eligible 0 1 = true ∧
    ((withCore u fun k => { k with slots := [(0, { mineIn .waiting with op := { op1 with kind := .mma } })] }).slot 0 0).wantsArray = true ∧
    ((withCore u fun k => { k with slots := [(0, { mineIn .waiting with op := { op1 with kind := .mma } })] }).slot 0 0).pending = true := by
  unfold Room; decide
/-- Core 1 steals from core 0. -/
def thief (x : Option Steal) : State := taking.setCore 1 fun k => { k with steal := x }
def lentQ : State := (thief (some (.acked 0 1 4 (qe 0x1000)))).setCore 0 fun k => { k with queue := [{ qe 0x1000 with lent := some (1, 1) }] }
theorem test_meets_stealing : (0 : Nat) ≠ 1 ∧ (u.core 1).steal = none ∧ u.idleCore 1 = true ∧ u.askAfter 1 1 = some 2 ∧
    ((thief (some (.ask 0))).core 1).steal = some (.ask 0) ∧ (thief (some (.ask 0))).takeable 0 = some (0, qe 0x1000) ∧ u.takeable 0 = none ∧
    ((ctxsOf 1).find? fun x => (thief none).partRuns 0 && (thief none).freeCtx x && (thief none).permits 0 0 && !(thief none).yields 0 1 x) = some 4 ∧
    (lentQ.core 0).fifo = [] ++ { qe 0x1000 with lent := some (1, 1) } :: [] ∧
    (∀ y ∈ ((thief (some (.acked 0 1 4 (qe 0x1000)))).core 0).fifo, y.lent ≠ some (1, 1)) ∧
    ((thief (some (.accepted 0 1 4 (qe 0x1000)))).ctx 4).thread = none ∧ (thief (some (.accepted 0 1 4 (qe 0x1000)))).partRuns 0 = true ∧
    (thief (some (.accepted 0 1 4 (qe 0x1000)))).stampMet (qe 0x1000) = true := by decide

/-- Launch 1 with what its completion needs, its thread gone. -/
def lone (f : Launch → Launch) (g : Part → Part) : State := { u with ctxs := [], parts := [(0, g { tp with launches := [(1, f { tl with counter := 0 })] })] }
theorem test_meets_levelsEnd : ((u.setPart 0 fun q => { q with launches := [(1, { tl with cancelled := true })] }).ctx 0).thread = some tt ∧
    ((u.setPart 0 fun q => { q with launches := [(1, { tl with cancelled := true })] }).launch 0 1).cancelled = true ∧
    (lone id id).drained 0 1 = true ∧ ((lone id id).launch 0 1).cancelled = false ∧ ((lone id id).launch 0 1).blocks ≤ ((lone id id).launch 0 1).made ∧
    ((lone id id).launch 0 1).gangDone 0 = true ∧ (lone (fun l => { l with cancelled := true }) id).drained 0 1 = true ∧ u.drained 0 1 = false ∧
    (lone id id).locate ((lone id id).dispatcherCore 0) 0 .u .atomic true 0x10040 8 = .inl (bufLocs 0x40 8) ∧
    (lone id id).isMmio (bufLocs 0x40 8) = false ∧ ((bufLocs 0x40 8).map (lone id id).visible).Nodup ∧
    (let s := lone id fun q => { q with graphs := [⟨0, 3, 0, true⟩], phases := [⟨0, 4, 0, true⟩], closedJobs := [7] }
     (⟨0, 3, 0, true⟩ : Group) ∈ (s.part 0).graphs ∧ s.graphCount 0 0 3 = 0 ∧ (⟨0, 4, 0, true⟩ : Group) ∈ (s.part 0).phases ∧ s.phaseCount 0 0 4 = 0 ∧
      7 ∈ (s.part 0).closedJobs ∧ s.jobCount 0 7 = 0) := by decide
theorem test_meets_launchDword : LaunchDword (lone id id) 0 1 ((lone id id).launch 0 1).cword ((bufLocs 0x40 8).map (lone id id).visible) :=
  ⟨⟨bufLocs 0x40 8, by decide, by decide, rfl⟩, by decide, by decide⟩
def ganged (g : Gang) : State := lone (fun l => { l with gang := some g, desc := { l.desc with d7 := 0x10080 } }) id
theorem test_meets_gangs : u.pstate 0 = 1 ∧ u.accepts 0 0 = true ∧ u.accepts 0 1 = false ∧ u.pstate 1 = 0 ∧
    ((ganged { members := [0, 1], initiator := true, acked := [0] }).launch 0 1).gang = some { members := [0, 1], initiator := true, acked := [0] } ∧
    (ganged { members := [0, 1], initiator := true, acked := [0] }).alive 0 1 = true ∧ 1 ∈ [0, 1] ∧ 1 ∉ [0] ∧
    ((ganged {}).launch 0 1).gang = some {} ∧ ((ganged {}).launch 0 1).cancelled = false ∧ (∀ x ∈ [0, 1], x = 1 ∨ x ∈ [0]) := by decide
theorem test_meets_gangRefusal : Bare (ganged { members := [0, 1], initiator := true }) 0 1 ∧
    LaunchDword (ganged { members := [0, 1], initiator := true }) 0 1 0x10080 (span 0x20080 8) :=
  ⟨by unfold Bare; decide, ⟨⟨bufLocs 0x80 8, by decide, by decide, by decide⟩, by decide, by decide⟩⟩
theorem test_meets_coreErrors : ((withCore u fun k => { k with stopped := true }).core 0).stopped = true ∧
    ((withCore u fun k => { k with stopped := true }).core 0).halted = false ∧ u.pstate 0 ≠ 0 ∧ (u.part 0).errStop = false ∧
    u.residents 0 = [0] ∧ (u.ctx 0).sys.cpl ≠ .m ∧ 5 < 6 ∧ 159 < 160 := by decide

/-- An operation in slot 0 of core 0, its state and progress. -/
def opIn (st : SlotState) (n : Nat) (o : EngOp) : State := holds { st := st, owner := some 0, prog := n, op := o }
def copy1 : EngOp := { op1 with csh := 0x100000008, xa := 0x10000, xb := 0x10100 }
theorem test_meets_operationsStart : ((opIn .waiting 0 copy1).slot 0 0).phase = .waiting ∧ ((opIn .waiting 0 copy1).slot 0 0).pending = true ∧
    (opIn .waiting 0 copy1).mayStart 0 ((opIn .waiting 0 copy1).slot 0 0) = true ∧ copy1.steps = 1 ∧ ({ copy1 with csh := 0x100000000 } : EngOp).steps = 0 ∧
    (let o := { op1 with kind := .mclr, msh := 0x808080, mft := 0x2529 }
     (opIn .waiting 0 o).arrayTakes 0 0 = true ∧ 0 < o.steps) ∧
    (let o := { copy1 with kind := .copym, msh := 0x808080, mft := 0x2529, table := u.me.table 0 }
     ((opIn .running 1 o).slot 0 0).phase = .running ∧ (opIn .running 1 o).arrayTakes 0 0 = true ∧ o.shapeBad = none) ∧
    (let o := { copy1 with pred := some 0x8001, predOut := some (.faulted, 0x21, {}) }
     o.predOut = some (.faulted, 0x21, {}) ∧ o.pred = some 0x8001 ∧ (opIn .waiting 0 o).opsRun 0 true = true) := by decide +kernel
theorem copy_rest (o : EngOp) (h : o.clock = {}) : RestFor (opIn .running 0 o) o := ⟨⟨rfl, rfl, rfl, rfl, rfl, rfl⟩, fun _ _ => by rw [h]; rfl⟩
theorem test_meets_copySteps : Running (opIn .running 0 copy1) 0 0 ∧ copy1.copySteps = 1 ∧ FreshStep copy1 1 ∧
    Reaches (opIn .running 0 copy1) 0 copy1 .read
      ((copy1.stepOffsets 1).map fun i => copy1.xa + BitVec.ofNat 64 (i / copy1.rb) * copy1.spch + BitVec.ofNat 64 (i % copy1.rb)) (bufLocs 0 8) ∧
    Reaches (opIn .running 0 copy1) 0 copy1 .write
      ((copy1.stepOffsets 1).map fun i => copy1.dst + BitVec.ofNat 64 (i / copy1.rb) * copy1.dpch + BitVec.ofNat 64 (i % copy1.rb)) (bufLocs 0x100 8) ∧
    ((bufLocs 0x100 8).map (opIn .running 0 copy1).hidden).Nodup ∧
    (let o := { copy1 with held := [(1, [⟨4, 9, 0x10104, .here (.buf 0 0 0x104)⟩])] }
     Running (opIn .running 0 o) 0 0 ∧ Held o 1 [.buf 0 0 0x104] [9]) ∧
    (let o := { copy1 with kind := .copyf, started := true, xa1 := 0x10200 }
     Running (opIn .running 0 o) 0 0 ∧ (opIn .running 0 o).frontierFull 0 = true ∧ o.awaiting = false ∧
      Reaches (opIn .running 0 o) 0 o .write ((List.range 8).map fun i => o.xa1 + BitVec.ofNat 64 i) (bufLocs 0x200 8)) ∧
    (let o := { op1 with kind := .publish, xa := 0 }
     Running (opIn .running 0 o) 0 0 ∧ (tget ⟨0, 0, 0, 0, false, false⟩ ((opIn .running 0 o).part 0).bufs 0).void = false ∧ o.wrote = []) := by
  refine ⟨by unfold Running; decide, by decide, ⟨by decide, by decide, by decide +kernel⟩, by unfold Reaches; decide +kernel,
    by unfold Reaches; decide +kernel, by decide, by unfold Running Held; decide +kernel, by unfold Running Reaches; decide +kernel,
    by unfold Running; decide +kernel⟩
/-- One row of 8 bytes, row 0, to the start of the scratchpad. -/
def grow1 : EngOp := { op1 with kind := .grows, xa := 0x10000, xa1 := 0, csh := 0x100000008, ctl := ⟨1, 0, 0x0001000001000001, 4, 0, 0, 0⟩ }
theorem test_meets_growsRow : Running (opIn .running 0 grow1) 0 0 ∧ 0 < grow1.growRows.length ∧ 0 ∉ grow1.rows ∧ FreshStep grow1 1 ∧ grow1.rb = 8 ∧
    Reaches (opIn .running 0 grow1) 0 grow1 .read
      ((List.range 8).map fun b => grow1.xa + BitVec.ofNat 64 (grow1.growRows.getD 0 0) * grow1.spch + BitVec.ofNat 64 b) (bufLocs 0 8) ∧
    (grow1.dstAt 0).toNat + grow1.rb ≤ scratchBytes :=
  ⟨by unfold Running; decide, by decide +kernel, by decide, ⟨by decide, by decide, by decide +kernel⟩, by decide, by unfold Reaches; decide +kernel, by decide +kernel⟩
def array1 (k : OpKind) : EngOp := { op1 with kind := k, msh := 0x808080, mft := 0x2529 }
theorem test_meets_arraySteps : Running (opIn .running 0 (array1 .mma)) 0 0 ∧ 1 ≤ (array1 .mma).steps ∧ mshM (array1 .mma).msh ≤ 128 ∧
    mshN (array1 .mma).msh ≤ 128 ∧ RestFor (opIn .running 0 (array1 .mma)) (array1 .mma) ∧
    (let o := { array1 .mrd with msh := 0x010101 }
     Running (opIn .running 0 o) 0 0 ∧ 0 < mshM o.msh ∧ o.mrdAt 1 ≤ scratchBytes ∧ FreshStep o 1) :=
  ⟨by unfold Running; decide, by decide, by decide, by decide, copy_rest _ rfl, by unfold Running; decide, by decide, by decide +kernel,
    ⟨by decide, by decide, by decide +kernel⟩⟩

/-- A train of one element of format n64 to home die 0, applied and then acknowledged; and one for a member of another module. -/
def train1 : EngOp :=
  { op1 with kind := .train, dests := [(0, 0), (1, 5)], brickA := 0x10000, brickB := 9, ctl := ⟨2, 0, 1, 7, 0, 0, 0⟩, team := [0] }
theorem test_meets_trains : Running (opIn .running 0 train1) 0 0 ∧ (∃ e, (e, 0) ∈ train1.dests) ∧ (∀ s ∈ train1.sent, s.1 ≠ 0) ∧
    0 ∉ train1.acked ∧ 0 ∉ train1.nacks ∧ 0 ∉ train1.rows ∧ train1.rows = [] ∧ RestFor (opIn .running 0 train1) train1 ∧
    Clear { opIn .running 0 train1 with links := [(16, { up := true })] } 16 ∧ ((opIn .running 0 train1).part 0).parking = false ∧ train1.trainElems 0 = [(0, 0x10000, [9, 0, 0, 0, 0, 0, 0, 0])] ∧
    Reaches (opIn .running 0 train1) 0 train1 .write ((List.range 8).map fun i => BitVec.ofNat 64 (0x10000 + i)) (bufLocs 0 8) ∧
    ((bufLocs 0 8).map (opIn .running 0 train1).hidden).Nodup ∧ (∃ e, (e, 5) ∈ train1.dests) ∧
    ({ opIn .running 0 train1 with links := [(16, { up := true })] } : State).brokenPort (train1.teamMember 1) = none ∧
    (({ train1 with sent := [(0, {}), (5, {})] } : EngOp).sent.find? fun s => s.1 = 5) = some (5, {}) ∧
    (∀ d, d < 4 → ({} : Clock).le ((opIn .running 0 train1).knownAt d) = true) := by
  refine ⟨by unfold Running; decide, ⟨0, by decide⟩, by decide, by decide, by decide, by decide, by decide, copy_rest _ rfl, by unfold Clear; decide, by decide, by decide +kernel,
    by unfold Reaches; decide, by decide, ⟨1, by decide⟩,
    by decide, by decide, by decide⟩
/-- A team of two cores whose member 0 is this core; and of one. -/
def teamed (n : Nat) (k : OpKind) : EngOp :=
  { op1 with kind := k, csh := 0x100000008, xa := 0x10000, xb := 0x10100, ctl := ⟨2, 0, 1, 9, 0, 0, 0⟩,
             team := [BitVec.ofNat 64 (n * 2 ^ 26 + 2 ^ 37), 77, 0x10000] }
theorem test_meets_collectives : let s := opIn .running 0 (teamed 1 .cbc)
    Running s 0 0 ∧ s.collBad 0 0 = none ∧ s.allJoined 0 0 = true ∧ s.localMembers 0 0 = [(0, 0)] ∧ [(0, 0)].Nodup ∧
    OpKind.isColl .cbc = true ∧ 1 ≤ (teamed 1 .cbc).collSteps ∧ (teamed 1 .cbc).gives 0 = true ∧
    (teamed 1 .cbc).buf.length < min 4096 (teamed 1 .cbc).rb ∧
    Reaches s 0 (teamed 1 .cbc) .read ((List.range 8).map fun i => (teamed 1 .cbc).xa + BitVec.ofNat 64 i) (bufLocs 0 8) ∧
    (let o := { teamed 1 .cbc with buf := [1, 2, 3, 4, 5, 6, 7, 8] }
     o.receives = true ∧ o.took < 8 ∧ (∀ m, m < o.teamCount → (opIn .running 0 o).remoteMember o m = false ∧
       (o.gives m = true → 8 ≤ (opIn .running 0 o).memberRead 0 0 m)) ∧ collSpan o 0 8 = [0, 1, 2, 3, 4, 5, 6, 7]) ∧
    (let o := { teamed 1 .cbc with buf := [1, 2, 3, 4, 5, 6, 7, 8], took := 8, pool := (List.range 8).map fun i => (i, BitVec.ofNat 8 (i + 1)) }
     FreshStep o 1 ∧ (∀ i ∈ o.stepOffsets 1, (o.pool.find? fun y => y.1 = i) = some (i, BitVec.ofNat 8 (i + 1))) ∧
     Reaches (opIn .running 0 o) 0 o .write ((o.stepOffsets 1).map fun i => o.xb + BitVec.ofNat 64 i) (bufLocs 0x100 8)) ∧
    ((opIn .running 0 (teamed 1 .cbar)).allJoined 0 0 = true ∧ (teamed 1 .cbar).met = false) ∧
    (let t := opIn .running 0 (teamed 2 .cbar)
     1 < (teamed 2 .cbar).teamCount ∧ 1 ≠ (teamed 2 .cbar).teamSelf ∧ t.partnerSlot 0 0 1 = none ∧ (t.part 0).parking = false) := by
  refine ⟨by unfold Running; decide, by decide +kernel, by decide +kernel, by decide +kernel, by decide, by decide, by decide, by decide, by decide,
    by unfold Reaches; decide +kernel, by decide +kernel, ⟨⟨by decide, by decide, by decide +kernel⟩, by decide +kernel, by unfold Reaches; decide +kernel⟩,
    by decide +kernel, by decide +kernel⟩
theorem test_meets_collRest : RestFor (opIn .running 0 (teamed 1 .cbc)) (teamed 1 .cbc) ∧ wholeElements (teamed 1 .cbc) ∧
    AllTook (opIn .running 0 (teamed 1 .cbc)) 0 0 8 := by
  refine ⟨copy_rest _ rfl, fun _ h => (nomatch h), .inr fun m _ h1 h2 => ?_⟩
  change m < 1 at h1
  change m ≠ 0 at h2
  omega

/-- Tables that map the page at 0 to the frame 0x100000, and a partition with a tier carve and a frame stack. -/
def mapped : List Host.Cell := [(0x80000, 1), (0x80001, 0x80), (0x80002, 9), (0x98000, 1), (0x98002, 0x0A), (0xA0000, 1), (0xA0001, 1),
  (0xA0002, 0x0A), (0xA0100, 1), (0xA0101, 2), (0xA0102, 0x0A), (0xA0200, 0x3F), (0xA0202, 0x10)]
def mq : Part := { tp with ttb := 0x80000, tiers := 16, fsb := [(0, 0xC0000)], fsn := [(0, 0x400000000)], hlw := 1 }
def migrating1 (o : EngOp) : State := { opIn .running 0 o with parts := [(0, mq)], mem := mapped }
def out1 : EngOp := { op1 with kind := .migrOut }
/-- Whatever a page compresses to, it fits in the carve (17 R328). -/
theorem tier_fits (bytes : List Byte) : mq.tierPlaces (tierSpace (pageSize 4) bytes) ≠ [] := by
  have h : tierSpace (pageSize 4) bytes ≤ 69632 := Nat.min_le_right _ _
  have h2 : mq.tierPlaces (tierSpace (pageSize 4) bytes) = [0].filter fun a => decide (a + tierSpace (pageSize 4) bytes ≤ 1048576) := by
    simp only [Part.tierPlaces, show mq.tier = [] from rfl, show mq.tierHeld = [] from rfl, List.map_nil, List.append_nil, List.all_nil,
      Bool.and_true]
    rfl
  rw [h2, List.filter_cons, if_pos (by simp; omega)]
  exact List.cons_ne_nil _ _
theorem test_meets_migrOut : ((migrating1 out1).slot 0 0).phase = .running ∧ 0 < out1.pages ∧ (migrating1 out1).opsRun 0 true = true ∧
    out1.xa1.toNat < 2 ^ 56 ∧ mq.bufAt 0 = none ∧ (migrating1 out1).leaf 0 0 0 = .inl (0x10003F, 0xA0200, 4) ∧ 0 % pageSize 4 = 0 ∧
    pteF 0x10003F = false ∧ bitW 0x10003F 5 = true ∧ pteT 0x10003F = false ∧ region (ptePA 0x10003F) = .main ∧ mq.tierSize ≠ 0 ∧
    mq.stackTop (frameStack 4) + tget 0 mq.reserved (frameStack 4) < mq.stackCap (frameStack 4) := by decide +kernel
/-- Whatever it compresses to, the page fits in what was reserved for it. -/
theorem test_meets_place (bytes : List Byte) : tierSpace (pageSize 4) bytes ≤ ((0, 69632) : Nat × Nat).2 := Nat.min_le_right _ _
def moving1 (k : OpKind) (w : Word) : EngOp := { op1 with kind := k, page := some (w, 0xA0200, 4, 0x100000) }
theorem test_meets_moving : Moving (migrating1 (moving1 .migrOut 0x10003F)) 0 (moving1 .migrOut 0x10003F) 0x10003F 0xA0200 4 0x100000 ∧
    (∀ b ∈ eight 0xA0200, b ∉ eight (mq.stackAt (frameStack 4) (mq.stackTop (frameStack 4)))) ∧
    (let s : State := { migrating1 (moving1 .migrIn 0x10BF) with mem := [(0xA0200, 0xBF), (0xA0201, 0x10)] }
     Moving s 0 (moving1 .migrIn 0x10BF) 0x10BF 0xA0200 4 0x100000) ∧
    (let y : TierPage := { ta := 0x1000, size := 65536, bytes := [(0, 5)], space := 8192 }
     [y].find? (fun y => y.ta = pteTaddr 0x10BF) = some y ∧ y.size = pageSize 4 ∧ (∀ e ∈ y.bytes, e.1 < pageSize 4)) ∧
    (∀ b ∈ eight 0xA0200, b < 0x100000 ∨ 0x100000 + pageSize 4 ≤ b) :=
  ⟨⟨rfl, by decide, by decide, by decide +kernel, by decide +kernel⟩, by decide +kernel, ⟨rfl, by decide, by decide, by decide +kernel, by decide +kernel⟩, by decide +kernel, by decide +kernel⟩
theorem test_meets_barrierAdd : let o := { op1 with kind := .migrIn, started := true, xb := 0x10000 }
    Reaches (migrating1 o) 0 o .atomic ((List.range 8).map fun i => (o.xb &&& 0x00FFFFFFFFFFFF00#64) + BitVec.ofNat 64 i) (bufLocs 0 8) ∧
    ((bufLocs 0 8).map (migrating1 o).visible).Nodup ∧
    (((opIn .running 0 copy1).setPart 0 fun q => { q with parking := true }).part 0).parking = true ∧
    (∀ c ∈ (opIn .running 0 copy1).coresOf 0, tsorted ((opIn .running 0 copy1).core c).slots = true) ∧ (opIn .running 0 copy1).atBoundary 0 0 = true := by
  unfold Reaches; decide +kernel

def linked (s : State) : State := s.setPart 0 fun q => { q with hlw := 1 }
theorem test_meets_outside : Intact (linked u) ∧ Clear (linked u) 32 ∧ (∀ m, m < 6 → (link (linked u) m).failed = false) ∧ (linked u).hostReaches 0 = true ∧ (linked u).hostAccepts 0 0x20000 8 = true ∧
    Intact u ∧ Clear { u with links := [(16, { up := true })] } 16 ∧ u.fabric = [] ∧ u.hostAccepts 0 0x20000 8 = true ∧ u.hostAccepts 0 0xE000000000 8 = false ∧
    (link { u with links := [(16, { up := true })] } 16).failed = false ∧ (link { u with links := [(16, { up := true })] } 16).up = true ∧ u.woad.boot = .run ∧ u.pstate 0 ≠ 0 ∧ region 0x20000 = .main ∧
    (u.part 0).inCarve 0x20000 8 = true ∧ u.pstate 5 = 0 ∧ (link u 32).failed = false := by unfold Intact Clear; decide +kernel
theorem test_meets_links : (5 < 6 ∨ (16 ≤ 5 ∧ 5 < 33)) ∧ (32 < 6 ∨ (16 ≤ 32 ∧ 32 < 33)) ∧ (link u 16).failed = false ∧
    (let o := { copy1 with kind := .copyf, started := true, unacked := 1 }
     let s := opIn .running 0 o
     0 / 64 < 160 ∧ (s.slot 0 0).phase = .running ∧ (s.slot 0 0).pending = true ∧ (s.slot 0 0).op.unacked ≠ 0 ∧
      s.remotePart 0 0 16 = some (2, 0, o.xa1)) ∧
    (let s : State := { u with links := [(16, { held := [⟨7, 8, .acknowledge 16 0⟩] })] }
     (link s 16).waiting = [] ∧ (∃ h ∈ (link s 16).held, (h.seq + 2 ^ 32 - 7) % 2 ^ 32 < 2 ^ 16 ∧ 8 ≤ h.times)) ∧
    (∀ h ∈ (link u 16).held, h.times < 8) ∧ (link u 16).asks < 8 ∧ u.woad.boot = .run ∧ State.reset.woad.boot ≠ .run := by decide +kernel
/-- The check value of the CRC-64 of ECMA-182, of the digits 1 to 9, and a flit with its CRC (19 R349). -/
theorem test_crc : crc64 [0x31, 0x32, 0x33, 0x34, 0x35, 0x36, 0x37, 0x38, 0x39] = 0x6C40DF5F0B497347 := by decide +kernel
/-- A part with a firmware image of one word. -/
def imaged (b : Boot) : State := { woad := { boot := b, image := leBytes 64 1, loaded := leBytes 64 1 } }
theorem test_meets_bringUp : (imaged .load).woad.boot = .load ∧ (imaged .load).woad.image ≠ [] ∧ ({ woad := { boot := .load } } : State).woad.image = [] ∧
    ({ imaged .selftest with woad := { (imaged .selftest).woad with laneFails := [3] } } : State).woad.testFailure = some (1, 1, 3) ∧
    (imaged .selftest).woad.testFailure = none ∧ (imaged .config).woad.boot = .config ∧
    ({ woad := { boot := .run, loaded := leBytes 64 (2 ^ 512 - 1) } } : State).woad.minVersion < 1 := by decide +kernel
theorem test_meets_power : 127 < 128 ∧ (10 ≤ 10 % 32 ∧ 10 % 32 < 20) ∧ ¬ (10 ≤ 127 % 32 ∧ 127 % 32 < 20) ∧ (5 &&& 7 : BitVec 8).toNat < 6 ∧
    u.woad.boot ≠ .safe ∧ u.power.limit < 4 ∧ 0 < ({ u.power with limit := 1 } : Power).limit := by decide
theorem test_meets_controlStores : (u.part 0).poolUsed = false ∧ (u.part 0).inCarve 0x40000 81920 = true ∧
    (pooled.part 0).poolUsed = true ∧ (u.coresOf 0)[3]? = some 3 ∧ (u.core 3).ring = [] ∧ 32 ∈ ringSizes ∧
    (u.part 0).inCarve 0x80000 (128 * 32) = true ∧ (u.part 0).inQueue 63 = [] ∧ (u.part 0).inQueue 0 ≠ [] ∧ u.migrating 0 = false ∧
    (migrating1 (moving1 .migrOut 0x10003F)).migrating 0 = true ∧ u.pstate 0 = 1 ∧ u.pstate 39 = 0 ∧
    (0x0000FFFFC0000000#64 &&& 0x40000000).toNat ≤ 0xE000000000 ∧
    (link { u with links := [(16, { failed := true })] } 16).failed = true := by decide +kernel

/-! ### Premises that several statements share -/

theorem test_meets_quiet : u.me.fences = [] ∧ lane.me.fences = [] ∧ copies.me.fences = [] ∧ (∀ x ∈ copies.badCells, x.2.1 ≠ copies.cur) ∧
    launching.quiet = true ∧ launching.fenced = false ∧ u.discards 0 (u.stamped (recordOf u.me)) = false ∧
    (u.setPart 0 fun q => { q with launches := [(1, { tl with cancelled := true })] }).discards 0 (u.stamped (recordOf u.me)) = true := by decide
theorem test_meets_dispatch : allBusy.yields 0 1 0 = false ∧ allBusy.runningPred 0 1 ≠ some tt.lid ∧
    (∀ k ∈ allBusy.coresOf 0, ∀ x ∈ ctxsOf k, allBusy.freeCtx x = false ∧ ∀ r, (allBusy.ctx x).saving = some r → r.next ≠ some 1) ∧
    ringed.stampMet (qe 4) = true ∧ ringed.discards 0 (qe 8) = false ∧ ringed.discards 0 (qe 12) = false ∧
    ((ctxsOf 1).find? fun x => (thief none).wantsSteal 0 x && (thief none).permits 0 0 && !(thief none).yields 0 1 x) = some 4 := by decide +kernel
theorem test_meets_levelsAndGangs : ((lone (fun l => { l with cancelled := true }) id).launch 0 1).reportsIn 0 = true ∧ Clear u (u.portOf 0) ∧
    (∀ d, d < 4 → ((lone id id).launch 0 1).stores.le ((lone id id).knownAt d) = true) ∧ Whole u ∧
    ({ members := [0, 1], initiator := true, acked := [0] } : Gang).anyCancelled = false := by unfold Clear Whole; decide

/-! ### The step, memory and single instructions -/

/-- What holds after an answer that is a next state. -/
def after (o : Out) (f : State → Bool) : Bool := match o with | .next t => f t | _ => false
def placed (w : Nat) : State := { begun { boot w with agenda := [.issue 0] } [] with cur := 0 }
theorem test_meets_stepIssue : (placed 0x01045FFF).ready 0 = true ∧ Fetches (placed 0x01045FFF) ((span 0 4).map .phys) 0x01045FFF ∧
    decodeWord 0x01045FFF = some (.addi 0 1 2 0x1FFF) ∧ (placed 0x01045FFF).passes 0 = false ∧ (placed 0x01045FFF).me.opened = [] ∧ goesOn 0x01045FFF = false :=
  ⟨by decide +kernel, ⟨by decide +kernel, by decide +kernel, by decide +kernel, ⟨⟨by decide +kernel, by decide +kernel⟩, by decide +kernel⟩, by decide +kernel⟩,
    by decide +kernel, by decide +kernel, by decide +kernel, by decide⟩
/-- A convoy of two words at 0, of which the fetch finds the whole. -/
def pair2 : State :=
  let t := placed 0b1_10_011000_00001_00010_00011_00001101
  { t with mem := (span 4 4).zip (leBytes 4 0b0_10_011000_00001_00010_00011_00001101) |>.foldl (fun m e => tset 0 m e.1 e.2) t.mem }
/-- What the fetch of the rest of a convoy comes to. -/
def restOf (s : State) (w : Nat) : Option (List (Word × Nat) × State) :=
  match (fetched s).fetchRun (s.me.pc + 4) 64 [(s.me.pc, w)] with | .inl x => some x | .inr _ => none
theorem test_meets_stepConvoy : pair2.ready 0 = true ∧ pair2.me.opened = [] ∧ goesOn 0b1_10_011000_00001_00010_00011_00001101 = true ∧
    ((restOf pair2 0b1_10_011000_00001_00010_00011_00001101).map fun x => (x.1.length, x.2.me.opened)) = some (2, []) ∧
    (Fetches pair2 ((span 0 4).map .phys) 0b1_10_011000_00001_00010_00011_00001101) :=
  ⟨by decide +kernel, by decide +kernel, by decide, by decide +kernel,
    ⟨by decide +kernel, by decide +kernel, by decide +kernel, ⟨⟨by decide +kernel, by decide +kernel⟩, by decide +kernel⟩, by decide +kernel⟩⟩
theorem test_meets_convoyInOrder : ((restOf pair2 0b1_10_011000_00001_00010_00011_00001101).bind fun x => x.2.runTrap x.1) = none := by decide +kernel
def placed0 (w : Nat) : State := { begun (boot w) [] with cur := 0, background := true }
theorem test_meets_stepTurn : (boot 0x01045FFF).agenda = [] ∧ (boot 0x01045FFF).woad.boot = .config ∧ (boot 0x01045FFF).background = false ∧
    (boot 0x01045FFF).me.opened = [] ∧ (begun (boot 0x01045FFF) []).nextReady = some ([], 0) ∧
    Fetches (placed0 0x01045FFF) ((span 0 4).map .phys) 0x01045FFF ∧ (placed0 0x01045FFF).me.opened = [] :=
  ⟨by decide +kernel, by decide +kernel, by decide +kernel, by decide +kernel, by decide +kernel,
    ⟨by decide +kernel, by decide +kernel, by decide +kernel, ⟨⟨by decide +kernel, by decide +kernel⟩, by decide +kernel⟩, by decide +kernel⟩, by decide +kernel⟩
theorem test_meets_stepEvent : isEvent (.scrub 0) = true ∧ ({ u with agenda := [.event (.scrub 0)] } : State).agenda = [.event (.scrub 0)] := by decide
theorem test_meets_corrected : (0 : Nat) < 160 ∧ ({ u with woad := { u.woad with boot := .run } } : State).woad.boot = .run ∧
    ({ u with agenda := [.corrected 0 5 0] } : State).agenda = [.corrected 0 5 0] := by decide
theorem test_meets_words : (Instr.add 0 1 2 3).wf = true ∧ (0x01045FFF < 2 ^ 32 ∧ decodeWord 0x01045FFF = some (.addi 0 1 2 0x1FFF)) := by decide
theorem reset_parity : State.reset.parityOk := fun n i _ _ => by
  simp only [show ∀ a, State.reset.peek a = 0 from fun _ => rfl]
  rfl
theorem test_meets_memory : State.reset.parityOk ∧ Memory.wf State.reset.mem = true ∧ (∀ a, tget 0 [] a = State.reset.peek a) :=
  ⟨reset_parity, rfl, fun _ => rfl⟩
theorem test_meets_stepKeepsMemory : State.reset.memInv ∧ after (step State.reset) (fun _ => true) = true :=
  ⟨⟨rfl, reset_parity, by unfold State.histOk; decide⟩, by decide +kernel⟩
theorem test_meets_userWords : (encode (.add 0 3 1 2)).isSome = true ∧ scalarStore (.add 0 3 1 2) = false ∧ u.me.sys.cpl = .u ∧
    after (exec (.add 0 3 1 2) u) (fun t => t.me.rx 3 = 0x10005) = true := by decide

/-- R182, R183: 0 + sext(0x1FFF, 13) is −1, at the firmware's first step; the pc is 4. -/
theorem test_step_addi : after (step (boot 0x01045FFF)) (fun t => (t.ctx 0).rx 1 = BitVec.allOnes 64 && (t.ctx 0).pc = 4) = true := by decide +kernel
/-- R161: a word of zeros is no instruction: ILLEGAL_WORD at M leads to the vector of M, with cause 0 in its low bits. -/
theorem test_step_illegal : after (step (boot 0)) (fun t => (t.ctx 0).pc = t.mvec && (t.ctx 0).sys.cpl = .m) = true := by decide +kernel
theorem test_add_wraps : after (exec (.add 0 3 1 2) (withX (withX u 1 (BitVec.allOnes 64)) 2 2)) (fun t => t.me.rx 3 = 1) = true := by decide
/-- R182: x0 discards. -/
theorem test_add_zero : after (exec (.add 0 0 1 2) u) (fun t => t.me.rx 0 = 0 && t.me.pc = 0x1004) = true := by decide
theorem test_sub : after (exec (.sub 0 3 1 2) u) (fun t => t.me.rx 3 = 0xFFFFFFFFFFFF0005) = true := by decide
/-- R182, R82: the shift amount is its low 6 bits; DIV of −2^63 by −1, and by 0 with IDZ. -/
theorem test_sll : after (exec (.sll 0 3 1 2) (withX (withX u 1 3) 2 0x7F)) (fun t => t.me.rx 3 = 0x8000000000000000) = true := by decide
theorem test_div : after (exec (.div 0 3 1 2) (withX (withX u 1 0x8000000000000000) 2 (BitVec.allOnes 64)))
    (fun t => t.me.rx 3 = 0x8000000000000000 && t.me.flags = u.me.flags) = true := by decide
theorem test_divn_zero : after (exec (.divn 0 3 1 2) (withX u 2 0)) (fun t => t.me.allFlags = IDZ) = true := by decide
/-- R183: SLTNI of −1 gives 0 only for the largest value; LUI and AUIPC shift by 13. -/
theorem test_sltni : after (exec (.sltni 0 3 1 0xFFF) (withX u 1 (BitVec.allOnes 64))) (fun t => t.me.rx 3 = 0) = true ∧
    after (exec (.sltni 0 3 1 0xFFF) u) (fun t => t.me.rx 3 = 1) = true := by decide
theorem test_lui : after (exec (.lui 0 3 0x20000) u) (fun t => t.me.rx 3 = 0xFFFFFFFFC0000000) = true := by decide
theorem test_auipc : after (exec (.auipc 0 3 1) u) (fun t => t.me.rx 3 = 0x3000) = true := by decide
/-- R187, R188: −1 is less than 5 signed, not unsigned; JAL links to x1; JALR clears no bit of its target. -/
theorem test_branches : after (exec (.blt 0 4 1 3) (withX u 4 (BitVec.allOnes 64))) (fun t => t.me.pc = 0x100C) = true ∧
    after (exec (.bltn 0 4 1 3) (withX u 4 (BitVec.allOnes 64))) (fun t => t.me.pc = 0x1004) = true ∧
    after (exec (.jal 0 0x7FFFFF) u) (fun t => t.me.pc = 0xFFC && t.me.rx 1 = 0x1004) = true := by decide
/-- 2.5 in sb4p2 is 0x6 with NX; with infinities 2.6 is +∞ with OF and NX, and saturated 0x6 with SATF too (the worked roundings of 04). -/
theorem test_round : (Fmt.sb4 1).round ⟨0, false, false, 0⟩ (.fin ⟨false, 5, -1, false⟩) = (6, NX) ∧
    (Fmt.sb4 1).round ⟨0, false, true, 0⟩ (.fin ⟨false, 20, -3, true⟩) = (7, OF ||| NX) ∧
    (Fmt.sb4 1).round ⟨0, true, true, 0⟩ (.fin ⟨false, 20, -3, true⟩) = (6, OF ||| NX ||| SATF) := by decide
/-- The worked walk of 17. -/
def walked : State := { u with parts := [(0, { tp with ttb := 0x100000 })]
                               mem := [(0x100000, 1), (0x100002, 0x11), (0x110410, 1), (0x110411, 0x80), (0x110412, 0x11), (0x118000, 1), (0x118001, 0x81), (0x118002, 0x11),
  (0x118100, 1), (0x118101, 0x82), (0x118102, 0x11), (0x118218, 0x2F), (0x11821A, 0x23), (0x11821B, 1)] }
theorem test_walk : walked.leaf 0 0 0x4100032468 = .inl (0x0123002F, 0x118218, 4) := by decide +kernel
/-- The worked line of 17 R323. -/
theorem test_home : stripe 0x01232468 = 10647 ∧ position 0x01232468 = 3 ∧ parityStack 10647 = 7 ∧ dataStack 0x01232468 = 3 ∧ homeDie 0x01232468 = 1 := by decide
/-- The worked token of 02: slot 5 of core 137 at generation 3. -/
theorem test_token : token 137 5 3 = 0xE245 := by decide
/-- SVC takes its exception (R195, R278): code 0x0E of the partition's vector, at S, with the next pc saved. -/
theorem test_svc : after (exec (.svc 0 0x201) u) (fun t => t.me.pc = 0x4380 && t.me.sys.cpl = .s && t.me.sys.epc = 0x1004) = true := by decide

/-! ### Premises of the clauses that follow single rules -/

/-- A lost line on no path of a walk, the system registers of R277's table, and TLBI of kind 2 at S (R285). -/
theorem test_meets_walks : Walks u (((u.launchOf u.cur).window 0).1 + u.me.rx 3) 4 ∧ Walks (joined 1) ((joined 1).me.rx 2) 72 ∧
    Walks u (u.launchOf u.cur).cword 8 ∧ Walks ending joiner.r.d2 80 :=
  ⟨walks_whole _ _ _ rfl rfl, walks_whole _ _ _ rfl rfl, walks_whole _ _ _ rfl rfl, walks_whole _ _ _ rfl rfl⟩
theorem test_meets_tlbiKind2 : (withX (at_ .s) 1 2).me.sys.cpl = .s ∧ (withX (at_ .s) 1 2).me.short (nums [1]) = [] ∧
    ((withX (at_ .s) 1 2).me.rx 1).toNat % 4 = 2 ∧ (at_ .s).myPart < 40 ∧ 4 ∉ sysRegsS ++ sysRegsM ∧ 0x33 ∉ sysRegsS ++ sysRegsM ∧
    (at_ .s).me.opened = [] ∧ (at_ .m).sysRefused 0 0 = false := by decide

/-- A handler at a level with a frozen vector side, and one that has claimed. -/
def frozenAt (l : Level) : State := (handler l).setMe fun k => { k with vq := [(handler l).entry false 0 (.iota 1)] }
def claimed (l : Level) : State := (handler l).setMe fun k => { k with sys := { k.sys with ecause := 0xC000, mcause := 0xC000 } }
theorem test_meets_claims : (∀ l ∈ [Level.s, .m], (frozenAt l).me.sys.cpl = l ∧ (frozenAt l).me.claimable = true ∧
      (frozenAt l).quiescent (frozenAt l).cur = true) ∧
    ((claimed .s).me.sys.cpl = .s ∧ (claimed .s).Reads [sysReg 0, sysReg 2] ∧ (claimed .s).me.sys.ecause.getLsbD 15 = true ∧
      (claimed .s).me.sys.ecause.getLsbD 14 = true ∧ (claimed .s).me.sys.epc.toNat % 4 = 0 ∧ (claimed .s).me.vq = [] ∧
      (claimed .s).me.landing = []) ∧
    ((claimed .m).me.sys.cpl = .m ∧ (claimed .m).Reads [sysReg 0, sysReg 0x31] ∧ (claimed .m).me.sys.mcause.getLsbD 15 = true ∧
      (claimed .m).me.sys.mcause.getLsbD 14 = true ∧ (claimed .m).me.sys.mepc.toNat % 4 = 0) := by decide
theorem test_meets_reclaim : (claimed .s).reclaimFails = none ∧ (claimed .m).reclaimFails = none ∧
    loader.areaFails (coreOf loader.cur) 0x40000 0x14000 = none := by decide +kernel

/-- A queue with a record's room whose launch is cancelled, and END with a running operation that is detached. -/
theorem test_meets_discarded : Room u 0 ∧ ¬ Room fullQ 0 ∧
    (u.setPart 0 fun q => { q with launches := [(1, { tl with cancelled := true })] }).discards 0 (u.stamped (recordOf u.me)) = true := by
  unfold Room; decide
def detached1 : Slot := { mineIn .running with detached := true }
theorem test_meets_endDetached : Live ending ∧ ending.atomicAfter (span 0x20040 8) (span 0x20100 80) = true ∧
    (holds detached1).ownSlots 0 = [(0, 0, detached1)] ∧ (((holds detached1).ownSlots 0).map fun e => (e.1, e.2.1)).Nodup ∧
    detached1.st.terminal = false := by unfold Live; decide +kernel
theorem test_meets_pwait : (u.launch tt.part tt.lid).pred = none ∧ (u.launch tt.part tt.lid).predStat = 0 ∧
    (({ u with parts := [(0, { tp with launches := [(1, { tl with predStat := 2 })] })] } : State).launch 0 1).predStat ≠ 0 := by decide
/-- An operation that a thread has left ORPHANED, and one of another job. -/
def orphan : Slot := { st := .orphaned, owner := none, op := op1 }
theorem test_meets_orphans : orphan.st.terminal = false ∧ orphan.st ≠ .parked ∧ orphan.st = .orphaned ∧
    ((holds orphan).slot 0 0).op.job = (holds orphan).myJob ∧
    ¬ (({ mineIn .running with op := { op1 with job := 9 } } : Slot).op.job = u.myJob ∧ op1.part = u.myPart) := by decide

/-- PARK of partition 1, whose one thread is resident or gone. -/
theorem test_meets_park : ¬ parksAtOnce two 1 ∧ parksAtOnce (two.setCtx 16 fun k => { k with thread := none }) 1 ∧
    (∀ c ∈ two.coresOf 1, tsorted (two.core c).slots = true) ∧ two.hasWork 0 = true ∧ (∃ x, two.me.thread = some x ∧ x.part = 0) := by
  refine ⟨by unfold parksAtOnce; decide +kernel, by unfold parksAtOnce; decide +kernel, by decide, by decide, tt, by decide, by decide⟩
/-- CONFIG's firmware composes partition 0 of quad 1. -/
def composing : State := withX (boot 0) 1 0x200
theorem test_meets_configComposition : firmware composing composing.cur ∧ composing.me.sys.cpl = .m ∧ composing.woad.boot = .config ∧
    (composing.core (coreOf composing.cur)).halted = false ∧ composing.partRefused (composing.partOf (coreOf composing.cur)) 0x200 = false := by
  unfold firmware; decide +kernel

/-- Vector words: one at a frozen side, and one that closes a convoy that fits, that has no room, or that breaks the limits. -/
def closing (es : List VEntry) (f : Ctx → Ctx) : State := u.setMe fun k => f { k with opened := es }
def ce (op : VOp) : VEntry := { u.entry true 0 op with addr := 0x1000 }
theorem test_meets_convoyClosing : (frozenAt .s).me.opened = [] ∧ (frozenAt .s).me.frozen = true ∧ (frozenAt .s).me.sys.cpl = .s ∧
    (let s := closing [ce (.int .add 1 2 3)] id
     s.me.opened = [ce (.int .add 1 2 3)] ∧ s.me.frozen = false ∧ s.prompt = false ∧
      convoyFits (s.me.opened ++ [s.entry false 0 (.int .add 4 1 3)]) ∧
      ([VQ.load, VQ.arith, VQ.store].filter fun q => s.me.queueFull q && (s.me.opened ++ [s.entry false 0 (.int .add 4 1 3)]).any fun e => e.q = q) = []) ∧
    (let s := closing [ce (.int .add 1 2 3)] fun k => { k with vq := List.replicate 16 (u.entry false 0 (.int .add 1 2 3)) }
     convoyFits (s.me.opened ++ [s.entry false 0 (.int .add 4 1 3)]) ∧ s.me.frozen = false ∧
      ([VQ.load, VQ.arith, VQ.store].filter fun q => s.me.queueFull q && (s.me.opened ++ [s.entry false 0 (.int .add 4 1 3)]).any fun e => e.q = q) ≠ []) ∧
    (let s := closing [ce (.int .add 1 2 3), ce (.int .add 1 2 3)] id
     ¬ convoyFits (s.me.opened ++ [s.entry false 0 (.int .add 4 1 3)]) ∧ s.me.sys.cpl = .u) := by unfold convoyFits; decide +kernel

/-- A load that its thread has gone past, and what each wait needs to end. -/
def past : State := u.setMe fun k => { k with reads := [⟨1, ⟨4, false⟩, 0x10000, bufLocs 0 4, 0x1000⟩] }
theorem test_meets_deferred : past.ctxRuns 0 = true ∧ (past.ctx 0).wait = none ∧ (past.ctx 0).reads = [⟨1, ⟨4, false⟩, 0x10000, bufLocs 0 4, 0x1000⟩] ∧
    (seenBy past 0).readReady (bufLocs 0 4) = true ∧ Sound (seenBy past 0) 0x10000 ((bufLocs 0 4).map past.visible) ∧ past.histOk ∧
    (past.ctx 0).owes 0x01045FFF = true ∧ goesOn 0x01045FFF = false ∧ (boot 0x01045FFF).me.owes 0x01045FFF = false := by
  unfold State.histOk; decide
theorem test_meets_waitsWith : metWith (seenBy u 0) 0 (.any 2 0 9) = some (2, 65) ∧ metWith (seenBy u 0) 0 (.chunks 2 5 3 9) = some (2, 0) ∧
    metWith (seenBy u 0) 0 (.tryPop 2) = some (2, 1) ∧ metWith (seenBy u 0) 0 (.pwait 2) = some (2, 0) ∧
    metWith (seenBy u 0) 0 (.ctxsv 2 5 1 0x40000) = some (2, 1) ∧
    (seenBy (waits (holds (mineIn .done)) (.any 2 1 9)) 0).maskedEnded 1 = [0] ∧
    (((seenBy (waits (holds (mineIn .done)) (.all 2 1 9)) 0).masked 1).all fun e => e.2.st.terminal) = true ∧
    (waits u (.tlbi 2 0 0)).ctxRuns 0 = true ∧ (seenBy u 0).tlbiReady 0 = true ∧
    (two.setCtx 16 fun k => { k with thread := none }).haltReady 4 = true ∧
    (∀ x ∈ (two.setCtx 16 fun k => { k with thread := none }).residents 1, x = 0) ∧
    (two.ctx 16).thread ≠ none ∧ (two.ctx 16).uid = 2 ∧ (two.ctx 16).saving = none := by decide +kernel
/-- A WAITV of one flag, which reads 0 as it expects, or does not. -/
def flag1 (v : Word) : Flag := ⟨0, 0x10000, v, false, {}⟩
def flagged (v : Word) : State := (waits lane (.flags 1 [flag1 v] (ve (.waitv 1 2 3 4)).ctl 0 9)).setMe fun k => { k with vq := [ve (.waitv 1 2 3 4)] }
theorem test_meets_flagWaits : (flagged 0).ctxRuns 0 = true ∧ ((flagged 0).ctx 0).vq = ve (.waitv 1 2 3 4) :: [] ∧ ((flagged 0).ctx 0).fences = [] ∧
    (match (seenBy (flagged 0) 0).readFlag (ve (.waitv 1 2 3 4)) (flag1 0) with | .met _ _ _ => true | _ => false) = true ∧
    ([flag1 1].all (·.met)) = false ∧ (9 : Word) ≠ 0 := by decide +kernel
theorem test_meets_storesHeld : ({ flying with writes := [w1, { w1 with num := 2, id := 2 }] } : State).inOrder 1 { w1 with num := 2, id := 2 } []
      { locs := bufLocs 0 4, bytes := [1, 2, 3, 4] } = false ∧
    ((withCore flying fun k => { k with stopped := true }).core 0).stopped = true := by decide

/-- The dies' link from the victim's core to the thief's has failed; a record lent that its victim's thread has come to hold. -/
def cutOff : State := { thief (some (.ask 40)) with links := [(dieLink 0 1, { failed := true })] }
theorem test_meets_apart : cutOff.apart 40 1 = true ∧ u.apart 0 1 = false ∧
    (dieOf (coreOf 4) ≠ dieOf 40 ∧ (tget ({} : Link) cutOff.links (dieLink (dieOf (coreOf 4)) (dieOf 40))).failed = true) ∧
    lentQ.held 0 (qe 4) = false ∧
    ((lentQ.setCtx 0 fun k => { k with holds := true }).held 0 { (qe 0) with r := { d3 := 0x100000000 } } = true ∨ lentQ.heldSaved 0 (qe 4) = false) ∧
    ((thief none).ctx 4).opened = [] := by decide +kernel
theorem test_meets_pooledSave : ({ pool := some 0, next := some 1 } : SaveReq).pool = some 0 ∧ im1.ctx = 1 ∧
    pooled.areaFails (coreOf im1.ctx) im1.pa 0x14000 = none := by decide +kernel

/-- No member's link has failed; a die's train that waits on a remote destination of number 2000 or more. -/
theorem test_meets_paths : (∀ m, m < (teamed 1 .cbar).teamCount → (opIn .running 0 (teamed 1 .cbar)).pathBad 0 0 m = none) ∧
    (∀ d, d < 4 → ((opIn .running 0 copy1).slot 0 0).clock.le ((opIn .running 0 copy1).knownAt d) = true) ∧ out1.awaiting = false := by decide +kernel
/-- Flits: one that is no flit; and on a link of which number 5 is expected one of a later number, and one of an earlier. -/
def flitBody : List Byte := leBytes 4 7 ++ [1, 0] ++ List.replicate 242 0
def flit7 : List Byte := flitBody ++ leBytes 8 (crc64 flitBody).toNat
theorem test_meets_flits : flitTaken [1] = false ∧ flitTaken flit7 = true ∧ flitLen flit7 = 0 ∧
    flitSeq flit7 = 7 ∧ flitType flit7 = 1 ∧ (7 + 2 ^ 32 - 5) % 2 ^ 32 < 2 ^ 16 ∧ ¬ (5 + 2 ^ 32 - 7) % 2 ^ 32 < 2 ^ 16 ∧
    (link ({ u with links := [(32, { expect := 5 })] }) 32).early = [] :=
  ⟨by decide +kernel, flitTaken_of _ (by decide +kernel) (by decide +kernel), by decide +kernel, by decide +kernel, by decide +kernel, by decide, by decide,
    by decide⟩
theorem test_meets_bringUpFails : ({ woad := { romOk := false } } : State).woad.romOk = false ∧
    ({ woad := { boot := .selftest, repairFails := [2] } } : State).woad.testFailure = some (4, 4, 2) ∧
    ({ woad := { boot := .verify, loaded := leBytes 64 1 } } : State).woad.boot = .verify ∧
    ({ woad := { boot := .verify, loaded := leBytes 64 1 } } : State).woad.accepts = false := by decide +kernel
theorem test_meets_powerLimits : (¬ ((6 : BitVec 8) &&& 7).toNat < 6) ∧ (∀ k, k < 4 → (State.reset.core (4 * 0 + k)).halted = true) ∧
    (u.core 0).halted = false ∧ 4 ≤ ({ u.power with limit := 4 } : Power).limit ∧ u.power.limit = 0 ∧ 128 - 1 < 128 := by decide
/-- R363: a byte under the limit shows the lower point, 2, where firmware wrote 1; with the limit gone, 1. -/
theorem test_power_shown : ({ opp := [(10, 1)], limit := 2 } : Power).shown 10 = 2 ∧ ({ opp := [(10, 1)] } : Power).shown 10 = 1 := by decide
theorem test_meets_controlRefusals : (u.part 0).inCarve 0x40000000 81920 = false ∧ ((withCore u fun k => { k with ring := [qe 4] }).core 0).ring ≠ [] ∧
    33 ∉ ringSizes ∧ (u.part 0).inCarve 0x3FFFF000 (128 * 4096) = false ∧ u.pstate 0 = 1 ∧ u.pstate 39 = 0 ∧
    (∃ e ∈ u.parts, e.1 ≠ 39 ∧ e.2.carveSize ≠ 0) ∧ (u.setMe fun k => { k with saving := some { pool := some 0 } }).ctx 0 ≠ u.ctx 0 ∧
    (link { u with links := [(16, { up := true })] } 16).failed = false ∧ (0x200000000000 : Nat) ≤ 0x200000010000 := by decide

end Sys2Proof.Tests
end

section

namespace Sys2Proof.Machine

open Sys2Proof.Claims

/-! ### Control registers (03 R58 to R64, 08 R209) -/

/-- A write of one control register leaves every other as it is. -/
theorem Ctrl.get_put_ne (k : Ctrl) {m n : Nat} (v : Word) (h : m ≠ n) : (k.put n v).get m = k.get m := by
  unfold Ctrl.put
  split <;> unfold Ctrl.get <;> split <;> trivial

/-- What is kept of a value written to a control register of the table are the bits that the table gives it (03 R61 to R63). -/
theorem Ctrl.put_ctlKeep_of_controls (k : Ctrl) (v : Word) :
    ∀ e ∈ controls, e.2.1 (k.put e.1 (ctlKeep e.1 v)) = v &&& e.2.2 := by
  have all : v &&& 18446744073709551615#64 = v := BitVec.and_allOnes
  simp [controls, Ctrl.put, ctlKeep, all]

theorem ctlRW_of_controls : ∀ e ∈ controls, ctlRW e.1 = true ∧ e.1 ≠ 0 := by decide

/-- No number is that of an RO and of an RW register. -/
theorem ctlRW_of_ctlRO {r : Nat} (h : ctlRO r = true) : ctlRW r = false := by
  simp only [ctlRO, ctlRW, Bool.and_eq_true, decide_eq_true_eq, Bool.or_eq_false_iff, Bool.and_eq_false_iff,
    decide_eq_false_iff_not] at h ⊢
  omega

theorem ctlRO_of_ctlRW {r : Nat} (h : ctlRW r = true) : ctlRO r = false := by
  cases ho : ctlRO r with
  | false => rfl
  | true => exact absurd ((ctlRW_of_ctlRO ho).symm.trans h) Bool.false_ne_true

/-- The issuing context has put v in control register r and goes on at the next word; nothing else has changed. -/
structure State.WroteCtl (s t : State) (r : Nat) (v : Word) : Prop where
  ctrl : t.me.ctrl = s.me.ctrl.put r v
  regs : s.me.Wrote t.me 0 0
  passed : s.me.Passed t.me (s.me.pc + 4)
  still : { t.me.still with ctrl := {} } = { s.me.still with ctrl := {} }
  only : s.OnlyMe t

theorem State.WroteCtl.others {s t : State} {r : Nat} {v : Word} (h : s.WroteCtl t r v) : ctlOthers s.me t.me r :=
  ⟨h.still, fun _ hm => by rw [h.ctrl, Ctrl.get_put_ne _ _ hm]⟩

/-- A context that keeps its scalar registers has written none. -/
theorem Ctx.wrote_none {k k' : Ctx} (h : k'.x = k.x) : k.Wrote k' 0 0 := by
  intro r
  rw [if_neg (fun hr => hr.2 hr.1), Ctx.rx, Ctx.rx, h]

/-- A write of an RW register with a value that is not refused; one of VL waits for no VCOMP (08 R209, 09 R223). -/
theorem State.ctlWrite_rw (st : State) (s : Fin 4) {r : Nat} {v : Word} (hw : ctlRW r = true) (hv : ctlRefused r v = false)
    (hl : r = 0 → st.me.vlPending = false) : ∃ t, st.ctlWrite s r v = .next t ∧ st.WroteCtl t r (ctlKeep r v) := by
  have hp : (decide (r = 0) && st.me.vlPending) = false := by simpa using hl
  refine ⟨_, by simp only [State.ctlWrite, hw, ctlRO_of_ctlRW hw, hv, hp]; rfl, ?_⟩
  refine ⟨?_, ?_, ?_, ?_, st.onlyMe_setMe _⟩ <;> rw [State.setMe_me]
  · rfl
  · exact Ctx.wrote_none (Ctx.shade_x ..)
  · exact ⟨congrArg (· + 4) (Ctx.shade_pc ..), congrArg (· + 1) (Ctx.shade_icnt ..), rfl⟩
  · unfold Ctx.shade
    split <;> rfl

/-- A write of an RO register is ignored (08 R209). -/
theorem State.ctlWrite_ro (st : State) (s : Fin 4) {r : Nat} (v : Word) (ho : ctlRO r = true) :
    ∃ t, st.ctlWrite s r v = .next t ∧ st.WroteReg t 0 0 (st.me.pc + 4) :=
  ⟨_, by simp only [State.ctlWrite, ctlRW_of_ctlRO ho, ho]; rfl, st.wroteReg_advance s 0 0 1⟩

/-- CRW writes what it reads of its scalar register. -/
theorem exec_crw_of_reads (st : State) (s : Fin 4) (r : Fin 64) {a : Fin 32} (ha : st.Reads (nums [a])) :
    exec (.crw s r a) st = st.ctlWrite s r.val (st.me.rx a.val) := by
  change execCrw s r a st = _
  unfold execCrw
  rw [st.checked_of_reads (l := [a.val]) _ ha, st.rx_of_short ha.1 (List.mem_singleton_self _)]

/-- CRR of an RW register; of VL, with no VCOMP to wait for (09 R223). -/
theorem exec_crr_rw (st : State) (s : Fin 4) (d : Fin 32) {r : Fin 64} (hw : ctlRW r.val = true)
    (hl : r.val = 0 → st.me.vlPending = false) (hr : st.Reads [ctlReg r.val]) :
    ∃ t, exec (.crr s d r) st = .next t ∧ st.WroteReg t d (st.me.ctrl.get r.val) (st.me.pc + 4) := by
  have hp : (decide (r.val = 0) && st.me.vlPending) = false := by simpa using hl
  obtain ⟨t, ht, w⟩ := st.scalar_spec s d 2 [ctlReg r.val] (fun t => t.rc r.val) hr
  rw [st.rc_of_short hr.1 (List.mem_singleton_self _)] at w
  refine ⟨t, ?_, w⟩
  change execCrr s d r st = _
  simp only [execCrr, hw, hp]
  exact ht

/-- CRR of an RO register gives it as it stands (03 R59). -/
theorem exec_crr_ro (st : State) (s : Fin 4) (d : Fin 32) {r : Fin 64} (ho : ctlRO r.val = true) (hr : st.Reads [ctlReg r.val]) :
    ∃ t, exec (.crr s d r) st = .next t ∧ st.WroteReg t d (st.ctlLive st.cur r.val) (st.me.pc + 4) := by
  have h0 : r.val ≠ 0 := fun h => by rw [h] at ho; exact absurd ho (by decide)
  obtain ⟨t, ht, w⟩ := st.scalar_spec s d 2 [ctlReg r.val] (fun t => t.ctlLive t.cur r.val) hr
  refine ⟨t, ?_, w⟩
  change execCrr s d r st = _
  simp only [execCrr, ctlRW_of_ctlRO ho, ho, h0]
  exact ht

/-- A write to a register of the table, of a value that is not refused, in the table's terms. -/
theorem State.ctlWrite_controls (st : State) (s : Fin 4) {e : Nat × (Ctrl → Word) × Word} (he : e ∈ controls) {r : Fin 64}
    (hr : r.val = e.1) {v : Word} (hv : ctlRefused r.val v = false) : ∃ t, st.ctlWrite s r.val v = .next t ∧
      e.2.1 t.me.ctrl = v &&& e.2.2 ∧ ctlOthers st.me t.me r.val ∧ st.me.Wrote t.me 0 0 ∧
      st.me.Passed t.me (st.me.pc + 4) ∧ st.OnlyMe t := by
  obtain ⟨hw, h0⟩ := ctlRW_of_controls e he
  obtain ⟨t, ht, w⟩ := st.ctlWrite_rw s (hr ▸ hw) hv fun h => absurd (hr ▸ h) h0
  refine ⟨t, ht, ?_, w.others, w.regs, w.passed, w.only⟩
  rw [w.ctrl, hr, Ctrl.put_ctlKeep_of_controls _ _ e he]

/-- Settles O11: every clause is a read or a write of one control register, as `execCrr` and `State.ctlWrite` do it. -/
theorem controlRegisters : Obligations.ControlRegisters := by
  unfold Obligations.ControlRegisters
  intro st s
  refine ⟨fun d r h0 hw hr => ?_, fun d r ho hr => ?_, fun e he r a hr ha hv => ?_, fun e he r i hr hv => ?_, fun r i ho => ?_,
    fun d hl hr => ?_, fun a hl ha hv => ?_⟩
  · exact exec_crr_rw st s d hw (fun h => absurd h h0) hr
  · exact exec_crr_ro st s d ho hr
  · rw [exec_crw_of_reads st s r ha]
    exact st.ctlWrite_controls s he hr hv
  · exact st.ctlWrite_controls s he hr hv
  · exact st.ctlWrite_ro s (i.setWidth 64) ho
  · exact exec_crr_rw st s d (r := 0) rfl (fun _ => hl) hr
  · obtain ⟨t, ht, w⟩ := st.ctlWrite_rw s (r := 0) rfl hv fun _ => hl
    refine ⟨t, ?_, w.others, ?_⟩
    · exact (exec_crw_of_reads st s 0 ha).trans ht
    · rw [w.ctrl]
      exact (apply_ite (st.me.rx a.val &&& ·) _ _ _).symm

end Sys2Proof.Machine
end

section

namespace Sys2Proof.Machine

open Sys2Proof.Claims

/-! ### Elements and groups of bricks (03 R56, R66, R79) -/

theorem fmt_width_pos (f : Fmt) : 0 < f.width := by
  cases f <;> exact Nat.zero_lt_succ _
theorem fmt_width_dvd (f : Fmt) : f.width ∣ 256 := by
  have h : ∀ w ∈ [4, 8, 16, 32, 64], w ∣ 256 := by decide
  cases f <;> exact h _ (by simp [Fmt.width])

theorem VEntry.w_pos (e : VEntry) : 0 < e.w := fmt_width_pos e.fmt

/-- The elements of a group fill its 2048 bits. -/
theorem VEntry.w_mul_groupElems (e : VEntry) : e.w * groupElems e.w = 2048 := by
  rw [groupElems, xExtent, Nat.mul_left_comm, Nat.mul_div_cancel' (show e.w ∣ 256 from fmt_width_dvd e.fmt)]

theorem VEntry.groupElems_pos (e : VEntry) : 0 < groupElems e.w :=
  Nat.pos_of_mul_pos_left (e.w_mul_groupElems ▸ (by decide : 0 < 2048))

/-- An element is one of its group's. -/
theorem VEntry.mem_groupSpan (e : VEntry) (j : Nat) : j ∈ groupSpan e.w (j / groupElems e.w) := by
  refine List.mem_map.2 ⟨j % groupElems e.w, List.mem_range.2 (Nat.mod_lt _ e.groupElems_pos), ?_⟩
  rw [Nat.mul_comm, Nat.div_add_mod]

/-- The first field of numbers packed one after another, and the fields after it. -/
theorem fld_pack_low (w a v : Nat) : fld (a * 2 ^ w + v % 2 ^ w) 0 w = v % 2 ^ w := by
  simp [fld, Nat.add_mod]

theorem fld_pack_high (w n a v : Nat) : fld (a * 2 ^ w + v % 2 ^ w) (w + n) w = fld a n w := by
  have h : (a * 2 ^ w + v % 2 ^ w) / 2 ^ w = a := by
    rw [Nat.mul_comm, Nat.mul_add_div (Nat.two_pow_pos w), Nat.div_eq_of_lt (Nat.mod_lt _ (Nat.two_pow_pos w)), Nat.add_zero]
  rw [fld, Nat.pow_add, ← Nat.div_div_eq_div_mul, h, fld]

theorem fld_foldr_pack (w : Nat) (v : Nat → Nat) (l : List Nat) {j : Nat} (h : j < l.length) :
    fld (l.foldr (fun j a => a * 2 ^ w + v j % 2 ^ w) 0) (w * j) w = v l[j] % 2 ^ w := by
  induction l generalizing j with
  | nil => exact absurd h (Nat.not_lt_zero _)
  | cons x l ih =>
    cases j with
    | zero => exact fld_pack_low w _ _
    | succ j =>
      rw [List.foldr_cons, Nat.mul_succ, Nat.add_comm (w * j), fld_pack_high, ih (Nat.lt_of_succ_lt_succ h), List.getElem_cons_succ]

/-- A field of a number that lies within the n bits kept of it. -/
theorem fld_toNat_ofNat {n lo w : Nat} (a : Nat) (h : lo + w ≤ n) : fld (BitVec.ofNat n a).toNat lo w = fld a lo w := by
  apply Nat.eq_of_testBit_eq
  intro i
  simp only [fld, BitVec.toNat_ofNat, Nat.testBit_mod_two_pow, Nat.testBit_div_two_pow]
  by_cases hi : i < w
  · simp [hi, show i + lo < n by omega]
  · simp [hi]

/-- Element j of a packed group. -/
theorem fld_packGroup (w m : Nat) (v : Nat → Nat) {j : Nat} (hj : j < m) (hm : w * m ≤ 2048) :
    fld (packGroup w m v).toNat (w * j) w = v j % 2 ^ w := by
  have hb : w * j + w ≤ 2048 := by rw [← Nat.mul_succ]; exact Nat.le_trans (Nat.mul_le_mul_left w hj) hm
  rw [packGroup, fld_toNat_ofNat _ hb, fld_foldr_pack w v _ (by simpa using hj), List.getElem_range]

/-- A bit of a vector of which the l bits from p on have been replaced. -/
theorem getLsbD_replaced {n : Nat} (b : BitVec n) {l : Nat} (v : BitVec l) (p : Nat) {i : Nat} (hi : i < n) :
    ((b &&& ~~~(BitVec.ofNat n ((2 ^ l - 1) * 2 ^ p))) ||| BitVec.ofNat n (v.toNat * 2 ^ p)).getLsbD i =
      if p ≤ i ∧ i < p + l then v.getLsbD (i - p) else b.getLsbD i := by
  simp only [BitVec.getLsbD_or, BitVec.getLsbD_and, BitVec.getLsbD_not, BitVec.getLsbD_ofNat, Nat.testBit_mul_two_pow,
    Nat.testBit_two_pow_sub_one, BitVec.testBit_toNat, hi, decide_true, Bool.true_and]
  by_cases hp : p ≤ i
  · by_cases hl : i < p + l
    · simp [hp, hl, show i - p < l by omega]
    · have hz : v.getLsbD (i - p) = false := BitVec.getLsbD_of_ge _ _ (by omega)
      simp [hp, hl, hz, show ¬ i - p < l by omega]
  · simp [hp]

theorem getLsbD_setGroup (b : BitVec 16384) (g : Nat) (v : BitVec 2048) {i : Nat} (hi : i < 16384) :
    (setGroup b g v).getLsbD i = if i / 2048 = g then v.getLsbD (i - 2048 * g) else b.getLsbD i := by
  simp only [setGroup, getLsbD_replaced b v (2048 * g) hi, show (2048 * g ≤ i ∧ i < 2048 * g + 2048) ↔ i / 2048 = g by omega]

/-- An element lies wholly in its group. -/
theorem VEntry.bit_div_group (e : VEntry) (j : Nat) {i : Nat} (hi : i < e.w) : (e.w * j + i) / 2048 = j / groupElems e.w := by
  rw [← e.w_mul_groupElems, ← Nat.div_div_eq_div_mul, Nat.mul_add_div e.w_pos, Nat.div_eq_of_lt hi, Nat.add_zero]

theorem VEntry.brickElems_mul_w (e : VEntry) : e.w * brickElems e.w = 16384 := by
  have h := e.w_mul_groupElems
  rw [groupElems, Nat.mul_left_comm] at h
  rw [brickElems, Nat.mul_left_comm]
  omega

theorem VEntry.elem_bits_lt (e : VEntry) {j : Nat} (hj : j < brickElems e.w) : e.w * j + e.w ≤ 16384 := by
  rw [← e.brickElems_mul_w, ← Nat.mul_succ]
  exact Nat.mul_le_mul_left _ hj

/-- Element j, as the number of its bits. -/
theorem testBit_elem (b : BitVec 16384) (w j i : Nat) : (elem b w j).testBit i = (decide (i < w) && b.getLsbD (w * j + i)) := by
  rw [elem, BitVec.testBit_toNat, BitVec.getLsbD_extractLsb']

theorem testBit_fld_toNat {n : Nat} (v : BitVec n) (lo w i : Nat) :
    (fld v.toNat lo w).testBit i = (decide (i < w) && v.getLsbD (lo + i)) := by
  rw [fld, Nat.testBit_mod_two_pow, Nat.testBit_div_two_pow, BitVec.testBit_toNat, Nat.add_comm]

theorem elem_lt (b : BitVec 16384) (w j : Nat) : elem b w j < 2 ^ w := (b.extractLsb' (w * j) w).isLt

/-- An element of a brick of which one group has been replaced. -/
theorem VEntry.elem_setGroup (e : VEntry) (b : BitVec 16384) (g : Nat) (v : BitVec 2048) {j : Nat} (hj : j < brickElems e.w) :
    elem (setGroup b g v) e.w j =
      if j / groupElems e.w = g then fld v.toNat (e.w * (j - g * groupElems e.w)) e.w else elem b e.w j := by
  have hb := e.elem_bits_lt hj
  apply Nat.eq_of_testBit_eq
  intro i
  rw [testBit_elem]
  by_cases hi : i < e.w
  · rw [getLsbD_setGroup _ _ _ (by omega), e.bit_div_group j hi]
    split
    · next h =>
      subst h
      rw [testBit_fld_toNat]
      congr 2
      rw [Nat.mul_sub, Nat.mul_comm (j / _), ← Nat.mul_assoc, e.w_mul_groupElems]
      have := e.bit_div_group j e.w_pos
      omega
    · rw [testBit_elem]
  · split <;> simp [testBit_elem, testBit_fld_toNat, hi]

/-- An element of a group of a brick. -/
theorem VEntry.fld_groupOf (e : VEntry) (b : BitVec 16384) {g j : Nat} (hj : j / groupElems e.w = g) :
    fld (groupOf b g).toNat (e.w * (j - g * groupElems e.w)) e.w = elem b e.w j := by
  subst hj
  apply Nat.eq_of_testBit_eq
  intro i
  rw [testBit_fld_toNat, testBit_elem]
  by_cases hi : i < e.w
  · have := e.bit_div_group j hi
    have h0 := e.bit_div_group j e.w_pos
    rw [groupOf, BitVec.getLsbD_extractLsb', Nat.mul_sub, Nat.mul_comm (j / _), ← Nat.mul_assoc, e.w_mul_groupElems]
    rw [show 2048 * (j / groupElems e.w) + (e.w * j - 2048 * (j / groupElems e.w) + i) = e.w * j + i by omega,
      decide_eq_true (show e.w * j - 2048 * (j / groupElems e.w) + i < 2048 by omega), Bool.true_and]
  · simp [hi]

/-- A brick of which a word has written one group (03 R66). -/
theorem VEntry.elem_merge (e : VEntry) (on : Nat → Bool) (b : BitVec 16384) (g : Nat) (res : Nat → Nat) {j : Nat}
    (hj : j < brickElems e.w) : elem (setGroup b g (e.merge on (groupOf b g) g res)) e.w j =
      if j / groupElems e.w ≠ g ∨ inVL e.w e.ctl.vl j = false then elem b e.w j
      else if on j then res j % 2 ^ e.w
      else if bitW e.ctl.vm 6 then 0 else elem b e.w j := by
  rw [e.elem_setGroup b g _ hj]
  by_cases hg : j / groupElems e.w = g
  · have hm : g * groupElems e.w + (j - g * groupElems e.w) = j :=
      Nat.add_sub_cancel' (hg ▸ Nat.div_mul_le_self j _)
    have hl : j - g * groupElems e.w < groupElems e.w := by
      have := Nat.lt_div_mul_add (a := j) e.groupElems_pos
      rw [hg] at this
      omega
    rw [if_pos hg, VEntry.merge, fld_packGroup _ _ _ hl (Nat.le_of_eq e.w_mul_groupElems), hm, e.fld_groupOf b hg]
    have keep := Nat.mod_eq_of_lt (elem_lt b e.w j)
    cases hv : inVL e.w e.ctl.vl j with
    | false => simpa [hv] using keep
    | true =>
      simp only [hv, hg, ne_eq, not_true, or_false, Bool.true_eq_false, if_false, Bool.not_true, Bool.false_eq_true]
      rw [apply_ite (· % 2 ^ e.w), apply_ite (· % 2 ^ e.w), Nat.zero_mod, keep]
  · simp [hg]

end Sys2Proof.Machine

namespace Sys2Proof.Claims

open Sys2Proof.Machine

/-! ### States that agree in every context and in the rest -/

theorem onlyCtxs_refl (st : State) (l : List Nat) : OnlyCtxs st st l := ⟨rfl, fun _ _ => rfl⟩

theorem OnlyCtxs.trans {s t u : State} {l : List Nat} (h : OnlyCtxs s t l) (h' : OnlyCtxs t u l) : OnlyCtxs s u l where
  rest := by
    have := h'.rest
    rw [← h.rest, ← this]
  ctxs := fun c hc => (h'.ctxs c hc).trans (h.ctxs c hc)

theorem OnlyCtxs.mono {s t : State} {l l' : List Nat} (h : OnlyCtxs s t l) (hl : l ⊆ l') : OnlyCtxs s t l' :=
  ⟨h.rest, fun c hc => h.ctxs c (mt (hl ·) hc)⟩

/-- A change of one context changes no other. -/
theorem onlyCtxs_setCtx (st : State) (c : Nat) (f : Ctx → Ctx) : OnlyCtxs st (st.setCtx c f) [c] :=
  ⟨rfl, fun _ hk => st.setCtx_ctx_ne f (fun h => hk (h ▸ List.mem_singleton_self _))⟩

/-- A change of a context that leaves it as it is. -/
theorem onlyCtxs_setCtx_same (st : State) (c : Nat) (f : Ctx → Ctx) (h : f (st.ctx c) = st.ctx c) :
    OnlyCtxs st (st.setCtx c f) [] := by
  refine ⟨rfl, fun k _ => ?_⟩
  rw [State.setCtx_ctx, h]
  exact ite_eq_right_iff.2 fun hk => hk ▸ rfl

section
variable {st t : State} {l : List Nat} (h : OnlyCtxs st t l)
include h

theorem OnlyCtxs.mem_eq : t.mem = st.mem := (congrArg State.mem h.rest :)
theorem OnlyCtxs.parts_eq : t.parts = st.parts := (congrArg State.parts h.rest :)
theorem OnlyCtxs.hist_eq : t.hist = st.hist := (congrArg State.hist h.rest :)
theorem OnlyCtxs.badLines_eq : t.badLines = st.badLines := (congrArg State.badLines h.rest :)
theorem OnlyCtxs.deadChannels_eq : t.deadChannels = st.deadChannels := (congrArg State.deadChannels h.rest :)
theorem OnlyCtxs.peek_eq (pa : Nat) : t.peek pa = st.peek pa := by rw [State.peek, State.peek, h.mem_eq]
theorem OnlyCtxs.visible_eq (q : Loc) : t.visible q = st.visible q := by
  cases q with
  | phys pa => rfl
  | buf p i off => rw [State.visible, State.visible, State.part, State.part, h.parts_eq]

end

end Sys2Proof.Claims

namespace Sys2Proof.Machine

open Sys2Proof.Claims

/-! ### Reads of memory in which every byte has one value (05 R120) -/

/-- No byte has held another value that a read might return, and every line can be read. -/
structure State.StillMemory (st : State) : Prop where
  hist : st.hist = []
  badLines : st.badLines = []
  deadChannels : st.deadChannels = []

theorem State.StillMemory.of_onlyCtxs {st t : State} {l : List Nat} (hs : st.StillMemory) (h : OnlyCtxs st t l) : t.StillMemory :=
  ⟨h.hist_eq.trans hs.hist, h.badLines_eq.trans hs.badLines, h.deadChannels_eq.trans hs.deadChannels⟩

/-- Memory at rest is still. -/
theorem stillMemory_of_atRest {st : State} (h : AtRest st) : st.StillMemory := by
  obtain ⟨⟨hist, -, -, lines, channels, -⟩, -⟩ := h
  exact ⟨hist, lines, channels⟩

theorem stillMemory_of_seenBy {st : State} {c : Nat} (h : (seenBy st c).StillMemory) : st.StillMemory :=
  ⟨h.hist, h.badLines, h.deadChannels⟩

/-- The one version of a byte of still memory. -/
def State.stillVer (st : State) (pa : Nat) : Ver := ⟨st.peek pa, 0, 0, 0, {}, .none⟩

theorem Clock.join_zero (k : Clock) : k.join {} = k := by simp [Clock.join]

/-- A fold that starts where no step leads away. -/
theorem foldl_of_fixed {α β : Type} {f : α → β → α} {a : α} (h : ∀ b, f a b = a) (l : List β) : l.foldl f a = a := by
  induction l with
  | nil => rfl
  | cons b l ih => rw [List.foldl_cons, h, ih]

/-- The clocks of versions of still memory add nothing to a clock. -/
theorem foldl_join_stillVer (st : State) (pas : List Nat) (k : Clock) :
    (pas.map st.stillVer).foldl (fun x v => x.join v.clock) k = k := by
  rw [List.foldl_map]
  exact foldl_of_fixed (fun _ => Clock.join_zero k) pas

/-- Versions of time 0 raise no table of moments. -/
theorem raiseSeen_stillVer (st : State) (t : Table Nat) (pas : List Nat) : raiseSeen t pas (pas.map st.stillVer) = t := by
  unfold raiseSeen
  induction pas with
  | nil => rfl
  | cons p pas ih => exact ih

/-- What is obtained with no clock leaves the words of a context as they are. -/
theorem Ctx.obtained_zero (k : Ctx) (icnt : Word) : k.obtained icnt {} = k := by
  simp [Ctx.obtained, Clock.join_zero]

section
variable {st : State} (hs : st.StillMemory)
include hs

theorem State.verAt_of_still (pa t : Nat) : st.verAt pa t = st.stillVer pa := by
  rw [State.verAt, hs.hist]
  rfl

theorem State.readVer_of_still (pa floor salt : Nat) : st.readVer pa floor salt = st.stillVer pa := by
  rw [State.readVer, State.versFrom, State.verAt_of_still hs, hs.hist]
  rfl

theorem State.raised_of_still (ts : List Nat) (pa : Nat) (v : Ver) : st.raised ts pa v = v := by
  rw [State.raised, hs.hist]
  rfl

theorem State.whole_of_still (n : Nat) (l : List (Nat × Ver)) : st.whole n l = l := by
  induction n generalizing l with
  | zero => rfl
  | succ n ih =>
    rw [State.whole, ih]
    simp only [State.raised_of_still hs, List.map_id']

/-- Every read of still memory gives its bytes. -/
theorem State.readAccess_of_still (floor : Nat → Nat) (va : Nat) (pas : List Nat) (salt : Nat) :
    st.readAccess floor va pas salt = pas.map st.stillVer := by
  simp only [State.readAccess, State.whole_of_still hs, State.readVer_of_still hs, ite_self, List.map_map, Function.comp_def]
  rw [← Function.comp_def st.stillVer, ← List.map_map, List.map_fst_zip (by simp)]

/-- No line of still memory has to be rebuilt. -/
theorem State.rebuild_of_still (pas : List Nat) : st.rebuild pas = st := by
  unfold State.rebuild State.rebuildFor
  refine foldl_of_fixed (fun x => ?_) _
  have whole : st.lineDead x.2 x.1 = false := by
    simp only [State.lineDead, hs.badLines, hs.deadChannels, List.not_mem_nil, decide_false, Bool.or_self]
  rw [whole, Bool.false_and, if_neg Bool.false_ne_true]

/-- What an element of a memory word reads of still memory: the bytes at its locations, and no context changes. -/
theorem State.readBytes_of_still (c : Nat) (e : VEntry) (locs : List Loc) (salt : Nat) :
    (st.readBytes c e locs salt).1 = locs.map (fun q => st.peek (st.visible q)) ∧
      OnlyCtxs st (st.readBytes c e locs salt).2 [] := by
  have bytes : ((locs.map st.visible).map st.stillVer).map (·.val) = locs.map fun q => st.peek (st.visible q) := by
    simp only [List.map_map, Function.comp_def, State.stillVer]
  simp only [State.readBytes, State.rebuild_of_still hs]
  split
  · simp only [State.looseRead, State.readAccess_of_still hs, raiseSeen_stillVer, ite_self]
    exact ⟨bytes, onlyCtxs_setCtx_same _ _ _ rfl⟩
  · split
    · simp only [State.rangeRead, State.readAccess_of_still hs]
      exact ⟨bytes, onlyCtxs_refl _ _⟩
    · simp only [State.threadRead, State.readAccess_of_still hs, raiseSeen_stillVer, ite_self, foldl_join_stillVer,
        Ctx.obtained_zero]
      refine ⟨bytes, OnlyCtxs.trans (onlyCtxs_setCtx_same _ _ _ ?_) (onlyCtxs_setCtx_same _ _ _ rfl)⟩
      rw [foldl_join_stillVer]
      exact congrArg (fun x => { st.ctx c with seen := x }) (raiseSeen_stillVer st _ _)

end

/-! ### The elements that a word reads of still memory (10 R240, R243, R246) -/

/-- The entry of a number in the table that lists a function over some numbers. -/
theorem tget_map_of_mem {α : Type} (d : α) (f : Nat → α) {l : List Nat} {i : Nat} (h : i ∈ l) :
    tget d (l.map fun i => (i, f i)) i = f i := by
  induction l with
  | nil => cases h
  | cons j l ih =>
    rw [List.map_cons, tget]
    split
    · next hj => rw [hj]
    · next hj => exact ih ((List.mem_cons.1 h).resolve_left (Ne.symm hj))

/-- A fold whose every step adds one entry to a table, and keeps P of what it carries on. -/
theorem foldl_entries {β : Type} (f : Table Nat × β → Nat → Table Nat × β) (v : Nat → Nat) (P : β → Prop)
    (hf : ∀ a i, P a.2 → (f a i).1 = a.1 ++ [(i, v i)] ∧ P (f a i).2) (l : List Nat) (a : Table Nat × β) (ha : P a.2) :
    (l.foldl f a).1 = a.1 ++ l.map (fun i => (i, v i)) ∧ P (l.foldl f a).2 := by
  induction l generalizing a with
  | nil => exact ⟨(List.append_nil _).symm, ha⟩
  | cons i l ih =>
    obtain ⟨h1, h2⟩ := hf a i ha
    obtain ⟨h3, h4⟩ := ih (f a i) h2
    exact ⟨by rw [List.foldl_cons, h3, h1, List.append_assoc]; rfl, h4⟩

/-- The number that the bytes at some locations hold. -/
def State.numberAt (st : State) (locs : List Loc) : Nat := leNat (locs.map fun q => st.peek (st.visible q))

/-- The part of a number that is element i: all of it, or of a 4-bit format a nibble (10 R237). -/
def VEntry.partOf (e : VEntry) (i v : Nat) : Nat := match (e.addrOf 0 i).2 with
  | some n => fld v (4 * n) 4
  | none => v

theorem loaded_eq (st : State) (e : VEntry) (locs : Table (List Loc)) (i : Nat) :
    loaded st e locs i = e.partOf i (st.numberAt (tget [] locs i)) := rfl

/-- What `State.readElems` does with one element. -/
def State.readElem (c : Nat) (e : VEntry) (a : Table Nat × State) (i : Nat) : Table Nat × State :=
  let r := a.2.readBytes c e (tget [] e.locs i) (16384 + 16 * i)
  (a.1 ++ [(i, e.partOf i (leNat r.1))], r.2)

theorem State.readElems_eq (st : State) (c : Nat) (e : VEntry) (els : List Nat) :
    st.readElems c e els = els.foldl (State.readElem c e) ([], st) := rfl

/-- What `State.gather` does with one element. -/
def State.gatherElem (c : Nat) (e : VEntry) (a : Table Nat × List (List Loc × Nat) × State) (i : Nat) :
    Table Nat × List (List Loc × Nat) × State :=
  let locs := tget [] e.locs i
  match a.2.1.find? (·.1 = locs) with
  | some x => (a.1 ++ [(i, x.2)], a.2)
  | none =>
    let r := a.2.2.readBytes c e locs (16384 + 16 * i)
    (a.1 ++ [(i, leNat r.1)], a.2.1 ++ [(locs, leNat r.1)], r.2)

theorem State.gather_eq (st : State) (c : Nat) (e : VEntry) (got : List (List Loc × Nat)) (els : List Nat) :
    st.gather c e got els = els.foldl (State.gatherElem c e) ([], got, st) := rfl

section
variable {st : State} (hs : st.StillMemory)
include hs

/-- What one element reads, in a state that differs from a still one in no context. -/
theorem State.readBytes_of_same {t : State} (ht : OnlyCtxs st t []) (c : Nat) (e : VEntry) (locs : List Loc) (salt : Nat) :
    leNat (t.readBytes c e locs salt).1 = st.numberAt locs ∧ OnlyCtxs st (t.readBytes c e locs salt).2 [] := by
  obtain ⟨hb, hc⟩ := State.readBytes_of_still (hs.of_onlyCtxs ht) c e locs salt
  refine ⟨?_, ht.trans hc⟩
  simp only [hb, ht.peek_eq, ht.visible_eq, State.numberAt]

/-- The elements that a load reads. -/
theorem State.readElems_of_still (c : Nat) (e : VEntry) (els : List Nat) :
    (st.readElems c e els).1 = els.map (fun i => (i, loaded st e e.locs i)) ∧ OnlyCtxs st (st.readElems c e els).2 [] := by
  rw [State.readElems_eq]
  refine foldl_entries _ _ (OnlyCtxs st · []) (fun a i ha => ?_) els ([], st) (onlyCtxs_refl _ _)
  obtain ⟨hv, hc⟩ := State.readBytes_of_same hs ha c e (tget [] e.locs i) (16384 + 16 * i)
  exact ⟨by rw [State.readElem, hv, loaded_eq], hc⟩

/-- The elements that GATHB reads, each address once. -/
theorem State.gather_of_still (c : Nat) (e : VEntry) (els : List Nat) :
    (st.gather c e [] els).1 = els.map (fun i => (i, st.numberAt (tget [] e.locs i))) ∧
      OnlyCtxs st (st.gather c e [] els).2.2 [] := by
  rw [State.gather_eq]
  refine (foldl_entries _ (fun i => st.numberAt (tget [] e.locs i))
    (fun b => (∀ x ∈ b.1, x.2 = st.numberAt x.1) ∧ OnlyCtxs st b.2 []) (fun a i ha => ?_) els ([], [], st)
    ⟨fun _ hx => absurd hx List.not_mem_nil, onlyCtxs_refl _ _⟩).imp_right And.right
  obtain ⟨hgot, hsame⟩ := ha
  rw [State.gatherElem]
  split
  · next x hx =>
    have hl : x.1 = tget [] e.locs i := by simpa using List.find?_some hx
    exact ⟨by rw [hgot x (List.mem_of_find?_eq_some hx), hl], hgot, hsame⟩
  · obtain ⟨hv, hc⟩ := State.readBytes_of_same hs hsame c e (tget [] e.locs i) (16384 + 16 * i)
    refine ⟨by simp only [hv], fun x hx => ?_, hc⟩
    rcases List.mem_append.1 hx with hx | hx
    · exact hgot x hx
    · rw [List.mem_singleton.1 hx, hv]

end

/-! ### Places in lists -/

/-- The first element that p holds of. -/
theorem findIdx_eq_some {α : Type} {p : α → Bool} {l : List α} {j : Nat} {x : α} (hj : l[j]? = some x) (hx : p x = true)
    (h : ∀ i y, i < j → l[i]? = some y → p y = false) : findIdx p l = some j := by
  obtain ⟨hl, rfl⟩ := List.getElem?_eq_some_iff.1 hj
  have hi : l.findIdx p = j :=
    (List.findIdx_eq hl).2 ⟨hx, fun i hi => h i _ hi (List.getElem?_eq_getElem (Nat.lt_trans hi hl))⟩
  simp only [findIdx, hi, hl, if_true]

theorem findIdx_append_cons {α : Type} {p : α → Bool} {pre : List α} {x : α} (post : List α) (hx : p x = true)
    (h : ∀ y ∈ pre, p y = false) : findIdx p (pre ++ x :: post) = some pre.length := by
  refine findIdx_eq_some (by simp) hx fun i y hi hy => h y ?_
  rw [List.getElem?_append_left hi] at hy
  exact List.mem_of_getElem? hy

theorem dropAt_append_cons {α : Type} (pre : List α) (x : α) (post : List α) :
    dropAt (pre ++ x :: post) pre.length = pre ++ post := by
  induction pre with
  | nil => rfl
  | cons a pre ih => exact congrArg (a :: ·) ih

/-! ### REMOTE_GROUP_SERVE (03 R78) -/

/-- A group is landed when no landing to come is for it (03 R75, R76). -/
theorem Ctx.isLanded_eq_true (k : Ctx) {r g : Nat} (h : ∀ l ∈ k.landing, l.reg ≠ r ∨ l.group ≠ g) : k.isLanded r g = true := by
  simp only [Ctx.isLanded, Bool.not_eq_true', List.any_eq_false, Bool.and_eq_true, decide_eq_true_eq]
  exact fun l hl ⟨hr, hg⟩ => (h l hl).elim (· hr) (· hg)

/-- The service of a landed group to the word that needs it first. -/
theorem exec_remoteGroupServe_of_landed (st : State) (c src : Nat) (r : Fin 32) (g : Fin 8) {j : Nat}
    (hf : findIdx (fun e => e.needsRemote c src r.val g.val) (firstConvoy (st.ctx c).vq) = some j)
    (hl : (st.ctx src).isLanded r.val g.val = true) (hb : ((st.ctx src).land r.val).getLsbD g.val = true) :
    exec (.remoteGroupServe c src r g) st = .next (st.setWord c j fun e => { e with
      served := e.served ++ [⟨src, r.val, g.val, groupOf ((st.ctx src).brick r.val) g.val⟩] }) := by
  change execRemoteGroupServe c src r g st = _
  simp only [execRemoteGroupServe, hf, hl, hb, Bool.and_self, if_true]

/-! ### GROUP_LAND (03 R76, 10 R245, R246) -/

/-- What GROUP_LAND reads for a landing: its active elements, and for GATHB what the word has fetched. -/
def State.landReads (st : State) (c : Nat) (l : Landing) : Table Nat × List (List Loc × Nat) × State :=
  let els := (groupSpan l.entry.w l.group).filter l.entry.on
  match l.entry.op with
  | .gathb .. => st.gather c l.entry l.got els
  | _ => let r := st.readElems c l.entry els; (r.1, l.got, r.2)

/-- The brick and the landings to come, once landing i, l, has landed with the values read for its elements. -/
def Ctx.putGroup (k : Ctx) (l : Landing) (i : Nat) (vals : Table Nat) (got : List (List Loc × Nat)) : Ctx :=
  let old := groupOf (k.brick l.reg) l.group
  let new := l.settled (l.entry.merge l.entry.on old l.group fun i => tget 0 vals i)
  { k.setBrick l.reg (setGroup (k.brick l.reg) l.group new) with
    landing := (dropAt k.landing i).map fun (m : Landing) => if m.entry.icnt = l.entry.icnt then { m with got := got } else m }

/-- The same with the landed bit, which the last word that writes the group sets. -/
def Ctx.landGroup (k : Ctx) (l : Landing) (i : Nat) (vals : Table Nat) (got : List (List Loc × Nat)) : Ctx :=
  let k := k.putGroup l i vals got
  if k.landsLater (k.vq ++ k.opened) l.reg l.group then k
  else k.setLand l.reg (setBits (k.land l.reg) [l.group] true)

/-- The earliest landing of a group lands, when its reads may be performed. -/
theorem exec_groupLand_of_ready (st : State) (c : Nat) (r : Fin 32) (g : Fin 8) {pre post : List Landing} {l : Landing}
    (hl : (st.ctx c).landing = pre ++ l :: post) (hp : ∀ q ∈ pre, q.reg ≠ r.val ∨ q.group ≠ g.val) (hr : l.reg = r.val)
    (hg : l.group = g.val) (ready : st.landReady c l = true) :
    exec (.groupLand c r g) st = .next ((st.landReads c l).2.2.setCtx c
      fun k => k.landGroup l pre.length (st.landReads c l).1 (st.landReads c l).2.1) := by
  have hi : findIdx (fun (l : Landing) => decide (l.reg = r.val) && decide (l.group = g.val)) (st.ctx c).landing = some pre.length := by
    rw [hl]
    exact findIdx_append_cons post (by simp [hr, hg]) fun q hq => by
      simpa [Classical.or_iff_not_imp_left] using hp q hq
  have hx : (st.ctx c).landing[pre.length]? = some l := by rw [hl]; simp
  change execGroupLand c r g st = _
  simp only [execGroupLand, hi, hx, ready, Bool.not_true, Bool.false_eq_true, if_false]
  rfl

/-- What a landing reads of still memory: for each active element what its location holds (10 R245, R246). -/
theorem State.landReads_of_still {st : State} (hs : st.StillMemory) (c : Nat) {l : Landing} (hg : l.got = []) :
    (st.landReads c l).1 = ((groupSpan l.entry.w l.group).filter l.entry.on).map (fun i => (i, loaded st l.entry l.entry.locs i)) ∧
      OnlyCtxs st (st.landReads c l).2.2 [] := by
  unfold State.landReads
  rw [hg]
  split
  · next b x i m hop =>
    obtain ⟨hv, hc⟩ := State.gather_of_still hs c l.entry ((groupSpan l.entry.w l.group).filter l.entry.on)
    have whole : ∀ i, loaded st l.entry l.entry.locs i = st.numberAt (tget [] l.entry.locs i) := by
      intro i
      rw [loaded_eq, VEntry.partOf, VEntry.addrOf, hop]
    exact ⟨by simp only [hv, whole], hc⟩
  · exact State.readElems_of_still hs c l.entry _

section
variable (k : Ctx) (l : Landing) (i : Nat) (vals : Table Nat) (got : List (List Loc × Nat))

/-- But for the landed bits, a landing leaves a context as it has put the group. -/
theorem Ctx.landGroup_eq : ∃ x, k.landGroup l i vals got = { k.putGroup l i vals got with landed := x } := by
  refine ⟨(k.landGroup l i vals got).landed, ?_⟩
  simp only [Ctx.landGroup]
  split <;> rfl

@[simp] theorem Ctx.landGroup_m : (k.landGroup l i vals got).m = k.m := by
  obtain ⟨x, h⟩ := k.landGroup_eq l i vals got
  rw [h]
  rfl

@[simp] theorem Ctx.landGroup_k : (k.landGroup l i vals got).k = k.k := by
  obtain ⟨x, h⟩ := k.landGroup_eq l i vals got
  rw [h]
  rfl

theorem Ctx.brick_landGroup (r : Nat) : (k.landGroup l i vals got).brick r = if r = l.reg then setGroup (k.brick l.reg) l.group
    (l.settled (l.entry.merge l.entry.on (groupOf (k.brick l.reg) l.group) l.group fun i => tget 0 vals i)) else k.brick r := by
  obtain ⟨x, h⟩ := k.landGroup_eq l i vals got
  rw [h]
  exact k.brick_setBrick l.reg r _

/-- The landings to come are those before, with their groups and words. -/
theorem Ctx.landings_putGroup : ((k.putGroup l i vals got).landing.map fun q => (q.reg, q.group, q.entry)) =
    (dropAt k.landing i).map fun q => (q.reg, q.group, q.entry) := by
  rw [Ctx.putGroup, List.map_map]
  refine List.map_congr_left fun q _ => ?_
  rw [Function.comp_apply]
  split <;> rfl

theorem Ctx.landings_landGroup : ((k.landGroup l i vals got).landing.map fun q => (q.reg, q.group, q.entry)) =
    (dropAt k.landing i).map fun q => (q.reg, q.group, q.entry) := by
  obtain ⟨x, h⟩ := k.landGroup_eq l i vals got
  rw [h]
  exact k.landings_putGroup l i vals got

/-- Where no landing to come and no queued word writes a group, none does later. -/
theorem Ctx.landsLater_eq_false {r g : Nat} (h : ∀ x ∈ k.landing.map (fun q => (q.reg, q.group, q.entry)), x.1 ≠ r ∨ x.2.1 ≠ g) :
    k.landsLater [] r g = false := by
  simpa [Ctx.landsLater, Classical.or_iff_not_imp_left] using h

theorem getLsbD_setBits_singleton (b : BitVec 8) {g : Nat} (hg : g < 8) : (setBits b [g] true).getLsbD g = true := by
  simp only [setBits, List.foldl_cons, List.foldl_nil, if_true, BitVec.getLsbD_or, BitVec.getLsbD_ofNat, hg, decide_true,
    Nat.testBit_two_pow_self, Bool.and_self, Bool.or_true]

/-- The landed bit of a group that no later word writes is set (03 R76). -/
theorem Ctx.land_landGroup (hg : l.group < 8) (hl : ∀ q ∈ dropAt k.landing i, q.reg ≠ l.reg ∨ q.group ≠ l.group)
    (hq : k.vq = []) (ho : k.opened = []) : ((k.landGroup l i vals got).land l.reg).getLsbD l.group = true := by
  have queue : (k.putGroup l i vals got).vq ++ (k.putGroup l i vals got).opened = [] := by
    rw [show (k.putGroup l i vals got).vq = k.vq from rfl, show (k.putGroup l i vals got).opened = k.opened from rfl, hq, ho]
    rfl
  have last : (k.putGroup l i vals got).landsLater [] l.reg l.group = false := by
    refine Ctx.landsLater_eq_false _ ?_
    rw [Ctx.landings_putGroup]
    simpa using hl
  simp only [Ctx.landGroup, queue, last, Bool.false_eq_true, if_false, Ctx.land_setLand, if_true]
  exact getLsbD_setBits_singleton _ hg

end

/-- A landing with no word to zero it afterwards leaves in each element what it has read for it (03 R66, R76). -/
theorem Ctx.elem_landGroup (k : Ctx) (l : Landing) (i : Nat) (got : List (List Loc × Nat)) (v : Nat → Nat) (ha : l.after = [])
    {j : Nat} (hj : j < brickElems l.entry.w) :
    elem ((k.landGroup l i (((groupSpan l.entry.w l.group).filter l.entry.on).map fun i => (i, v i)) got).brick l.reg) l.entry.w j =
      if j / groupElems l.entry.w ≠ l.group ∨ inVL l.entry.w l.entry.ctl.vl j = false then elem (k.brick l.reg) l.entry.w j
      else if l.entry.on j then v j % 2 ^ l.entry.w
      else if bitW l.entry.ctl.vm 6 then 0 else elem (k.brick l.reg) l.entry.w j := by
  rw [Ctx.brick_landGroup, if_pos rfl, Landing.settled, ha, List.foldl_nil, l.entry.elem_merge _ _ _ _ hj]
  by_cases hg : j / groupElems l.entry.w = l.group
  · have span : j ∈ groupSpan l.entry.w l.group := hg ▸ l.entry.mem_groupSpan j
    cases hon : l.entry.on j with
    | false => rfl
    | true => rw [tget_map_of_mem 0 v (List.mem_filter.2 ⟨span, hon⟩)]
  · simp only [hg, ne_eq, not_false_eq_true, true_or, if_true]

/-- The landing of a group from still memory: the context with the group landed, and nothing else changed. -/
theorem exec_groupLand_of_still {st : State} (hs : st.StillMemory) (c : Nat) (r : Fin 32) (g : Fin 8) {pre post : List Landing}
    {l : Landing} (hl : (st.ctx c).landing = pre ++ l :: post) (hp : ∀ q ∈ pre, q.reg ≠ r.val ∨ q.group ≠ g.val)
    (hr : l.reg = r.val) (hg : l.group = g.val) (hgot : l.got = []) (ready : st.landReady c l = true) :
    ∃ t got, exec (.groupLand c r g) st = .next t ∧
      t.ctx c = (st.ctx c).landGroup l pre.length
        (((groupSpan l.entry.w l.group).filter l.entry.on).map fun i => (i, loaded st l.entry l.entry.locs i)) got ∧
      OnlyCtxs st t [c] := by
  obtain ⟨hv, same⟩ := State.landReads_of_still hs c hgot
  refine ⟨_, (st.landReads c l).2.1, exec_groupLand_of_ready st c r g hl hp hr hg ready, ?_, ?_⟩
  · rw [State.setCtx_ctx_same, same.ctxs c List.not_mem_nil, hv]
  · exact (same.mono (List.nil_subset _)).trans (onlyCtxs_setCtx _ c _)

/-- Settles O39: the first word that needs a landed group is served it whole, and a landing puts what its active elements read of
memory at rest, with the landed bit where nothing later writes the group. -/
theorem groupEvents : Obligations.GroupEvents := by
  unfold Obligations.GroupEvents
  intro st c
  refine ⟨fun src j r g e hj hn hb hl hbit => ?_, fun r g pre post l hl hp hr hg ha hgot rest ready => ?_⟩
  · have first := findIdx_eq_some (p := fun e => e.needsRemote c src r.val g.val) hj hn hb
    refine ⟨_, exec_remoteGroupServe_of_landed st c src r g first ((st.ctx src).isLanded_eq_true hl) hbit, ?_, ?_, ?_⟩
    · rw [State.setWord, State.setCtx_ctx_same]
    · rw [State.setWord, State.setCtx_ctx_same]
    · exact onlyCtxs_setCtx st c _
  · intro e _
    have hs := stillMemory_of_seenBy (stillMemory_of_atRest rest)
    have hd : dropAt (st.ctx c).landing pre.length = pre ++ post := by rw [hl, dropAt_append_cons]
    obtain ⟨t, got, ht, hc, only⟩ := exec_groupLand_of_still hs c r g hl hp hr hg hgot ready
    refine ⟨t, ht, ?_, fun j hj => ?_, fun hpost hq ho => ?_, ⟨fun r' hr' => ?_, ?_, ?_⟩, fun k hk => ?_, only.peek_eq⟩
    · rw [hc, Ctx.landings_landGroup, hd]
    · rw [hc, ← hr, ← hg]
      exact (st.ctx c).elem_landGroup l pre.length _ _ ha hj
    · rw [hc, ← hr, ← hg]
      refine (st.ctx c).land_landGroup l pre.length _ _ (hg ▸ g.isLt) (fun q hq => ?_) hq ho
      rw [hd] at hq
      rw [hr, hg]
      exact (List.mem_append.1 hq).elim (hp q) (hpost q)
    · rw [hc, Ctx.brick_landGroup, if_neg (hr ▸ hr')]
    · rw [hc, Ctx.landGroup_m]
    · rw [hc, Ctx.landGroup_k]
    · exact only.ctxs k (mt List.mem_singleton.1 hk)

end Sys2Proof.Machine
end
